-- ==== Sys2Proof/Word.lean ====
section
/-! DEFINITION. The word types of the Maldom and their plainest arithmetic (00, R6 and R7). -/

namespace Sys2Proof

/-- One byte. -/
abbrev Byte := BitVec 8

/-- A 64-bit word: an instruction word (R6), a scalar register, a TB_TIME value (R35). -/
abbrev Word := BitVec 64

/-- A vector register or a channel entry: 2 048 bits, 256 bytes (Table 3-1). -/
abbrev Vec := BitVec 2048

/-- The 11-bit coordinate of a module, group [10:4] and position [3:0] (Table 7-4). -/
abbrev Coord := BitVec 11

end Sys2Proof
end

