-- ==== Sys2Proof/Machine/Rs.lean ====
section
/-! DEFINITION. Stack protection as the memory dies compute it (06, R132, R133): GF(2^8), the RS(18, 16) code over
the channels of a stack, and what a decode of a line comes to. -/

namespace Sys2Proof.Machine

/-! ### GF(2^8) with x^8 + x^4 + x^3 + x^2 + 1 (R132) -/

/-- A field element times α. -/
def gfDouble (a : Byte) : Byte := if a.getLsbD 7 then (a <<< 1) ^^^ 0x1D else a <<< 1
/-- A product of field elements. -/
def gfMul (a b : Byte) : Byte :=
  ((List.range 8).foldl (fun (p : Byte × Byte) i => (if b.getLsbD i then p.1 ^^^ p.2 else p.1, gfDouble p.2)) ((0 : Byte), a)).1
/-- α^n. -/
def gfExp : Nat → Byte
  | 0 => 1
  | n + 1 => gfDouble (gfExp n)
/-- a^254, the inverse of a field element that is not zero. -/
def gfInv (a : Byte) : Byte :=
  let a2 := gfMul a a
  let a4 := gfMul a2 a2
  let a8 := gfMul a4 a4
  let a16 := gfMul a8 a8
  let a32 := gfMul a16 a16
  let a64 := gfMul a32 a32
  let a128 := gfMul a64 a64
  gfMul (gfMul (gfMul a2 a4) (gfMul a8 a16)) (gfMul (gfMul a32 a64) a128)

/-! ### The code

The symbol of channel c is the coefficient of x^c (DESIGN CHOICE, log entry 54). -/

/-- Channels of a stack. -/
def channels : Nat := 18
/-- The syndromes of a word of 18 symbols, at the roots α^0 and α^1. -/
def rsSynd (w : List Byte) : Byte × Byte :=
  (w.foldl (· ^^^ ·) 0, (w.zipIdx).foldl (fun a p => a ^^^ gfMul (gfExp p.2) p.1) 0)
/-- The two symbols that complete 16 to a codeword. -/
def rsParity (d : List Byte) : Byte × Byte :=
  let (a, b) := rsSynd d
  let q := gfMul (b ^^^ gfMul (gfExp 16) a) (gfInv (gfExp 16 ^^^ gfExp 17))
  (a ^^^ q, q)
/-- A codeword: 16 data symbols and their parity. -/
def rsEncode (d : List Byte) : List Byte := d ++ [(rsParity d).1, (rsParity d).2]
/-- The channel that non-zero syndromes point to. -/
def rsPoint (s0 s1 : Byte) : Option Nat :=
  if s0 = 0 ∨ s1 = 0 then none else (List.range channels).find? (fun c => decide (gfMul (gfExp c) s0 = s1))

/-! ### A line in error

The code is linear, so a decode follows from the bits in error alone. Bit `8 * (32 * c + i) + k` of a line is
bit k of byte i of the burst of channel c. -/

/-- Byte `i` of the error in channel `c`, from the bits of the line in error. -/
def errByte (f : List Nat) (c i : Nat) : Byte :=
  (List.range 8).foldl (fun b k => if f.contains (8 * (32 * c + i) + k) then b ||| ((1 : Byte) <<< k) else b) 0
/-- The error of the codeword at byte position `i`; an erased channel counts as zero. -/
def errWord (erased : BitVec 18) (f : List Nat) (i : Nat) : List Byte :=
  (List.range channels).map (fun c => if erased.getLsbD c then 0 else errByte f c i)
/-- The erased channels of a stack. -/
def erasedList (erased : BitVec 18) : List Nat := (List.range channels).filter (fun c => erased.getLsbD c)

/-- What a decode of R133 comes to. -/
inductive Decoded where
  | clean
  /-- corrected by rebuilding erased symbols only -/
  | rebuilt
  /-- one channel's symbol was in error -/
  | corrected (chan : Nat)
  | uncorrectable
  deriving DecidableEq, Repr

/-- R133 for a line with the bits `f` in error. -/
def decodeLine (erased : BitVec 18) (f : List Nat) : Decoded :=
  let syn := if f.isEmpty then [] else (List.range 32).map (fun i => rsSynd (errWord erased f i))
  match erasedList erased with
  | [] =>
    match (syn.filter (fun p => decide (p ≠ (0, 0)))).map (fun p => rsPoint p.1 p.2) with
    | [] => .clean
    | some c :: rest => if rest.all (fun p => decide (p = some c)) then .corrected c else .uncorrectable
    | none :: _ => .uncorrectable
  | [e] => if syn.all (fun p => decide (gfMul (gfExp e) p.1 = p.2)) then .rebuilt else .uncorrectable
  | [_, _] => .rebuilt
  | _ => .uncorrectable

/-- What the decode leaves wrong in channel `c` at byte `i`: the error there, and for a channel that is rebuilt
what the errors of the others make of it. -/
def residual (erased : BitVec 18) (f : List Nat) (d : Decoded) (c i : Nat) : Byte :=
  let (s0, s1) := rsSynd (errWord erased f i)
  match d, erasedList erased with
  | .corrected k, _ => if c = k then errByte f c i ^^^ s0 else errByte f c i
  | .rebuilt, [e] => if c = e then s0 else errByte f c i
  | .rebuilt, [e, g] =>
    let y := gfMul (s1 ^^^ gfMul (gfExp e) s0) (gfInv (gfExp e ^^^ gfExp g))
    if c = g then y else if c = e then s0 ^^^ y else errByte f c i
  | _, _ => errByte f c i

/-- Cipher blocks of 16 bytes of the line whose ciphertext the decode returns wrong. -/
def wrongBlocks (erased : BitVec 18) (f : List Nat) (d : Decoded) : List Nat :=
  (List.range 32).filter (fun b => (List.range 16).any (fun k =>
    decide (residual erased f d (b / 2) (16 * (b % 2) + k) ≠ 0)))

end Sys2Proof.Machine
end

