-- ==== Sys2Proof/Syntax.lean ====
section
/-! DEFINITION. The commands of the block: one constructor of `Instr` for each row of
spec/opcode_table.json, and the records that their operands are made of. -/

namespace Sys2Proof

/-- The operand bits of one stage instruction word (R77): g, gn and gp in `guard`
(bits [57:53] of the word), and bits [46:0] in `body`. The major opcode and the function
code are fixed by the row. -/
structure Op where
  guard : BitVec 5
  body : BitVec 47
  deriving DecidableEq, Repr

/-- The two forms of the scalar class: major 0x08 (register) and major 0x09 (immediate). -/
inductive ScaForm where
  | reg
  | imm
  deriving DecidableEq, Repr

/-- A fabric packet: the header fields of Table 7-4 and the payload bytes. -/
structure Packet where
  dst : Coord
  hopLimit : BitVec 5 := 8
  src : Coord
  kind : Byte
  vc : BitVec 2
  det : Bool := true
  nonmin : Bool := false
  phase : BitVec 2 := 0
  interGroup : BitVec 7 := 0
  viaDone : Bool := false
  jobGen : Byte := 0
  jobId : BitVec 16 := 0
  len : BitVec 13 := 0
  age : BitVec 24 := 0
  dstTile : BitVec 16 := 0
  srcTile : BitVec 16 := 0
  ident : BitVec 16 := 0
  ep : BitVec 3 := 0
  ctx : BitVec 2 := 0
  /-- Byte 23: [3:0] FAB tag, [7:4] source context and endpoint bits. -/
  b23 : Byte := 0
  arg : Word := 0
  payload : List Byte := []
  deriving DecidableEq, Repr

/-- What every flit carries beside its payload (Table 7-2): type, retrain, sequence, acknowledgement, the flit
credits returned per VC, and the CRC-32C of bytes 316 to 319. Beside it, what the clause 91 decoder met with the
flit (R155). -/
structure FlitHdr where
  type : BitVec 4 := 1
  crc : BitVec 32 := 0
  /-- symbols corrected and uncorrectable codewords met with this flit (R155) -/
  fecCorr : Nat := 0
  fecUncorr : Nat := 0
  retrain : Bool := false
  seq : BitVec 12 := 0
  ack : BitVec 12 := 0
  ackValid : Bool := false
  creditReq : BitVec 16 := 0
  creditRsp : BitVec 16 := 0
  creditCol : BitVec 16 := 0
  creditCtl : BitVec 16 := 0
  deriving DecidableEq, Repr

/-- The data part of a DATA flit (Table 7-2). -/
structure FlitData where
  vc : BitVec 2
  phase : BitVec 2 := 0
  sop : Bool
  eop : Bool
  payload : List Byte
  deriving DecidableEq, Repr

/-- What a TRAIN flit says of the lane it comes over (R211, R315): the sender's identity, the
identity it receives from (none: no report yet; coordinate 0x7FF: no sender; log entry 20), and the digest and protocol revision of R315. -/
structure TrainInfo where
  coord : Coord
  skein : BitVec 6
  lane : BitVec 2
  slot : BitVec 3
  heard : Option (Coord × BitVec 6)
  digest : Word := 0
  rev : Byte := 0
  deriving DecidableEq, Repr

/-- The frame of a flock message (Table 7-8): every field of the 128 bytes but the body; beside it, how many bytes
came, and by which way: service port 0 or 1, or as a FLOCK packet at fabric die 0 (2) or 1 (3). -/
structure FlockHdr where
  len : Nat := 128
  via : BitVec 2 := 0
  version : Byte := 1
  type : Byte := 1
  sender : Coord
  pod : BitVec 16
  alive : Byte
  mode : BitVec 2 := 1
  penned : Bool := false
  paddock : Bool := false
  spare : Bool := false
  draining : Bool := false
  term : BitVec 32 := 0
  seq : BitVec 16 := 0
  score : Byte := 255
  tbTime : Word := 0
  tag : BitVec 128 := 0
  crc : BitVec 32 := 0
  deriving DecidableEq, Repr

/-- One entry of a GOSSIP body (Table 10-3). -/
structure GossipEntry where
  subject : Coord
  a : Bool
  b : Bool
  c : Bool
  alive : Byte
  ageMs : BitVec 16
  deriving DecidableEq, Repr

/-- A twin sideband frame (Table 11-2), less its type. -/
structure SideFrame where
  crc : BitVec 32 := 0
  alive : Byte
  sender : Coord
  mainOn : Bool := true
  penned : Bool := false
  bindingOff : Bool := false
  streaming : Bool := false
  reserveReady : Bool := false
  kind : Byte := 0
  heldRow : Word := 0
  digest : Word := 0
  heldGib : BitVec 16 := 0
  deriving DecidableEq, Repr

/-- A control message as it comes over a service port (R356): the fields of its header, its body as bytes, and
its tag, byte 0 lowest. -/
structure CtlHdr where
  version : Byte := 1
  type : Byte := 0
  epoch : BitVec 16
  length : BitVec 32 := 0
  seq : Word
  sender : BitVec 128
  body : List Byte := []
  tag : BitVec 256 := 0
  deriving DecidableEq, Repr

/-- What a control message of a type without a row of its own orders. The spec names these acts of the pod manager
and gives their messages no type numbers and no bodies (log entry 56). -/
inductive CtlOrder where
  | other
  /-- the envelope mode of the module (R20, R25) -/
  | envelopeMode (m : BitVec 2)
  /-- the service action that clears an erased channel once a sweep has passed (R134) -/
  | clearErased (stack chan : Nat) (swept : Bool)
  /-- the service command that clears `hard` (R275) -/
  | clearHard
  /-- the bellwether is to send UNPEN for a subject and the unit that stands there from now (R269) -/
  | unpen (subject : Coord) (digest : Word)
  /-- a vacancy of another group for a paddock graduate (R282) -/
  | vacancy (group : BitVec 7)
  /-- monitor references are taken at commissioning (R215) -/
  | commission
  /-- REJECT_IMAGE, with or without now (R339, R357) -/
  | rejectImage (now : Bool)
  /-- an ownership change: the owner releases the module (R354, R357) -/
  | ownerRelease (sigOk : Bool)
  /-- the storage target of exports (R296) -/
  | storageTarget (address : List Byte)
  deriving DecidableEq, Repr

/-- A route entry (FABn.ROUTE): four choices of (link, weight), the intermediate group, and bits. -/
structure RouteEntry where
  choices : List (BitVec 8 × BitVec 4) := []
  viaGroup : BitVec 7 := 0
  nonmin : Bool := false
  local_ : Bool := false
  valid : Bool := false
  deriving DecidableEq, Repr

/-- One ring move (R206): the element of the engine, a target slot or park, and the lane served. -/
structure Move where
  elem : Nat
  slot : Option (BitVec 3)
  lane : BitVec 2 := 0
  /-- of a receive ring, the sender that the plan expects on the slot -/
  sender : Option (Coord × BitVec 6) := none
  deriving DecidableEq, Repr

/-- A yarn of the plan: the lane of a skein, its two slots, and the sender (coordinate and skein)
that the plan expects on the receive slot (R211). -/
structure Yarn where
  skein : BitVec 6
  lane : BitVec 2
  txSlot : BitVec 3
  rxSlot : BitVec 3
  fromCoord : Coord
  fromSkein : BitVec 6
  deriving DecidableEq, Repr

/-- One reach entry as the pod manager gives it (R204). -/
structure ReachEntry where
  skein : BitVec 6
  slot : BitVec 3
  coord : Coord
  remoteSkein : BitVec 6
  deriving DecidableEq, Repr

/-- One spare variant (R284): the route entries and yarn moves for a position of a group. -/
structure Variant where
  group : BitVec 7
  pos : BitVec 4
  routes : List (BitVec 1 × Coord × RouteEntry) := []
  moves : List (Nat × Move) := []
  deriving DecidableEq, Repr

/-- The pod plan (R321), with the key epoch (R355) and ide_required (R360). -/
structure Plan where
  version : BitVec 16
  pod : BitVec 16
  epoch : BitVec 16
  digests : List (Word × Coord) := []
  /-- (fabric die, port of the die, division 0, 1 or 2) -/
  ports : List (BitVec 1 × BitVec 4 × BitVec 2) := []
  /-- (fabric die, electrical link 0-47, planned partner) -/
  partners : List (BitVec 1 × BitVec 6 × Coord) := []
  acceptSwaps : Bool := false
  reach : List ReachEntry := []
  yarns : List Yarn := []
  routes : List (BitVec 1 × Coord × RouteEntry) := []
  twins : List (BitVec 4 × BitVec 4) := []
  variants : List Variant := []
  allowed : BitVec 4 := 1
  windowHours : Byte := 24
  floor : BitVec 16 := 0
  ideRequired : Bool := false
  deriving DecidableEq, Repr

/-- An event as a block hands it to the Tally Book (R363, Table 14-4). `value` is none for a code
that carries no values. -/
structure Event where
  code : BitVec 16
  source : BitVec 16
  severity : BitVec 3
  value : Option (BitVec 32) := none
  jobId : BitVec 16 := 0
  jobGen : Byte := 0
  hurId : BitVec 12 := 0
  hurGen : Byte := 0
  row : Word := 0
  deriving DecidableEq, Repr

/-- What an image shows (R331 to R333): of the one that the factory put into a slot the model holds no bytes, and CO1
brings this. -/
structure ImageInfo where
  /-- Header facts of Table 13-1 as read from the image bytes. -/
  headerOk : Bool := true
  signatureOk : Bool := true
  hwType : BitVec 32 := 0x00484D01
  unitId : BitVec 256 := 0
  version : BitVec 32 := 0
  securityVersion : BitVec 32 := 0
  settingsFormat : BitVec 16 := 0
  protoRev : Byte := 0
  keyId : BitVec 1 := 0
  gateDigest : BitVec 256 := 0
  shepDigest : BitVec 256 := 0
  ucodeDigest : BitVec 256 := 0
  ucodeVersion : BitVec 16 := 0
  loopDigest : BitVec 256 := 0
  headerDigest : BitVec 256 := 0
  deriving DecidableEq, Repr

/-- The samples of one Crook period (Table 9-1, slot 0): the monitor ADC codes of the elements, the
AC/DC ratios and eye metrics the front ends report, the feed taps (primary, secondary of each
skein, 0.01 dBm), the dark-slot monitors, the rail and the temperature. -/
structure CrookSample where
  mon : List (BitVec 12) := []
  acdc : List (BitVec 16) := []
  eye : List (BitVec 16) := []
  taps : List (BitVec 16 × BitVec 16) := []
  dark : List (BitVec 16) := []
  railMv : BitVec 12 := 3300
  temp : BitVec 16 := 4500
  deriving DecidableEq, Repr

/-- The feed taps of a source's buses at CO7, 0.01 dBm, at 8f + i for bus i of fibre f in the order of Table 8-4: in safe
mode, and once its output stands as the check has left it (R202). -/
structure SourceTaps where
  safe : List (BitVec 16)
  full : List (BitVec 16)
  deriving DecidableEq, Repr

/-- What the Gate reads from one comb source (R200, Table 8-5): page 0 status and temperature, and
per line the bias over its reference in percent and the power against commissioning, 0.01 dB. -/
structure EcsReport where
  ready : Bool
  outputOn : Bool
  safe : Bool
  fault : Bool
  temperature : BitVec 16
  serial : BitVec 128
  bias : List (BitVec 16) := []
  biasRef : List (BitVec 16) := []
  /-- power of line k on fibre f at index 8f + k, signed 0.01 dBm -/
  power : List (BitVec 16) := []
  deriving DecidableEq, Repr

/-- What the qualification of a lane counts (R316): after training in full, and where the lane is fast-started
before that; `partner` is the digest and revision met (R315). -/
structure LaneOutcome where
  lane : Nat
  partner : Option (Word × Byte)
  /-- bits in error among the bits carried -/
  errs : Nat
  bits : Nat
  uncorr : BitVec 16
  fastErrs : Nat := 0
  fastBits : Nat := 0
  fastUncorr : BitVec 16 := 0
  /-- junction temperature of the fabric die, 0.25 °C -/
  temp : BitVec 16 := 0
  deriving DecidableEq, Repr

/-- One entry of the defect map or of the field repair list (Table 12-6 and R312). -/
inductive Repair where
  | failedTile (die row col : Nat)
  | spareCol (die row col : Nat)
  | storeRow (die trow tcol sub row : Nat)
  | erased (stack chan : Nat)
  deriving DecidableEq, Repr

/-- The answers of a directed probe (R272): tiles that answered and whether the loopback passed. -/
structure ProbeAnswers where
  failed : BitVec 40
  loopbackOk : Bool
  deriving DecidableEq, Repr

/-- The commands of the block, one for each row of spec/opcode_table.json. -/
inductive Instr where
  /-- AUX_POWER_UP (R304): Application of 12 V aux starts TB_TIME from 0, loads the Tally Book from a mirror and runs cast-on CO0 to CO9. -/
  | auxPowerUp
  /-- AUX_PG_FALL (R18): AUX_PG falls or the aux monitor finds AUX_12V low; main domains go off within 100 µs, the ring is frozen and written to flash, and comb sources go to safe mode. -/
  | auxPgFall
  /-- MAIN_POWER_LOSS (R17): Main power fails or MAIN_EN falls without command; aux keeps running and the Shepherd sends a class (d) self-report. -/
  | mainPowerLoss
  /-- MAIN_POWER_REMOVE (R15): After DRAIN, main power is removed once the transit counters have been idle for 100 µs or 50 ms has passed. -/
  | mainPowerRemove
  /-- ENVELOPE_STEP (R21): Every 100 µs the envelope controller moves the core voltage by 5 mV within the mode's range to hold the power limit. -/
  | envelopeStep (watts : Nat) (hotQuarterC : Int)
  /-- ADMISSION_PAUSE (R22): Power above the mode limit for 10 ms at 0.60 V pauses handshake admission in 1 µs slices and records the interval. -/
  | admissionPause (watts : Nat) (ticks : BitVec 32)
  /-- ENVELOPE_SET (R23): Command selecting envelope mode P0 to P3; P3 entry is refused with BUSY unless every chain stands at a hurdle. -/
  | envelopeSet (r : Nat)
  /-- BEAT_WINDOW_END (R32): At the end of each beat window the tile die latches BEAT_RATE, BEAT_MIN and SENSE together. -/
  | beatWindowEnd (die : Nat) (beats : BitVec 32) (vcoreMv : BitVec 12) (tj : BitVec 12)
  /-- BEAT_WINDOW_WRITE (R33): A write of BEAT_CTL.window that changes the window abandons the window in progress and restarts at the next tick. -/
  | beatWindowWrite (die : Nat) (window : BitVec 20) (beats : BitVec 32)
  /-- MIN_REARM (R32): Writing min_rearm sets BEAT_MIN to 0xFFFF_FFFF. -/
  | minRearm (die : Nat)
  /-- TB_TICK (R35): The Gate increments TB_TIME once per 10 ns tick and distributes it to every die. `upsets` names the array bits that turn over in the tick: the address of a slice word or protected line, and the bit (R127, R133). -/
  | tbTick (upsets : List (Nat × Nat))
  /-- HOLDOVER_ENTRY (R36): REFCLK absent for 1 µs or beyond ±300 ppm puts the Gate in holdover and raises hard-fault code 2. -/
  | holdoverEntry (ppm : BitVec 16)
  /-- HOLDOVER_EXIT (R36): REFCLK in tolerance for 10 ms ends holdover, clears hard and retrains links as at CO4 and CO6. -/
  | holdoverExit (ppm : BitVec 16)
  /-- CTL_NOP (R43): No operation. -/
  | ctlNop (t : Nat) (o : Op)
  /-- CTL_BR (R82): Branch by a word offset, costing 2 beats when taken. -/
  | ctlBr (t : Nat) (o : Op)
  /-- CTL_BL (R82): Branch and link, writing pc + 1 to sd. -/
  | ctlBl (t : Nat) (o : Op)
  /-- CTL_JR (R82): Jump to the address in sa. -/
  | ctlJr (t : Nat) (o : Op)
  /-- CTL_LOOP (R83): Starts a hardware loop on a level with the count in a register. -/
  | ctlLoop (t : Nat) (o : Op)
  /-- CTL_LOOPI (R83): Starts a hardware loop on a level with an immediate count. -/
  | ctlLoopi (t : Nat) (o : Op)
  /-- CTL_BREAK (R85): Leaves a loop level and every inner level. -/
  | ctlBreak (t : Nat) (o : Op)
  /-- CTL_LIDX (R83): Reads the passes completed on a loop level. -/
  | ctlLidx (t : Nat) (o : Op)
  /-- CTL_YIELD (R51): Passes the front end to the next READY context. -/
  | ctlYield (t : Nat) (o : Op)
  /-- CTL_HALT (R103): Waits on every tag in flight and then enters DONE. -/
  | ctlHalt (t : Nat) (o : Op)
  /-- SCA_ADD (R86): Scalar add, register or immediate form. -/
  | scaAdd (t : Nat) (f : ScaForm) (o : Op)
  /-- SCA_SUB (R86): Scalar subtract. -/
  | scaSub (t : Nat) (f : ScaForm) (o : Op)
  /-- SCA_MUL (R86): Low 64 bits of a product. -/
  | scaMul (t : Nat) (f : ScaForm) (o : Op)
  /-- SCA_MULH (R86): High 64 bits of a signed product. -/
  | scaMulh (t : Nat) (f : ScaForm) (o : Op)
  /-- SCA_MULHU (R86): High 64 bits of an unsigned product. -/
  | scaMulhu (t : Nat) (f : ScaForm) (o : Op)
  /-- SCA_DIV (R86): Signed division occupying the control/scalar unit for 24 beats. -/
  | scaDiv (t : Nat) (f : ScaForm) (o : Op)
  /-- SCA_DIVU (R86): Unsigned division. -/
  | scaDivu (t : Nat) (f : ScaForm) (o : Op)
  /-- SCA_REM (R86): Signed remainder. -/
  | scaRem (t : Nat) (f : ScaForm) (o : Op)
  /-- SCA_REMU (R86): Unsigned remainder. -/
  | scaRemu (t : Nat) (f : ScaForm) (o : Op)
  /-- SCA_AND (R86): Bitwise and. -/
  | scaAnd (t : Nat) (f : ScaForm) (o : Op)
  /-- SCA_OR (R86): Bitwise or. -/
  | scaOr (t : Nat) (f : ScaForm) (o : Op)
  /-- SCA_XOR (R86): Bitwise exclusive or. -/
  | scaXor (t : Nat) (f : ScaForm) (o : Op)
  /-- SCA_SHL (R86): Logical shift left. -/
  | scaShl (t : Nat) (f : ScaForm) (o : Op)
  /-- SCA_SHR (R86): Logical shift right. -/
  | scaShr (t : Nat) (f : ScaForm) (o : Op)
  /-- SCA_SRA (R86): Arithmetic shift right. -/
  | scaSra (t : Nat) (f : ScaForm) (o : Op)
  /-- SCA_MIN (R86): Signed minimum. -/
  | scaMin (t : Nat) (f : ScaForm) (o : Op)
  /-- SCA_MAX (R86): Signed maximum. -/
  | scaMax (t : Nat) (f : ScaForm) (o : Op)
  /-- SCA_MINU (R86): Unsigned minimum. -/
  | scaMinu (t : Nat) (f : ScaForm) (o : Op)
  /-- SCA_MAXU (R86): Unsigned maximum. -/
  | scaMaxu (t : Nat) (f : ScaForm) (o : Op)
  /-- SCA_LI (R86): Loads a sign-extended immediate. -/
  | scaLi (t : Nat) (f : ScaForm) (o : Op)
  /-- SCA_LIH (R86): Loads the high 32 bits of a register. -/
  | scaLih (t : Nat) (f : ScaForm) (o : Op)
  /-- SCA_CMP (R86): Compares two scalars into a predicate. -/
  | scaCmp (t : Nat) (f : ScaForm) (o : Op)
  /-- SCA_PLOG (R86): Logical operation on predicates. -/
  | scaPlog (t : Nat) (f : ScaForm) (o : Op)
  /-- SCA_PGET (R86): Copies the predicates into a scalar. -/
  | scaPget (t : Nat) (f : ScaForm) (o : Op)
  /-- SCA_PSET (R86): Sets the predicates from a scalar. -/
  | scaPset (t : Nat) (f : ScaForm) (o : Op)
  /-- SCA_AMOV (R86): Moves a scalar into an address register. -/
  | scaAmov (t : Nat) (f : ScaForm) (o : Op)
  /-- SCA_AGET (R86): Moves an address register into a scalar. -/
  | scaAget (t : Nat) (f : ScaForm) (o : Op)
  /-- SCA_AADD (R86): Adds to an address register modulo 2^48. -/
  | scaAadd (t : Nat) (f : ScaForm) (o : Op)
  /-- VEC_VADD (R87): Lane-wise add. -/
  | vecVadd (t : Nat) (o : Op)
  /-- VEC_VSUB (R87): Lane-wise subtract. -/
  | vecVsub (t : Nat) (o : Op)
  /-- VEC_VMUL (R87): Lane-wise multiply. -/
  | vecVmul (t : Nat) (o : Op)
  /-- VEC_VFMA (R120): Fused multiply-add with one rounding. -/
  | vecVfma (t : Nat) (o : Op)
  /-- VEC_VMIN (R120): Lane-wise minimum. -/
  | vecVmin (t : Nat) (o : Op)
  /-- VEC_VMAX (R120): Lane-wise maximum. -/
  | vecVmax (t : Nat) (o : Op)
  /-- VEC_VAND (R87): Bitwise and of vectors. -/
  | vecVand (t : Nat) (o : Op)
  /-- VEC_VOR (R87): Bitwise or of vectors. -/
  | vecVor (t : Nat) (o : Op)
  /-- VEC_VXOR (R87): Bitwise exclusive or of vectors. -/
  | vecVxor (t : Nat) (o : Op)
  /-- VEC_VSHL (R87): Lane-wise shift left. -/
  | vecVshl (t : Nat) (o : Op)
  /-- VEC_VSHR (R87): Lane-wise shift right. -/
  | vecVshr (t : Nat) (o : Op)
  /-- VEC_VCMP (R120): Lane-wise compare to masks. -/
  | vecVcmp (t : Nat) (o : Op)
  /-- VEC_VSEL (R87): Lane-wise select. -/
  | vecVsel (t : Nat) (o : Op)
  /-- VEC_VCVT (R88): Converts lanes between types using part. -/
  | vecVcvt (t : Nat) (o : Op)
  /-- VEC_VFN (R89): Elementary function on binary32 lanes. -/
  | vecVfn (t : Nat) (o : Op)
  /-- VEC_VRED (R89): Reduces all lanes into lane 0 in fixed order. -/
  | vecVred (t : Nat) (o : Op)
  /-- VEC_VBCAST (R87): Broadcasts a scalar to every lane. -/
  | vecVbcast (t : Nat) (o : Op)
  /-- VEC_VEXT (R87): Extracts one lane into a scalar. -/
  | vecVext (t : Nat) (o : Op)
  /-- VEC_VINS (R87): Inserts a scalar into one lane. -/
  | vecVins (t : Nat) (o : Op)
  /-- VEC_VPERM (R87): Permutes lanes. -/
  | vecVperm (t : Nat) (o : Op)
  /-- VEC_VMXQ (R90): Quantises binary32 lanes into two MX blocks with scales. -/
  | vecVmxq (t : Nat) (o : Op)
  /-- VEC_VMXD (R90): Dequantises an MX part into binary32 lanes. -/
  | vecVmxd (t : Nat) (o : Op)
  /-- VEC_VMOV (R109): Copies a vector register. -/
  | vecVmov (t : Nat) (o : Op)
  /-- VEC_VZERO (R109): Zeroes a vector register. -/
  | vecVzero (t : Nat) (o : Op)
  /-- VEC_VNEG (R109): Lane-wise negation. -/
  | vecVneg (t : Nat) (o : Op)
  /-- VEC_VABS (R109): Lane-wise absolute value. -/
  | vecVabs (t : Nat) (o : Op)
  /-- MAT_LDW (R91): Loads a weight buffer from the slice and sets its format tag. -/
  | matLdw (t : Nat) (o : Op)
  /-- MAT_ZACC (R91): Zeroes an accumulator. -/
  | matZacc (t : Nat) (o : Op)
  /-- MAT_ACCW (R91): Writes accumulator values from vector lanes. -/
  | matAccw (t : Nat) (o : Op)
  /-- MAT_ACCR (R94): Converts an accumulator into vector lanes, optionally clearing it. -/
  | matAccr (t : Nat) (o : Op)
  /-- MAT_MMA (R92): Multiply-accumulates an activation operand by a weight buffer into an accumulator. -/
  | matMma (t : Nat) (o : Op)
  /-- MAT_ACCST (R94): Writes an accumulator to the slice, optionally clearing it. -/
  | matAccst (t : Nat) (o : Op)
  /-- STO_LDV (R95): Loads 256 bytes into a vector register. -/
  | stoLdv (t : Nat) (o : Op)
  /-- STO_STV (R96): Stores a vector register. -/
  | stoStv (t : Nat) (o : Op)
  /-- STO_LDVI (R95): Vector load with address post-increment. -/
  | stoLdvi (t : Nat) (o : Op)
  /-- STO_STVI (R96): Vector store with address post-increment. -/
  | stoStvi (t : Nat) (o : Op)
  /-- STO_STVM (R96): Masked store of 32-bit lanes. -/
  | stoStvm (t : Nat) (o : Op)
  /-- STO_GATH (R95): Gathers 4-byte lanes by offsets. -/
  | stoGath (t : Nat) (o : Op)
  /-- STO_SCAT (R95): Scatters 4-byte lanes in increasing lane order. -/
  | stoScat (t : Nat) (o : Op)
  /-- STO_LD8 (R95): Signed 8-bit scalar load. -/
  | stoLd8 (t : Nat) (o : Op)
  /-- STO_LD8U (R95): Unsigned 8-bit scalar load. -/
  | stoLd8u (t : Nat) (o : Op)
  /-- STO_LD16 (R95): Signed 16-bit scalar load. -/
  | stoLd16 (t : Nat) (o : Op)
  /-- STO_LD16U (R95): Unsigned 16-bit scalar load. -/
  | stoLd16u (t : Nat) (o : Op)
  /-- STO_LD32 (R95): Signed 32-bit scalar load. -/
  | stoLd32 (t : Nat) (o : Op)
  /-- STO_LD32U (R95): Unsigned 32-bit scalar load. -/
  | stoLd32u (t : Nat) (o : Op)
  /-- STO_LD64 (R95): 64-bit scalar load. -/
  | stoLd64 (t : Nat) (o : Op)
  /-- STO_ST8 (R96): 8-bit scalar store. -/
  | stoSt8 (t : Nat) (o : Op)
  /-- STO_ST16 (R96): 16-bit scalar store. -/
  | stoSt16 (t : Nat) (o : Op)
  /-- STO_ST32 (R96): 32-bit scalar store. -/
  | stoSt32 (t : Nat) (o : Op)
  /-- STO_ST64 (R96): 64-bit scalar store. -/
  | stoSt64 (t : Nat) (o : Op)
  /-- MEM_GET (R97): Starts a transfer from module memory into the window under a tag. -/
  | memGet (t : Nat) (o : Op)
  /-- MEM_PUT (R97): Starts a transfer from the window to module memory. -/
  | memPut (t : Nat) (o : Op)
  /-- MEM_GETS (R97): Starts a strided multi-row get. -/
  | memGets (t : Nat) (o : Op)
  /-- MEM_PUTS (R97): Starts a strided multi-row put. -/
  | memPuts (t : Nat) (o : Op)
  /-- MEM_WAIT (R50): Blocks until a MEM tag completes, starving the context. -/
  | memWait (t : Nat) (o : Op)
  /-- MEM_TEST (R97): Sets a predicate if a MEM tag is complete. -/
  | memTest (t : Nat) (o : Op)
  /-- MEM_STAT (R97): Reads the status of a MEM tag. -/
  | memStat (t : Nat) (o : Op)
  /-- MEM_TRANSFER_COMPLETE (R147): A MEM transfer ends and its tag completes with its status. -/
  | memTransferComplete (t : Nat) (c : Nat) (tag : Nat)
  /-- STR_SEND (R45): Sends a vector as one channel entry, consuming a credit. -/
  | strSend (t : Nat) (o : Op)
  /-- STR_RECV (R45): Takes the next entry of an inbound channel and frees its credit. -/
  | strRecv (t : Nat) (o : Op)
  /-- STR_FWD (R98): Moves an inbound entry to an outbound endpoint without a register. -/
  | strFwd (t : Nat) (o : Op)
  /-- STR_EOS (R47): Tests whether an inbound channel has delivered its last entry. -/
  | strEos (t : Nat) (o : Op)
  /-- STR_AVAIL (R98): Tests whether an inbound entry is waiting. -/
  | strAvail (t : Nat) (o : Op)
  /-- STR_CRED (R98): Tests whether an outbound endpoint holds a credit. -/
  | strCred (t : Nat) (o : Op)
  /-- FAB_PUT (R99): Starts a remote put to a peer module under a FAB tag. -/
  | fabPut (t : Nat) (o : Op)
  /-- FAB_GET (R99): Starts a remote get from a peer module. -/
  | fabGet (t : Nat) (o : Op)
  /-- FAB_RED (R100): Arrives at a level-2 hurdle with a reduction contribution. -/
  | fabRed (t : Nat) (o : Op)
  /-- FAB_WAIT (R99): Blocks until a FAB tag completes. -/
  | fabWait (t : Nat) (o : Op)
  /-- FAB_TEST (R99): Sets a predicate if a FAB tag is complete. -/
  | fabTest (t : Nat) (o : Op)
  /-- FAB_STAT (R99): Reads the status of a FAB tag. -/
  | fabStat (t : Nat) (o : Op)
  /-- FAB_TRANSFER_COMPLETE (R182): Every packet of a FAB transfer is answered and its tag completes with the highest status. -/
  | fabTransferComplete (t : Nat) (c : Nat) (tag : Nat)
  /-- HUR_ARRIVE (R64): Arrives at a hurdle at its current generation. -/
  | hurArrive (t : Nat) (o : Op)
  /-- HUR_WAIT (R64): Blocks until the generation arrived at is released. -/
  | hurWait (t : Nat) (o : Op)
  /-- HUR_SYNC (R64): Arrives at and waits on a hurdle. -/
  | hurSync (t : Nat) (o : Op)
  /-- HUR_GEN (R64): Reads a hurdle's current generation. -/
  | hurGen (t : Nat) (o : Op)
  /-- ARRIVAL_WRITES_COMPLETE (R71): A held arrival counts toward release once the context's earlier writes are visible at the hurdle's level. -/
  | arrivalWritesComplete (t : Nat) (c : Nat) (h : BitVec 12)
  /-- SYS_ROW (R69): Reads the job's row counter. -/
  | sysRow (t : Nat) (o : Op)
  /-- SYS_GETFLAGS (R122): Reads the sticky flags after earlier flag-setting instructions complete. -/
  | sysGetflags (t : Nat) (o : Op)
  /-- SYS_CLRFLAGS (R122): Clears selected sticky flags. -/
  | sysClrflags (t : Nat) (o : Op)
  /-- SYS_SETRM (R122): Sets the context rounding mode. -/
  | sysSetrm (t : Nat) (o : Op)
  /-- SYS_SETFTZ (R122): Sets the FTZ bit. -/
  | sysSetftz (t : Nat) (o : Op)
  /-- SYS_SEED (R101): Reseeds the stochastic-rounding generator. -/
  | sysSeed (t : Nat) (o : Op)
  /-- SYS_GETSEED (R101): Reads the generator state. -/
  | sysGetseed (t : Nat) (o : Op)
  /-- SYS_EVENT (R102): Posts a STAGE_EVENT completion after earlier writes are visible. -/
  | sysEvent (t : Nat) (o : Op)
  /-- SYS_TILE (R77): Reads the logical tile and context. -/
  | sysTile (t : Nat) (o : Op)
  /-- SYS_JOB (R77): Reads the job ID and generation. -/
  | sysJob (t : Nat) (o : Op)
  /-- SYS_TIME (R40): Reads TB_TIME. -/
  | sysTime (t : Nat) (o : Op)
  /-- SYS_BEATS (R40): Reads the context's CTX_BEATS. -/
  | sysBeats (t : Nat) (o : Op)
  /-- SYS_GETRM (R77): Reads the rounding mode and FTZ bit. -/
  | sysGetrm (t : Nat) (o : Op)
  /-- WAIT_CAUSE_CLEAR (R52): A WAITING context returns to READY once its cause clears and takes the front end if the tile is idle. -/
  | waitCauseClear (t : Nat) (c : Nat)
  /-- TILE_FAILURE (R73): A network interface finds its tile's pipeline unresponsive and stops its contexts with fault code 7. -/
  | tileFailure (t : Nat)
  /-- TILE_FAULT_RECORD (R74): The Shepherd receives a fault record, writes a Tally event, counts it and posts TILE_FAULT. -/
  | tileFaultRecord
  /-- CH_CREDIT_SEND (R45): A network interface sends a coalesced CH_CREDIT when 8 credits are pending or 20 ticks have passed. -/
  | chCreditSend (t : Nat) (c : Nat) (ep : Nat)
  /-- ROW_MAP_WRITE (R56): The Shepherd writes a tile row remap, applied at once or held pending. -/
  | rowMapWrite (die : Nat) (row : Nat) (col : BitVec 4) (healthy : Bool) (absent : Option (BitVec 4))
  /-- PENDING_MAP_APPLY (R56): A pending ROW_MAP is applied in the beat the row's last context becomes EMPTY. -/
  | pendingMapApply (die : Nat) (row : Nat)
  /-- LOAD_CHAIN (R60): Command that checks a chain image and writes all its contexts or none. -/
  | loadChain (r : Nat) (dmaOk : Bool) (image : List Byte) (peers : List Coord)
  /-- START_CHAIN (R62): Command that checks job identity and puts LOADED contexts into READY with credits granted. -/
  | startChain (r : Nat)
  /-- STOP_CHAIN (R63): Command that stops every live context of a chain with fault code 6. -/
  | stopChain (r : Nat)
  /-- UNLOAD_CHAIN (R63): Command that returns STOPPED and DONE contexts to EMPTY. -/
  | unloadChain (r : Nat)
  /-- HURDLE_ARRIVAL (R65): The hurdle unit receives a tile die's summed arrival message for a level-1 or level-2 hurdle. -/
  | hurdleArrival (die : Nat)
  /-- HURDLE_TIMEOUT (R68): A hurdle open for HUR_TIMEOUT ticks raises a Tally event and a HURDLE_TIMEOUT completion. -/
  | hurdleTimeout (j : Nat) (h : BitVec 12)
  /-- HUR_TIMEOUT_WRITE (R68): A write of HUR_TIMEOUT applies at once to open hurdles, reporting any already past it. -/
  | hurTimeoutWrite (ticks : BitVec 32)
  /-- RELEASE_HOLD_END (R174): A level-2 release held for 1 600 ticks after the previous release of the same hurdle proceeds. -/
  | releaseHoldEnd (j : Nat) (h : BitVec 12)
  /-- STORE_SCRUB (R127): The store patrol scrubber visits a word on idle port beats and corrects it. -/
  | storeScrub (t : Nat) (word : Nat)
  /-- SCRUB_ROW_REPORT (R127): The Shepherd receives a report of a row with 8 corrected words and adds it to the field repair list. -/
  | scrubRowReport (die : Nat) (trow : Nat) (tcol : Nat) (sub : Nat) (row : Nat)
  /-- LINE_ACCESS (R136): A memory die performs one read, full write or read-modify-write of a line indivisibly. -/
  | lineAccess (addr : Nat) (data : Option (Nat × List Byte)) (link : Nat)
  /-- MEMORY_SCRUB (R137): The memory patrol scrubber reads and decodes a line, writing back corrections. -/
  | memoryScrub (md : Nat) (link : Nat)
  /-- SELF_REFRESH_RETURN (R131): In P3 the stacks return to self-refresh 1 ms after twin traffic ends. -/
  | selfRefreshReturn (md : Nat)
  /-- BAND_OWNER_WRITE (R139): A write of GATE.BAND.owner is accepted or refused and counted. -/
  | bandOwnerWrite (firmware : Bool) (band : Nat) (owner : BitVec 4)
  /-- BAR2_READ (R149): A host read through BAR2 reaches an allowed location or completes with Completer Abort. -/
  | bar2Read (off : Nat) (len : Nat)
  /-- BAR2_WRITE (R149): A host write through BAR2 is performed, merged or discarded. -/
  | bar2Write (off : Nat) (bytes : List Byte)
  /-- BAR2_MERGE_TIMEOUT (R151): Posted partial writes not completing a line within 1 µs go to the memory die as read-modify-writes. -/
  | bar2MergeTimeout
  /-- UE_REPORT (R154): The Shepherd receives an uncorrectable error report and acts by the owner of the location. -/
  | ueReport
  /-- LANE_REMOVE (R159): A lane losing lock or with 16 uncorrectable codewords in 1 ms is removed and its link restriped. -/
  | laneRemove (fd : Nat) (lane : Nat) (lost : Bool) (uncorr : Nat)
  /-- DATA_FLIT (R161): The receiver accepts an in-order DATA flit or sends one NAK on a CRC failure or gap. -/
  | dataFlit (fd : Nat) (k : Nat) (h : FlitHdr) (d : FlitData)
  /-- ACK_FLIT (R161): An ACK frees acknowledged flits from the replay buffer. -/
  | ackFlit (fd : Nat) (k : Nat) (h : FlitHdr)
  /-- NAK_FLIT (R161): A NAK makes the sender replay from ack + 1 in order. -/
  | nakFlit (fd : Nat) (k : Nat) (h : FlitHdr)
  /-- IDLE_FLIT (R160): An IDLE flit returns flit credits and acknowledgements. -/
  | idleFlit (fd : Nat) (k : Nat) (h : FlitHdr)
  /-- TRAIN_FLIT (R211): A TRAIN flit carries identities for the identity check of a lane. -/
  | trainFlit (fd : Nat) (k : Nat) (h : FlitHdr) (i : TrainInfo)
  /-- IDENTITY_REPORT_TIMEOUT (R211): A far end sending no identity report within 3 ms marks the transmit ring misrouted. -/
  | identityReportTimeout (fd : Nat) (k : Nat)
  /-- ACK_TIMER (R161): An acknowledgement is sent at most 20 ticks after an unacknowledged accept. -/
  | ackTimer (fd : Nat) (k : Nat)
  /-- LINK_FAIL (R163): A link without acknowledgement progress or down for 10 ms fails and its replay buffer is dropped. -/
  | linkFail (fd : Nat) (k : Nat)
  /-- COMMANDED_RETRAIN (R164): A fabric die sets retrain in its flits and stops sending for a commanded retrain. -/
  | commandedRetrain (fd : Nat) (k : Nat)
  /-- TRANSIT_PACKET (R175): A fabric die routes a packet by overlay or base entry, updating age and hop_limit, or drops it. -/
  | transitPacket (fd : Nat) (k : Nat) (p : Packet) (residence : Nat)
  /-- CH_ENTRY (R46): A channel entry arrives and is written into the receive buffer in sequence order or dropped. -/
  | chEntry (fd : Nat) (p : Packet)
  /-- CH_CREDIT (R45): Returned credits arrive at the sender's endpoint. -/
  | chCredit (fd : Nat) (p : Packet)
  /-- PUT (R181): The destination checks a PUT against the address filter, writes it and acknowledges. -/
  | put (fd : Nat) (p : Packet)
  /-- PUT_ACK (R182): A PUT acknowledgement with status arrives at the source. -/
  | putAck (fd : Nat) (p : Packet)
  /-- GET_REQ (R181): The destination checks a GET request and answers with GET_DATA. -/
  | getReq (fd : Nat) (p : Packet)
  /-- GET_DATA (R182): GET data with status arrives and lands in the window. -/
  | getData (fd : Nat) (p : Packet)
  /-- RED_UP (R183): A reduction contribution arrives at a reduction engine. -/
  | redUp (fd : Nat) (p : Packet)
  /-- RED_DOWN (R183): The root's reduction result arrives and is written to the members' windows. -/
  | redDown (fd : Nat) (p : Packet)
  /-- REDUCTION_CHUNK_COMBINE (R183): A chunk is combined in fixed order once every contribution to it is present. -/
  | reductionChunkCombine (j : Nat) (h : BitVec 12) (chunk : Nat)
  /-- HUR_ARRIVE_PACKET (R67): A hurdle arrival from another module is counted, opened early or dropped as stale. -/
  | hurArrivePacket (p : Packet)
  /-- HUR_RELEASE_PACKET (R65): A RELEASE from the parent releases the hurdle and is sent down the tree. -/
  | hurReleasePacket (p : Packet)
  /-- KEEPALIVE_SEND (R186): A link idle on CTL for 100 µs sends a KEEPALIVE. -/
  | keepaliveSend (fd : Nat) (k : Nat)
  /-- KEEPALIVE (R186): A received keepalive is judged by the alive-counter rule and its digest checked. -/
  | keepalive (fd : Nat) (k : Nat) (sender : Coord) (alive : Byte) (penned draining retrain : Bool) (digest : Word)
  /-- PARTNER_SILENT (R186): A link without CTL packets for 1 ms reports the partner silent as class (a). -/
  | partnerSilent (fd : Nat) (k : Nat)
  /-- DRAIN (R190): A DRAIN marks links to the sender draining by reason and moves routes off them. -/
  | drain (fd : Nat) (k : Nat) (src : Coord) (reason : Byte)
  /-- READY (R190): READY from a module ends the draining of its links. -/
  | ready (fd : Nat) (k : Nat) (src : Coord)
  /-- DROP (R172): A DROP notice completes the transfer's tag with status 4, posts FABRIC_LOSS or resends granules. -/
  | drop (fd : Nat) (p : Packet)
  /-- PROBE (R75): A tile's network interface answers an echo probe whatever its contexts' states. -/
  | probe (fd : Nat) (p : Packet)
  /-- PROBE_REPLY (R272): An echo answer reaches the prober. -/
  | probeReply (fd : Nat) (p : Packet)
  /-- CKPT (R294): A holder writes a checkpoint granule into the in-progress version and seals at the last. -/
  | ckpt (fd : Nat) (p : Packet) (uncorrectable : Bool)
  /-- CKPT_ACK (R294): A checkpoint acknowledgement arrives; after sealing the coordinator reports ready. -/
  | ckptAck (fd : Nat) (p : Packet)
  /-- FENCE_WRITE (R189): A Shepherd sets or lifts a coordinate or link fence, effective within 10 µs. -/
  | fenceWrite (coord : Option Coord) (link : Option (Nat × Nat)) (set : Bool)
  /-- COORDINATE_HOLD_END (R174): The 4 ms hold on a penned coordinate ends and its fence may be lifted. -/
  | coordinateHoldEnd (c : Coord)
  /-- TAG_HOLD_END (R174): A FAB tag held after status 4 becomes usable and a blocked context resumes. -/
  | tagHoldEnd (t : Nat) (c : Nat) (tag : Nat)
  /-- ROUTE_ENTRY_WRITE (R175): The Shepherd atomically writes a base route or overlay entry. -/
  | routeEntryWrite (fd : Nat) (overlay : Option (Nat × BitVec 16 × Nat)) (coord : Coord) (e : RouteEntry)
  /-- MOVE_SET (R206): The Crook checks and carries out a set of ring moves in set order. -/
  | moveSet (n : Nat) (ms : List Move)
  /-- ECS_POLL (R200): Once a second the Gate reads each comb source's status and page 1. -/
  | ecsPoll (x : Nat) (rep : Option EcsReport)
  /-- FEED_LOSS (R202): All taps of a fibre falling 6 dB in 1 ms put its source in safe mode and lose its feeds. -/
  | feedLoss (x : Nat) (f : Nat)
  /-- REACH_WRITE (R204): The pod manager's reach entry is stored for later moves. -/
  | reachWrite (e : ReachEntry)
  /-- QUIESCE (R209): Shepherd firmware quiesces a skein by commanded retrain of its strands. -/
  | quiesce (q : Nat)
  /-- QUIESCE_RELEASE (R209): Shepherd firmware releases a skein and its lanes return after identity checks. -/
  | quiesceRelease (q : Nat)
  /-- DARK_SLOT_EVENT (R214): The dark-slot monitor above threshold for 256 periods counts an event. -/
  | darkSlotEvent (q : Nat)
  /-- FADE_EVALUATION (R216): The Shepherd evaluates each skein's fade level from line power and projection. -/
  | fadeEvaluation (q : Nat) (ber5 : Bool)
  /-- SCHEDULED_SWITCH (R217): At the next commit hurdle the skein is quiesced and switched to its secondary. -/
  | scheduledSwitch (q : Nat)
  /-- SCHEDULED_SWITCH_TIMEOUT (R217): Without a hurdle in 15 minutes the Shepherd quiesces and switches anyway. -/
  | scheduledSwitchTimeout (q : Nat)
  /-- IMMEDIATE_SWITCH (R218): An immediate trigger switches the skein's source without quiescing. -/
  | immediateSwitch (q : Nat)
  /-- PRIMARY_RETURN (R220): A primary fit for 10 minutes is returned to by a scheduled switch. -/
  | primaryReturn (q : Nat)
  /-- ECS_SAFE_WRITE (R220): GATE.ECS_CTL.safe holds a removable source in safe mode for servicing. -/
  | ecsSafeWrite (x : Nat) (v : Bool)
  /-- BLANK (R222): The Gate asserts blank and every transmitter goes dark within 100 µs. -/
  | blank
  /-- BLANK_LIFT (R222): The Shepherd lifts blank; rings stay parked until moved. -/
  | blankLift
  /-- CROOK_PERIOD (R225): Each 6.4 µs period samples monitors, runs the loop programs and updates every heater DAC at slot 48. -/
  | crookPeriod (n : Nat) (smp : CrookSample)
  /-- SLOT_MISS (R256): A phase unfinished at its slot holds every element and clears run. -/
  | slotMiss (n : Nat)
  /-- LIVE_VALUES_UPDATE (R237): Every 256 periods temperature-interpolated gauge values take effect whole. -/
  | liveValuesUpdate (n : Nat)
  /-- RAIL_FAULT (R234): The heater rail out of range for 16 periods puts every element in HOLD. -/
  | railFault (n : Nat)
  /-- ELEM_MOVE (R241): Element command to move to a slot and acquire it. -/
  | elemMove (n e : Nat) (slot : BitVec 3) (lane : BitVec 2)
  /-- ELEM_SEEK (R241): Element command to seek a slot from park. -/
  | elemSeek (n e : Nat) (slot : BitVec 3) (lane : BitVec 2)
  /-- ELEM_PARK (R241): Element command to move to park. -/
  | elemPark (n e : Nat)
  /-- ELEM_HOLD (R241): Element command to hold at the next boundary. -/
  | elemHold (n e : Nat)
  /-- ELEM_RELEASE (R250): Element command repeating the hand-over evaluation from HOLD. -/
  | elemRelease (n e : Nat)
  /-- ELEM_TEST (R241): Element command to enter TEST. -/
  | elemTest (n e : Nat)
  /-- ELEM_SEL (R241): Selector command to move to the primary or secondary position. -/
  | elemSel (n e : Nat) (slot : BitVec 3)
  /-- ELEM_CLEAR (R241): Service command clearing an element's fault. -/
  | elemClear (n e : Nat)
  /-- QUEUED_MOVE_START (R241): A move command waiting on a running move is checked and started when it ends. -/
  | queuedMoveStart (n e : Nat)
  /-- HANDOVER_EVALUATION (R249): At the end of a return move four outer updates decide entry to TRACK or HOLD. -/
  | handoverEvaluation (n e : Nat)
  /-- SLIP (R248): A set-point off its line for the set number of outer updates holds the element. -/
  | slip (n e : Nat)
  /-- FOLLOWING_ERROR_EXPIRY (R251): Following error beyond the limit for fe_periods holds and faults the element. -/
  | followingErrorExpiry (n e : Nat)
  /-- NOTCH_RECOVERY_END (R235): The notch turns off after its recovery count. -/
  | notchRecoveryEnd (n e : Nat)
  /-- COEFFICIENT_WRITE (R252): A coefficient word enters the queue, waiting if it is full. -/
  | coefficientWrite (n : Nat) (bank : Bool) (i : Nat) (w : Nat) (word : BitVec 32)
  /-- PROG_MEM_WRITE (R254): A loop program word is written, ignored while run is 1. -/
  | progMemWrite (n : Nat) (w : BitVec 10) (word : BitVec 32)
  /-- PROG_RUN (R255): Writing run 1 checks the program set and starts it. -/
  | progRun (n : Nat)
  /-- PROG_STOP (R255): Writing run 0 stops the programs and holds every unparked element. -/
  | progStop (n : Nat)
  /-- INDICATOR_COLLECT (R274): Every 10 s the indicator collector forms each indicator. -/
  | indicatorCollect
  /-- SCORE_WRITE (R275): Shepherd firmware writes the condition score and watch or expulsion status follows. -/
  | scoreWrite (score : Byte)
  /-- GOSSIP_SEND (R261): Every 10 ms the Shepherd sends GOSSIP with its standing reports. -/
  | gossipSend
  /-- GOSSIP (R261): A GOSSIP message updates the standing reports of its subjects. -/
  | gossip (h : FlockHdr) (twin : Coord) (es : List GossipEntry)
  /-- SELF_REPORT (R263): A self-report enters class (d) or suspends silence reports. -/
  | selfReport (h : FlockHdr) (kind code group : Byte) (detail : Word)
  /-- VERDICT (R271): A VERDICT is accepted and posted to the job's rings. -/
  | verdict (h : FlockHdr) (subject : Coord) (classes : BitVec 4)
  /-- PEN (R268): An accepted PEN sets the subject's fences; the subject blanks and stops its chains. -/
  | pen (h : FlockHdr) (subject : Coord) (cause : Byte)
  /-- UNPEN (R269): UNPEN lifts link fences when the named unit passes its identity check. -/
  | unpen (h : FlockHdr) (subject : Coord) (digest : Word)
  /-- CLAIM (R266): A bellwether claim is accepted by term and position. -/
  | claim (h : FlockHdr) (members : BitVec 16)
  /-- ACCUSE (R272): The bellwether receiving an accusation starts a directed probe. -/
  | accuse (h : FlockHdr) (subject : Coord) (job : BitVec 16) (gen : Byte) (tile : BitVec 16) (row : Word)
  /-- PROBE_ORDER (R272): The named prober probes the subject's tiles and loops back a link. -/
  | probeOrder (h : FlockHdr) (subject prober : Coord) (tile : BitVec 16)
  /-- PROBE_RESULT (R272): The probe result substantiates or dismisses the accusation. -/
  | probeResult (h : FlockHdr) (subject : Coord) (result : Byte) (dies : BitVec 40)
  /-- PROBE_DEADLINE (R272): Answers missing at 20 ms count against the subject. -/
  | probeDeadline
  /-- EXPEL_REQ (R278): The bellwether evaluates an expulsion request against budget, spare and reserve. -/
  | expelReq (h : FlockHdr) (score cause : Byte) (ind : List (BitVec 16))
  /-- EXPEL_ORDER (R279): Every Shepherd enters the order's slot in its budget counter; the subject binds off. -/
  | expelOrder (h : FlockHdr) (subject : Coord) (slot left : Byte)
  /-- EXPEL_REFUSED (R278): A refusal leaves the module in service on watch. -/
  | expelRefused (h : FlockHdr) (subject : Coord) (reasons : BitVec 4)
  /-- ADMIT (R284): Every Shepherd applies its spare variant and the spare takes the coordinate. -/
  | admitMsg (h : FlockHdr) (coord prev : Coord) (digest : Word)
  /-- REPORT_LAPSE (R261): A report not repeated for 200 ms lapses. -/
  | reportLapse (m : Nat)
  /-- GOSSIP_LOST (R260): No gossip from a member for 30 ms marks it lost for election and probing. -/
  | gossipLost (m : Nat)
  /-- BELLWETHER_LOST (R266): A lost bellwether leads the lowest eligible member to send CLAIM. -/
  | bellwetherLost
  /-- HARD_FAULT (R262): On a hard fault the Shepherd stops chains, silences keepalives, blanks, scores 0 and self-reports. -/
  | hardFault (code : Byte)
  /-- SUSPENSION_EXPIRY (R263): A suspension of silence reports ends after 20 minutes. -/
  | suspensionExpiry (m : Nat)
  /-- BUDGET_SLOT_EXPIRY (R277): A used budget slot frees 24 h after use. -/
  | budgetSlotExpiry (i : Nat)
  /-- COUNTER_TRUSTED (R277): A budget counter becomes trusted after 24 h of membership. -/
  | counterTrusted
  /-- EXPEL_REEVALUATION (R279): The bellwether evaluates open requests again at least once an hour. -/
  | expelReevaluation
  /-- RESERVE_REPORT (R278): The pod manager reports the pod reserve in an authenticated control message. -/
  | reserveReport (h : CtlHdr) (reserve : BitVec 16)
  /-- BIND_OFF_DEADLINE (R280): A subject not bound off within 10 minutes is penned with cause 2. -/
  | bindOffDeadline
  /-- PADDOCK_MAIN_RAMP (R281): After admission or 10 s a paddocked module ramps main and runs CO2 to CO7. -/
  | paddockMainRamp
  /-- PADDOCK_PASS (R281): A paddock pass of memory sweep, self-test and lane patterns starts. -/
  | paddockPass
  /-- PADDOCK_PASS_END (R282): A pass ends clean or as a hard fault; after three clean passes the module leaves the paddock. -/
  | paddockPassEnd (clean : Bool) (code : Byte)
  /-- PADDOCK_PROGRESS (R281): Every 60 s a paddocked module reports progress to the pod manager. -/
  | paddockProgress
  /-- PADDOCK_REPORT_REPEAT (R282): A waiting graduate repeats its SELF_REPORT every 10 minutes. -/
  | paddockReportRepeat
  /-- HEARTBEAT_SEND (R288): Every 1 ms a module sends a sideband frame to its twin. -/
  | heartbeatSend
  /-- HEARTBEAT (R288): A sideband heartbeat frame is checked and accepted under the alive rule. -/
  | heartbeat (f : SideFrame)
  /-- HANDSHAKE (R301): A sideband HANDSHAKE frame completes the twin handshake when coordinates agree. -/
  | handshake (f : SideFrame)
  /-- SIDEBAND_SELF_REPORT (R288): A sideband self-report frame tells the twin of a failure. -/
  | sidebandSelfReport (f : SideFrame)
  /-- HEARTBEAT_SILENCE (R288): No heartbeat for 10 ms raises a class (b) report. -/
  | heartbeatSilence
  /-- CHECKPOINT_CONFIG (R292): Command setting a job's reserve, image limit, map and export cadence. -/
  | checkpointConfig (r : Nat) (dmaOk : Bool) (map : List (Nat × Nat))
  /-- CHECKPOINT_IMPORT (R298): Command importing an exported version for a restore from storage. -/
  | checkpointImport (r : Nat) (manifest : List Byte) (grans : List (List Byte))
  /-- TINK (R298): Command setting the restore row and new generation and starting the restore. -/
  | tink (r : Nat)
  /-- RESTORE_COMPLETE (R298): Every granule of a restore has arrived and TINK completes. -/
  | restoreComplete (j : Nat)
  /-- COMMIT (R294): Once every local member has arrived at a commit hurdle the module checks channels and streams its delta. -/
  | commit (j : Nat)
  /-- COMMIT_NOTICE (R293): A COMMIT notice makes the holder's sealed version committed. -/
  | commitNotice (p : Packet) (row : Word)
  /-- COMMIT_TIMEOUT (R295): A stream not sealed within CKPT_CTL.timeout fails with TIMEOUT. -/
  | commitTimeout (j : Nat)
  /-- EXPORT_COMPLETE (R296): An export ends and its granules are unpinned. -/
  | exportComplete (h : Nat)
  /-- BIND_OFF (R300): Command beginning bind-off with SELF_REPORT kind 5. -/
  | bindOff (r : Nat)
  /-- BIND_OFF_COMMIT (R300): At the next commit hurdle a binding-off module commits, stops chains, drains and powers off. -/
  | bindOffCommit
  /-- CAST_ON_CO0 (R329): Stage CO0 derives the PUF identity and measures firmware. -/
  | castOnCo0 (status : BitVec 2) (corrections : BitVec 16) (seed : BitVec 256) (romVersion : BitVec 32) (romDigest gateDigest shepDigest : BitVec 256)
  /-- CAST_ON_CO1 (R335): Stage CO1 chooses, verifies and measures an image slot and migrates settings. -/
  | castOnCo1 (a b : ImageInfo)
  /-- CAST_ON_CO2 (R11): Stage CO2 ramps domains and checks die presence and in-package links. -/
  | castOnCo2 (missing : List Nat) (linksChecked linksFailed : Nat) (pgFail : Option (Option Nat)) (vinMv : BitVec 32) (ramp : BitVec 32)
  /-- CAST_ON_CO3 (R312): Stage CO3 applies the defect map and repair list and zeroes slices. -/
  | castOnCo3 (record : List Byte) (sigOk : Bool)
  /-- CAST_ON_CO4 (R314): Stage CO4 trains LPDDR5X and chooses the rate. `quals` gives for a stack and channel the rate codes at which the channel qualifies (a channel not named qualifies at all), `temps` the sensor beside each stack. -/
  | castOnCo4 (quals : List (Nat × Nat × BitVec 5)) (temps : List (BitVec 16))
  /-- CAST_ON_CO5 (R314): Stage CO5 self-tests tiles and broadcasts microcode. -/
  | castOnCo5 (failed : List Nat) (noAck : List Nat)
  /-- CAST_ON_CO6 (R315): Stage CO6 divides ports and trains and qualifies electrical lanes. -/
  | castOnCo6 (lanes : List LaneOutcome)
  /-- CAST_ON_CO7 (R317): Stage CO7 checks comb sources, starts Crooks and acquires yarns. `sources` gives for each position the taps of its feeds, or none for one that is empty, not ready in 60 s or at fault; `temps` the PIC temperatures. -/
  | castOnCo7 (sources : List (Option SourceTaps)) (gauges : List (List Byte × Bool)) (temps : List (BitVec 16)) (lanes : List LaneOutcome)
  /-- CAST_ON_CO8 (R324): Stage CO8 takes the plan and coordinate and discovers neighbours. -/
  | castOnCo8 (lanes : List LaneOutcome)
  /-- CAST_ON_CO9 (R327): Stage CO9 joins the flock, learns the bellwether and starts the twin handshake. -/
  | castOnCo9
  /-- STAGE_TIMEOUT (R308): A stage passing its limit fails with TIMEOUT and the module holds. -/
  | stageTimeout
  /-- CAST_RETRY (R310): Writing CAST.CTL.retry restarts cast-on from the point set by the hold state. -/
  | castRetry
  /-- PLAN_WAIT_RETRY (R310): In hold state 3 CO8 retries by itself every 10 s while waiting for a plan. -/
  | planWaitRetry
  /-- HOLD_REPORT (R309): In hold states 2 and 3 firmware reports the failed record every 60 s. -/
  | holdReport
  /-- PLAN_LOAD (R321): Command delivering a signed pod plan. -/
  | planLoad (r : Nat) (dmaOk sigOk : Bool) (plan : Plan) (digest : BitVec 256)
  /-- PLAN_MESSAGE (R321): A pod plan arrives in an authenticated control message. -/
  | planMessage (h : CtlHdr) (sigOk : Bool) (plan : Plan) (digest : BitVec 256)
  /-- PARTITION_RESET (R145): Command resetting one partition, rotating its key and bringing its island up again. -/
  | partitionReset (r : Nat)
  /-- ALL_PARTITION_RESET (R14): Command resetting every island and rotating every partition key. -/
  | allPartitionReset (r : Nat)
  /-- MAIN_RESET (R15): Command draining and then removing main power before cast-on from CO2. -/
  | mainReset (r : Nat)
  /-- ISLAND_ASSIGN (R12): Command assigning islands to partitions and bringing new ones up. -/
  | islandAssign (r : Nat)
  /-- NOP (R393): Command that does nothing. -/
  | nop (r : Nat)
  /-- ACCUSE_COMMAND (R272): Host command reporting a job's accusation, forwarded as ACCUSE. -/
  | accuseCommand (r : Nat)
  /-- MOVE (R393): Command copying data between host memory and module memory. -/
  | move (r : Nat) (dmaOk : Bool) (bytes : List Byte)
  /-- MOVE_COMPLETE (R394): A MOVE transfer ends and its completion is written. -/
  | moveComplete (r : Nat) (tag : BitVec 16) (ok : Bool)
  /-- IMAGE_STAGE (R333): Command writing image parts to an inactive slot and checking it on the last part. -/
  | imageStage (r : Nat) (dmaOk : Bool) (bytes : List Byte) (sigOk : Bool)
  /-- ACTIVATE_IMAGE (R337): Command marking a slot for trial at the next maintenance point. -/
  | activateImage (r : Nat)
  /-- CONTROL_ACTIVATE_IMAGE (R337): ACTIVATE_IMAGE arriving as a control message. -/
  | controlActivateImage (h : CtlHdr) (slot : Nat)
  /-- MAINTENANCE_POINT (R337): At a maintenance point the slot becomes TRIAL and every domain is reset. -/
  | maintenancePoint
  /-- REJECT_IMAGE (R339): Command ending a trial at once or at the next maintenance point. -/
  | rejectImage (r : Nat)
  /-- FW_CONFIRM (R338): Shepherd firmware writes its version to confirm a trial image. -/
  | fwConfirm (version : BitVec 32)
  /-- TRIAL_DEADLINE (R338): No confirmation by the deadline forces a reset and the slot is frogged. -/
  | trialDeadline
  /-- OWNER_ENROLL (R354): Command storing an owner key and pod root on an unowned module. -/
  | ownerEnroll (r : Nat) (dmaOk : Bool) (key root : List Byte)
  /-- OWNER_RELEASE (R354): Command, signed by the owner, erasing the owner key and pod root. -/
  | ownerRelease (r : Nat) (dmaOk sigOk : Bool)
  /-- DISTRIBUTE (R343): Control message starting the reception of an image into a slot. -/
  | distribute (h : CtlHdr) (digest : BitVec 256) (total : BitVec 12) (slot : Nat) (source parent : Coord)
  /-- CHUNK (R343): A distribution chunk is checked, written, relayed and the image verified when complete. -/
  | chunk (sender : Coord) (bytes : List Byte) (relay : List Coord) (sigOk : Bool)
  /-- CHUNK_REPAIR (R344): After the last index or 30 s of silence a receiver requests missing chunks. -/
  | chunkRepair
  /-- REPAIR_HOLDER_TIMEOUT (R344): After 10 s without progress the receiver moves to the next holder. -/
  | repairHolderTimeout
  /-- CONTROL_MESSAGE (R356): A control message of another type is checked by length, version, epoch, tag and sequence. -/
  | controlMessage (h : CtlHdr) (o : CtlOrder)
  /-- SEQUENCE_RECORD (R357): Every 10 minutes the Gate records control sequences. -/
  | sequenceRecord
  /-- EPOCH_GRACE_END (R358): 10 minutes after a new key epoch the previous epoch is no longer accepted. -/
  | epochGraceEnd
  /-- RESERVATION_RETRY (R352): A failing signing reservation write is retried every 10 s. -/
  | reservationRetry (ok : Bool)
  /-- SPDM_GET_VERSION (R351): SPDM request answered with the supported version. -/
  | spdmGetVersion (via : Nat)
  /-- GET_CAPABILITIES (R351): SPDM capabilities request. -/
  | getCapabilities (via : Nat)
  /-- NEGOTIATE_ALGORITHMS (R351): SPDM algorithm negotiation. -/
  | negotiateAlgorithms (via : Nat)
  /-- GET_DIGESTS (R351): SPDM certificate digest request. -/
  | getDigests (via : Nat)
  /-- GET_CERTIFICATE (R351): SPDM certificate request. -/
  | getCertificate (via : Nat) (slot : Nat) (off len : Nat)
  /-- CHALLENGE (R351): SPDM challenge answered with a signature. -/
  | challenge (via : Nat) (nonce : BitVec 256)
  /-- GET_MEASUREMENTS (R351): SPDM measurement request answered with signed measurement blocks. -/
  | getMeasurements (via : Nat) (nonce : BitVec 256) (mask : BitVec 32)
  /-- PSK_EXCHANGE (R351): SPDM session opening under the session PSK. -/
  | pskExchange (via : Nat) (ok : Bool)
  /-- PSK_FINISH (R351): SPDM PSK session finish. -/
  | pskFinish (via : Nat) (ok : Bool)
  /-- SPDM_HEARTBEAT (R351): SPDM session heartbeat. -/
  | spdmHeartbeat (via : Nat)
  /-- END_SESSION (R351): SPDM session end. -/
  | endSession (via : Nat)
  /-- VENDOR_DEFINED_REQUEST (R360): SPDM IDE_KM request setting IDE stream keys. -/
  | vendorDefinedRequest (via : Nat) (selective : Bool) (keyOk : Bool)
  /-- TALLY_EVENT (R366): An event is rate-judged, recorded in its record and entered in the black-box ring. -/
  | tallyEvent (e : Event)
  /-- TOKEN_REFILL (R368): A code's token bucket gains one token every 1/rate s. -/
  | tokenRefill (code : BitVec 16)
  /-- CURSOR_WRITE (R369): Writing TALLY.CURSOR latches a record copy into the window. -/
  | cursorWrite (index : BitVec 13)
  /-- WINDOW_AUTO_ADVANCE (R369): Reading the last window word with auto_inc latches the next record. -/
  | windowAutoAdvance
  /-- FREEZE (R370): Writing freeze 1 stops recording and stages events. -/
  | freeze
  /-- UNFREEZE (R370): Writing freeze 0 applies the staged events in order. -/
  | unfreeze
  /-- FREEZE_TIMEOUT (R370): A freeze ends by itself after 1 s. -/
  | freezeTimeout
  /-- MIRROR (R372): Every 10 minutes or after a fatal event the book is copied to a shadow and written to flash. -/
  | mirror
  /-- RING_WRITE_END (R375): The fatal-area write ends and held events enter the ring. -/
  | ringWriteEnd
  /-- BB_RELEASE (R375): Writing BB_CTL.release frees the fatal area. -/
  | bbRelease
  /-- BB_CURSOR_WRITE (R376): Writing BB_CTL.cursor latches a ring entry into BB_WIN. -/
  | bbCursorWrite (cursor : BitVec 12) (source : BitVec 2)
  /-- TEST_START (R380): Writing start zeroes a lane's test counters and counting begins at lock. -/
  | testStart (fd : Nat) (lane : Nat)
  /-- RING_POLL (R389): The Gate reads cmd_prod and fetches new commands. -/
  | ringPoll (r : Nat) (cmdProd cplCons : BitVec 32) (blocks : List (List Byte)) (dmaOk : Bool)
  /-- RING_ENABLE (R391): Enabling a ring restarts its counts and phase. -/
  | ringEnable (r : Nat) (dmaOk : Bool) (cmdProd cmdCons cplProd cplCons : BitVec 32)
  /-- RING_DISABLE (R403): Disabling a ring stops fetching while fetched commands complete. -/
  | ringDisable (r : Nat)
  /-- COMPLETION_WRITE (R396): The Gate writes a completion or held event entry with its phase. -/
  | completionWrite (r : Nat) (cplCons : BitVec 32)
  /-- COALESCE_TIMER (R398): coalesce_us after the first unsignalled entry the ring's MSI-X message is sent. -/
  | coalesceTimer (r : Nat)
  /-- FUNCTION_LEVEL_RESET (R384): FLR resets the PCIe core, ring and interrupt registers and the mailbox only. -/
  | functionLevelReset
  /-- PERST (R413): PERST_N low resets the Gate's PCIe core and nothing else. -/
  | perst (low : Bool)
  /-- DOE_REQUEST (R399): A DOE data object request is answered. -/
  | doeRequest (proto : Byte) (req : List Byte)
  /-- DOE_ABORT (R399): DOE Abort discards the request in progress. -/
  | doeAbort
  /-- GET_STATUS (R400): Mailbox operation returning cast-on status, CO0 and CO1 records and slot states. -/
  | getStatus
  /-- MBOX_GET_MEASUREMENTS (R400): Mailbox operation returning signed measurements. -/
  | mboxGetMeasurements
  /-- GET_LOG (R400): Mailbox operation returning measurement log entries. -/
  | getLog
  /-- GET_CERT (R400): Mailbox operation returning the certificate chain. -/
  | getCert
  /-- RECOVERY_WRITE (R400): Boot ROM mailbox operation writing image bytes to a slot. -/
  | recoveryWrite
  /-- RECOVERY_CHECK (R400): Boot ROM mailbox operation checking a slot and staging it. -/
  | recoveryCheck (sigOk : Bool)
  /-- MBOX_OWNER_ENROLL (R354): Mailbox operation enrolling an owner. -/
  | mboxOwnerEnroll
  /-- ENTDAA (R401): I3C dynamic address assignment. -/
  | entdaa (addr : BitVec 7)
  /-- RSTDAA (R401): I3C reset of the dynamic address. -/
  | rstdaa
  /-- ENEC (R401): I3C enable events. -/
  | enec (mask : Byte)
  /-- DISEC (R401): I3C disable events. -/
  | disec (mask : Byte)
  /-- GETPID (R401): I3C read of the provisioned ID. -/
  | getpid
  /-- GETBCR (R401): I3C read of BCR. -/
  | getbcr
  /-- GETDCR (R401): I3C read of DCR. -/
  | getdcr
  /-- GETSTATUS (R401): I3C read of device status. -/
  | getstatus
  /-- SETMWL (R401): I3C set maximum write length. -/
  | setmwl (n : BitVec 16)
  /-- SETMRL (R401): I3C set maximum read length. -/
  | setmrl (n : BitVec 16)
  /-- GETMWL (R401): I3C read maximum write length. -/
  | getmwl
  /-- GETMRL (R401): I3C read maximum read length. -/
  | getmrl
  /-- RSTACT (R401): I3C target reset action. -/
  | rstact (action : Byte)
  /-- SET_ENDPOINT_ID (R402): MCTP control command assigning the endpoint ID. -/
  | setEndpointId (eid : Byte)
  /-- GET_ENDPOINT_ID (R402): MCTP control command reading the endpoint ID. -/
  | getEndpointId
  /-- GET_ENDPOINT_UUID (R402): MCTP control command reading the endpoint UUID. -/
  | getEndpointUuid
  /-- GET_MCTP_VERSION_SUPPORT (R402): MCTP control command reading supported versions. -/
  | getMctpVersionSupport (type : Byte)
  /-- GET_MESSAGE_TYPE_SUPPORT (R402): MCTP control command reading supported message types. -/
  | getMessageTypeSupport
  /-- SERVICE_REQUEST (R415): ATTN_N held low for 1 s starts bind-off or switches main off. -/
  | serviceRequest
  /-- COOLANT_SAMPLE (R417): Every 100 ms the module measures coolant temperatures and flow. -/
  | coolantSample (inlet outlet flow : BitVec 16)
  /-- COOLING_LOW (R417): Low flow or hot inlet for 1 s limits input power to 2 400 W. -/
  | coolingLow
  /-- COOLING_RECOVERED (R417): Flow and inlet within limits for 60 s end the cooling limit. -/
  | coolingRecovered
  /-- THERMAL_TRIP (R417): A junction above 110 °C for 10 ms or flow below 1 L/min for 2 s removes main power. -/
  | thermalTrip
  /-- REGISTER_WRITE (R8): A write to a register field without behaviour of its own is stored, cleared or ignored by its access code. -/
  | registerWrite (off : Nat) (width : Nat) (value : Word)
  /-- MAIN_POWER_RESTORE (R304): Main power restored after an uncommanded loss, or MAIN_EN rising, lets the module ramp main and run cast-on CO2 to CO9. -/
  | mainPowerRestore
  /-- ECS_PRES_CHANGE (R408): An ECS_PRES_N line changes as a comb source is fitted or removed, updating GATE.ECS_STATUS.present for that position. -/
  | ecsPresChange (x : Nat) (present : Bool)
  /-- HOLDUP_BANK_CHARGED (R410): The hold-up bank finishes charging within 2 s of aux power-up and GATE.AUX.holdup_ready is set, after which the 8 ms of R18 is assured. -/
  | holdupBankCharged
  /-- SHADOW_COPY_END (R372): The Tally Book's shadow copy for a mirror ends and the events staged meanwhile are applied in order, with STAGE_OVERFLOW if any found staging full. -/
  | shadowCopyEnd
  /-- MIRROR_WRITE_END (R372): Firmware's write of the shadow to a mirror area completes with its CRC, the area becomes the newest mirror and mirroring clears. -/
  | mirrorWriteEnd
  /-- CHECKER_LOCK (R379): A lane pattern checker sees 64 consecutive correct bits and locks, and counting of bits, errors and the error-free run begins. -/
  | checkerLock (fd : Nat) (lane : Nat)
  /-- CHECKER_LOCK_LOST (R379): A locked checker sees more than 32 errors in 1 024 bits, loses lock, counts lock_lost and stops counting until it locks again. -/
  | checkerLockLost (fd : Nat) (lane : Nat) (bits errs efrMax uncorr : Nat)
  deriving DecidableEq, Repr

end Sys2Proof
end

