-- ==== Sys2Proof/Config.lean ====
section
/-! DEFINITION. What the spec leaves open: constants with no body, so that nothing can be proved of
the value they take. Each is named in a row of notes/assumptions. -/

namespace Sys2Proof.Config

/-- Beats that an instruction takes, by the count of free values taken so far (log entry 4): the
spec fixes a beat count for some instructions and leaves waiting beats to the other tiles. -/
opaque freeBeats : Nat → BitVec 16

/-- A byte whose value the spec leaves undefined, by the count of free values taken so far and the
place it is read for (log entry 5). -/
opaque freeByte : Nat → Nat → Byte

/-- A byte of a line as it decrypts under another key than the one it was written under, by both key
numbers, the address and the bytes of its cipher block: R145 calls it unpredictable (log entry 5). -/
opaque staleByte : (written read addr : Nat) → List Byte → Byte

/-- A word whose value the spec leaves undefined (log entry 5). -/
opaque freeWord : Nat → Word

/-- VEC_VFN on an ordinary operand, by function code: how many units in the last place the result lies
from the correctly rounded value, of which -2 to 2 are in reach, and the sign of a result of zero. The spec
fixes the reach and that the bits are the same everywhere (R89), not which (log entry 7). -/
opaque vfn : BitVec 6 → BitVec 32 → Int × Bool

/-- The segments of a profile over a distance under the given limits, in periods: R239 gives the limits and the
shape, and of the plans that keep both it names none (log entry 8). -/
opaque plan : (vel acc jerk dist : Nat) → Nat × Nat × Nat

/-- The word of a commanded acceleration, a ratio in Q15 steps per period²; the spec gives it no scale (log entry 8). -/
opaque accelWord : Int → Nat → BitVec 16

/-- A ratio that is no whole number is rounded up, where the spec states no rounding (log entry 21). -/
opaque roundsUp : Int → Nat → Bool

/-- The values of the unit's factory gauge records (section before R313): engine, item within the engine
(an element, or 176 + a skein, or 192 for the engine), word (log entry 21). -/
opaque gauge : (engine item word : Nat) → BitVec 16

/-- The interpolation fraction f as a loop program reads it where it is 1 or more, which no Q15 value is (log
entry 21). -/
opaque fracQ15 : BitVec 16 → BitVec 16

/-- The coefficients of a loop set, which a firmware image holds: by the measurement of the set, element lanes or bank
lanes, lane and word (R254; log entry 21). -/
opaque loopCoef : (set : BitVec 256) → (bank : Bool) → (lane word : Nat) → BitVec 16

/-- What a loop program finds in A0, A1 and y (0, 1, 2) before it has loaded them, by the count of free
values taken so far and the lane (log entry 21). -/
opaque loopInit : (count lane which : Nat) → Int

/-- Bit i of the PRBS9 excitation, whose seed the spec does not give (log entry 21). -/
opaque prbs9 : Nat → Bool

/-- Training settings taken in one cast-on run are more than 90 days old in another (R319): the saved tag keeps the
run number, and the spec gives no calendar (log entry 55). -/
opaque recordAged : (taken now : BitVec 16) → Bool

/-- Occupancy of the in-package path from a fabric die to the other, by die, tick, VC and phase, in 256ths: R178
names it and gives the path no buffers (log entry 19). -/
opaque crossOccupancy : (fd : Nat) → (tick : BitVec 64) → (vc phase : Nat) → Nat

/-- A certificate or other fixed document of the unit, which the spec describes and does not give
byte for byte (log entry 9). -/
opaque document : Nat → List Byte

end Sys2Proof.Config
end

