-- ==== Sys2Proof/Machine/State.lean ====
section
/-! DEFINITION. The state of the Maldom: every register, buffer, counter, mode and pin that the
spec gives the block, as plain data, and the queue of commands waiting. Arrays are sparse tables
(`Tab`): an entry that is not listed holds the default of its type, which is the Reset column's
value. -/

namespace Sys2Proof.Machine

/-- A sparse array: keys strictly rising, no entry equal to the default of its key
(the operations and the canonical form are in Machine/Tab.lean). -/
abbrev Tab (α : Type) := List (Nat × α)

/-! ### Power, pins and the Gate (01, 15, 16) -/

/-- Why main power is to be removed once the drain has ended (R15). -/
inductive DrainCause where
  | mainReset (ring : Nat) (tag : BitVec 16)
  | maintenance
  /-- a bind-off; `expelled`: under an expulsion order (R280) -/
  | bindOff (expelled : Bool)
  deriving DecidableEq, Repr

/-- Power domains (R13), the envelope (R20 to R25), and what is latched about main power. -/
structure Power where
  aux : Bool := true
  transit : Bool := false
  memory : Bool := false
  /-- bit p: island p up (R12) -/
  islands : BitVec 8 := 0
  /-- DRAIN sent, main power to be removed: the cause and the tick of the DRAIN (R15) -/
  drain : Option (DrainCause × Word) := none
  /-- envelope mode in force, P0 to P3 (R20) -/
  mode : BitVec 2 := 1
  /-- main has come up since the recorded mode was last taken (R25) -/
  modeDue : Bool := true
  /-- core-voltage set-point in mV (R21) -/
  vcore : Nat := 750
  /-- the 2 400 W limit of R417 is in force -/
  coolLimit : Bool := false
  /-- main stays off for the rest of this aux life (R406) -/
  mainBarred : Bool := false
  /-- main power has gone without command and is not back (R17) -/
  lost : Bool := false
  /-- tick of the controller's last step (R21) -/
  lastStep : Option Word := none
  /-- input power in W at the steps of the last 10 ms, newest first (R21) -/
  inputs : List Nat := []
  /-- the input has been above the limit at 0.60 V since this tick (R22) -/
  overSince : Option Word := none
  /-- the hottest tile junction has been above 110 °C since this tick (R417) -/
  tripSince : Option Word := none
  /-- tick at which the transit counters last counted (R15) -/
  lastTransit : Word := 0
  deriving DecidableEq, Repr

/-- GATE.SIGNALS (R419) and what R415 keeps of ATTN_N. -/
structure Signals where
  auxPg : Bool := false
  mainEn : Bool := false
  perstN : Bool := false
  attnN : Bool := true
  attnReq : Bool := false
  /-- a service request waits for CO9 or a hold state (R415) -/
  attnHeld : Bool := false
  /-- a service request has been taken: further ones are ignored until the indicator shows blue (R415) -/
  attnTaken : Bool := false
  ecsPresent : BitVec 4 := 0
  deriving DecidableEq, Repr

/-- One LPDDR5X band (GATE.BAND). Owner 0-7 partition, 8 twin reserve, 15 free. -/
structure Band where
  owner : BitVec 4 := 15
  protOff : Bool := false
  busy : Bool := false
  deriving DecidableEq, Repr

/-- GATE.PART_MEM of a partition; `bands` is counted from the band table. -/
structure PartMem where
  protOff : Bool := false
  protOffActive : Bool := false
  /-- a partition reset is between its steps 2 and 4 (R145) -/
  resetting : Bool := false
  deriving DecidableEq, Repr

/-- A comb source position: GATE.ECS_STATUS, GATE.ECS_CTL, and what R200 and R202 keep. -/
structure Ecs where
  present : Bool := false
  ready : Bool := false
  /-- full output is commanded; `outputOn` is what the source reports -/
  full : Bool := false
  outputOn : Bool := false
  safe : Bool := false
  fault : Bool := false
  commsFail : Bool := false
  temperature : BitVec 16 := 0
  ctlSafe : Bool := false
  fails : Nat := 0
  serial : BitVec 128 := 0
  /-- last page 1 read: bias, bias_ref of each line, power at 8f + k (Table 8-5) -/
  bias : List (BitVec 16) := []
  biasRef : List (BitVec 16) := []
  power : List (BitVec 16) := []
  /-- bit f: the feed of fibre f counts as lost (R202) -/
  feedLost : BitVec 4 := 0
  deriving DecidableEq, Repr

/-- The posted partial-line writes of BAR2 to one line that wait to be merged (R151). -/
structure Merge where
  line : Nat
  /-- the writes, oldest first: offset within the line, bytes -/
  writes : List (Nat × List Byte)
  first : Word
  deriving DecidableEq, Repr

/-- The mailbox (GATE.MBOX_*, R400). -/
structure Mbox where
  op : Byte := 0
  length : BitVec 15 := 0
  data : List Byte := []
  busy : Bool := false
  done : Bool := false
  status : Byte := 0
  rlen : BitVec 15 := 0
  deriving DecidableEq, Repr

/-- The GATE registers on aux that are not rings (02, 06, 07, 15, 16). -/
structure Gate where
  sig : Signals := {}
  /-- blank is asserted to the EICs (R222) -/
  blank : Bool := false
  holdover : Bool := false
  /-- tick at which holdover began (R36) -/
  holdoverAt : Word := 0
  refclkFault : Bool := false
  ppm : BitVec 16 := 0
  rsvWrite : BitVec 16 := 0
  badAccess : BitVec 8 := 0
  domainOff : Bool := false
  pcieRate : BitVec 3 := 0
  pcieFlit : Bool := false
  pcieWidth : BitVec 4 := 0
  pcieRetrains : BitVec 8 := 0
  miscVector : BitVec 6 := 63
  irqEnable : BitVec 4 := 0xF
  irqMailbox : Bool := false
  irqRing : Bool := false
  irqHold : Bool := false
  irqFatal : Bool := false
  vin : BitVec 16 := 0
  pin : BitVec 16 := 0
  vaux : BitVec 16 := 0
  paux : BitVec 12 := 0
  holdupReady : Bool := false
  inlet : BitVec 16 := 0
  outlet : BitVec 16 := 0
  flow : BitVec 16 := 0
  /-- tick of the last coolant sample, and since when the flow has been below 5.0 L/min, the flow below 1.0 L/min, the
  inlet above 45 °C, and both within limits (R417) -/
  coolAt : Option Word := none
  flowLow : Option Word := none
  flowTrip : Option Word := none
  inletHot : Option Word := none
  coolGood : Option Word := none
  coolingLow : Bool := false
  thermalTrip : Bool := false
  bandRefused : BitVec 32 := 0
  bar2Mask : BitVec 8 := 0
  bar2Slices : Bool := false
  bar2Base : BitVec 48 := 0
  /-- log2 of the BAR2 window in GiB, 0-6 (Table 15-1: 1 GiB at reset) -/
  bar2Log : Nat := 0
  bar2Err : BitVec 32 := 0
  merge : List Merge := []
  udpPort : BitVec 16 := 47810
  port0En : Bool := true
  port1En : Bool := true
  fabricEn : Bool := true
  flockDrop : Tab (BitVec 32) := []
  mbox : Mbox := {}
  /-- MSI-X table words (4 per vector) and pending bits (R398) -/
  msixTable : Tab (BitVec 32) := []
  msixPending : BitVec 64 := 0
  deriving DecidableEq, Repr

/-- A host command block as fetched: its 64 bytes (R392). -/
abbrev Block := List Byte

/-- A completion entry as formed (Table 15-7), less its phase, which is set when it is written. -/
structure Cpl where
  kind : Byte
  tag : BitVec 16 := 0
  status : BitVec 16 := 0
  opcode : Byte := 0
  tbTime : Word := 0
  /-- bytes 16-63 of the entry that are not zero, as (offset, width in bytes, value) -/
  detail : List (Nat × Nat × Nat) := []
  deriving DecidableEq, Repr

/-- A command fetched and not yet completed, with its place in ring order. -/
structure Cmd where
  block : Block
  started : Bool := false
  deriving DecidableEq, Repr

/-- A ring pair (R387 to R398). -/
structure Ring where
  ctrlAddr : Word := 0
  cmdBase : Word := 0
  cplBase : Word := 0
  cmdLog2 : BitVec 5 := 8
  cplLog2 : BitVec 5 := 8
  pollUs : BitVec 10 := 10
  vector : BitVec 6 := 0
  enable : Bool := false
  coalesceUs : Byte := 0
  error : Bool := false
  cause : BitVec 2 := 0
  lost : Word := 0
  cmds : Word := 0
  cmdCons : BitVec 32 := 0
  cplProd : BitVec 32 := 0
  cplCons : BitVec 32 := 0
  phase : Bool := true
  /-- fetching stopped under R391 until the ring is disabled and enabled again -/
  stopped : Bool := false
  /-- returned to reset by an FLR or PERST_N: entries are held until the ring is enabled (R384) -/
  parked : Bool := false
  /-- tick of the last poll that found nothing new; none: the next poll is due (R389) -/
  polledAt : Option Word := none
  /-- commands fetched and not completed, oldest first -/
  fetched : List Cmd := []
  /-- completions of commands, formed and not written (each has a reserved entry, R397) -/
  due : List Cpl := []
  /-- events held (R397), oldest first -/
  held : List Cpl := []
  eventSeq : BitVec 16 := 0
  /-- drops since the last EVENTS_LOST entry (R397) -/
  lostSince : BitVec 32 := 0
  /-- tick of the first entry not yet signalled (R398) -/
  unsignalled : Option Word := none
  deriving DecidableEq, Repr

/-! ### Tiles, contexts, chains (03, 04, 05) -/

/-- Context states, Table 3-3. -/
inductive CtxMode where
  | empty | loaded | ready | running | waiting | stopped | done
  deriving DecidableEq, Repr

/-- One hardware loop level (R82). -/
structure Loop where
  start : BitVec 15 := 0
  last : BitVec 15 := 0
  remaining : BitVec 32 := 0
  index : BitVec 32 := 0
  active : Bool := false
  deriving DecidableEq, Repr

/-- A weight buffer: its bytes in the layout of Table 4-10, byte 0 in the lowest bits, and its
format tag. -/
structure WBuf where
  tag : BitVec 3 := 0
  data : BitVec 32768 := 0
  deriving DecidableEq, Repr

/-- What a transfer in flight does (R97, R99). -/
inductive XferKind where
  | get | put | gets | puts | fabPut | fabGet | fabRed
  deriving DecidableEq, Repr

/-- A MEM or FAB transfer in flight. -/
structure Xfer where
  kind : XferKind
  aw : Nat
  am : Nat
  len : Nat
  rows : Nat := 1
  stride : Nat := 0
  peer : Coord := 0
  /-- of a reduction: the hurdle and the generation arrived at -/
  hur : BitVec 12 := 0
  gen : Byte := 0
  /-- bytes read from the window at issue (PUT) or arrived (FAB) as window offset, bytes -/
  bytes : List Byte := []
  /-- packets not yet answered, by transfer packet index (R182) -/
  open_ : List Nat := []
  worst : BitVec 8 := 0
  deriving DecidableEq, Repr

/-- A MEM or FAB tag (Table 4-16) and, for FAB tags, its reuse hold (Table 7-6). -/
structure Tag where
  xfer : Option Xfer := none
  status : BitVec 8 := 0
  holdFrom : Option Word := none
  /-- the hurdle that the tag's last reduction arrived at, until its wait (R66, R100) -/
  redHur : Option (BitVec 12) := none
  deriving DecidableEq, Repr

/-- Where the far end of a channel lies. -/
inductive Far where
  | here (tile ctx ep : Nat)
  | away (coord : Coord) (tile ctx ep : Nat)
  deriving DecidableEq, Repr

/-- An outbound endpoint (R45 to R47). -/
structure OutEp where
  far : Option Far := none
  depth : Nat := 0
  credits : Nat := 0
  closed : Bool := false
  seq : BitVec 16 := 0
  deriving DecidableEq, Repr

/-- An inbound endpoint: a ring of `depth` entries of 256 bytes at `buf` in the tile's slice. -/
structure InEp where
  far : Option Far := none
  depth : Nat := 0
  buf : Nat := 0
  head : Nat := 0
  /-- last flags of the entries waiting, oldest first -/
  lasts : List Bool := []
  nextSeq : BitVec 16 := 0
  /-- entries that overtook an earlier one (R46): sequence, entry, last -/
  early : List (BitVec 16 × Vec × Bool) := []
  ended : Bool := false
  /-- credits freed and not yet sent across the fabric: the tick of each, oldest first (R45) -/
  owed : List Word := []
  deriving DecidableEq, Repr

/-- A context of a tile (Table 3-1, R42, and the per-context registers of chapter 3). -/
structure Ctx where
  mode : CtxMode := .empty
  waitCause : BitVec 4 := 0
  fault : BitVec 4 := 0
  chainId : BitVec 16 := 0xFFFF
  pc : BitVec 15 := 0
  faultWord : Word := 0
  jobId : BitVec 16 := 0
  jobGen : Byte := 0
  beats : Word := 0
  beatsOvf : Bool := false
  istoreBase : Nat := 0
  istoreLen : Nat := 0
  windowBase : Nat := 0
  windowLen : Nat := 0
  s : Tab Word := []
  a : Tab (BitVec 48) := []
  p : BitVec 8 := 0
  v : Tab Vec := []
  wb : Tab WBuf := []
  acc : Tab (BitVec 1024) := []
  rm : BitVec 2 := 0
  ftz : Bool := false
  /-- invalid, overflow, underflow, inexact, ht2_reserved (bit 0 first) -/
  flags : BitVec 5 := 0
  gen : Word := 0
  loops : Tab Loop := []
  mems : Tab Tag := []
  /-- MEM tags in flight, oldest issue first (R71) -/
  memOrder : List Nat := []
  fabs : Tab Tag := []
  outs : Tab OutEp := []
  ins : Tab InEp := []
  /-- hurdles arrived at and not yet waited for, with the generation arrived at (R66) -/
  arrived : Tab Byte := []
  /-- arrivals held until the context's earlier writes are complete (R71): hurdle, generation,
  and the MEM and FAB tags that were in flight at the arrival -/
  heldArr : List (BitVec 12 × Byte × List Nat × List Nat) := []
  /-- a HUR.SYNC has arrived and waits at this hurdle -/
  inSync : Bool := false
  /-- STAGE_EVENTs that wait for earlier writes (R71): code, value, tags in flight -/
  heldEvents : List (BitVec 16 × Word × List Nat × List Nat) := []
  lastHur : BitVec 12 := 0
  lastHurGen : Byte := 0
  deriving DecidableEq, Repr

/-- A level-0 hurdle of a tile (R65). -/
structure Hur0 where
  gen : Byte := 0
  count : Nat := 0
  deriving DecidableEq, Repr

/-- A tile: which context owns the front end, its level-0 hurdles, and whether its pipeline has
failed (R73 code 7). -/
structure Tile where
  owner : Nat := 0
  /-- the job generation that the level-0 hurdles belong to -/
  hurJob : BitVec 16 × Byte := (0, 0)
  hurs : Tab Hur0 := []
  failed : Bool := false
  deriving DecidableEq, Repr

/-- TILEnn.ROW_MAP of one row (R54 to R57). -/
structure RowMap where
  spareCol : BitVec 4 := 15
  healthy : Bool := false
  absent : Bool := false
  absentCol : BitVec 4 := 0
  deriving DecidableEq, Repr

/-- A summed arrival message of a tile die on its way to the hurdle unit (R65). -/
structure ArrMsg where
  jobId : BitVec 16
  jobGen : Byte
  hur : BitVec 12
  hurGen : Byte
  count : Nat
  deriving DecidableEq, Repr

/-- A fault record on its way to the Shepherd (R74). -/
structure FaultRec where
  tile : Nat
  ctx : Nat
  /-- physical column of the tile at the stop, by which the Shepherd remaps its row once (R56) -/
  phys : Nat := 0
  code : BitVec 4
  pc : BitVec 15
  word : Word
  jobId : BitVec 16
  jobGen : Byte
  hurId : BitVec 12
  hurGen : Byte
  row : Word
  tb : Word
  /-- code 3 from an entry that found no free buffer entry: its source module, tile, context and
  endpoint (Table 3-13) -/
  source : Option (Coord × Nat × Nat × Nat) := none
  deriving DecidableEq, Repr

/-- The die-level registers of TILEnn (02, 03, 06). -/
structure TileDie where
  window : BitVec 20 := 10000
  windowStart : Word := 0
  beats : BitVec 32 := 0
  seq : Byte := 0
  beatCount : Word := 0
  beatMin : BitVec 32 := 0xFFFFFFFF
  vcoreMv : BitVec 12 := 0
  tj : BitVec 12 := 0
  senseValid : Bool := false
  deficit : Bool := false
  countOvf : Bool := false
  beatDeficit : BitVec 32 := 0
  degraded : Bool := false
  outOfService : Bool := false
  failedTiles : Byte := 0
  ucode : BitVec 16 := 0
  rows : Tab RowMap := []
  pendingMap : Tab (Option RowMap) := []
  /-- failed physical tiles of the die, 16 × row + column (R55 to R57) -/
  failedList : List Nat := []
  faultCount : BitVec 32 := 0
  chDrop : Word := 0
  mapRefused : BitVec 32 := 0
  storeCorr : BitVec 32 := 0
  storeUncorr : BitVec 32 := 0
  repairRows : BitVec 16 := 0
  repairPending : BitVec 16 := 0
  ueAddr : BitVec 48 := 0
  ueValid : Bool := false
  arrMsgs : List ArrMsg := []
  /-- corrected words of the current scrub pass, by store row (R127) -/
  scrubRow : Tab Nat := []
  /-- the last word the scrubber visited -/
  scrubPos : Nat := 0
  deriving DecidableEq, Repr

/-- A record of the CONTEXTS section (Table 3-6). -/
structure CtxRec where
  tile : Nat
  ctx : Nat
  init : Byte
  istoreBase : Nat
  istoreLen : Nat
  codeOffset : Nat
  windowBase : Nat
  windowLen : Nat
  seed : Word
  deriving DecidableEq, Repr

/-- A record of the CHANNELS section (Table 3-7). -/
structure ChanRec where
  srcTile : Nat
  srcEp : Byte
  dstEp : Byte
  dstTile : Nat
  peer : Nat
  depth : Nat
  side : Nat
  buf : Nat
  deriving DecidableEq, Repr

/-- A record of the HURDLES section (Table 3-8). -/
structure HurRec where
  id : BitVec 12
  level : Nat
  commit : Bool
  post : Bool
  members : Nat
  children : Nat
  parent : Nat
  deriving DecidableEq, Repr

/-- A chain image loaded on a partition (R58 to R61). -/
structure Image where
  part : Nat
  chainId : BitVec 16
  jobId : BitVec 16
  jobGen : Byte
  flags : BitVec 16
  peers : List Coord
  ctxs : List CtxRec
  hurs : List HurRec
  deriving DecidableEq, Repr

/-- A level-1 or level-2 hurdle of a job in the hurdle unit (R64 to R70). -/
structure Hur where
  gen : Byte := 0
  /-- arrivals of this module's members counted at the current generation -/
  local_ : Nat := 0
  /-- child modules that have reported at the current generation -/
  kids : List Coord := []
  openSince : Option Word := none
  /-- arrivals of other modules held since before an image named the hurdle (R67) -/
  early : Nat := 0
  /-- the timeout of R68 is reported -/
  timedOut : Bool := false
  /-- the module's part is reported to the parent, or complete at the root -/
  complete : Bool := false
  lastRelease : Option Word := none
  deriving DecidableEq, Repr

/-- A contribution to a reduction (R183): the logical tile and context, or a child module. Operation 3
stands for a plain arrival, which contributes nothing (R100). -/
structure Contrib where
  tile : Nat
  ctx : Nat
  child : Option Coord
  op : BitVec 2
  f : BitVec 1
  len : Nat
  data : List Byte := []
  /-- of a child: the 4 KiB units of its carried partial that have arrived -/
  units : Tab (Option (List Byte)) := []
  deriving DecidableEq, Repr

/-- The reduction of one hurdle generation in the reduction engines (R183 to R185). -/
structure Red where
  contribs : List Contrib := []
  mismatch : Bool := false
  lost : Bool := false
  /-- chunks of 4 KiB combined, with the module's result (bytes) -/
  chunks : Tab (Option (List Byte)) := []
  deriving DecidableEq, Repr

/-- A job slot: FAB0.JOB_SLOT, JOB_ROW, JOB_HUR, JOB_STALE, JOB_MODE, and the hurdles. -/
structure Job where
  jobId : BitVec 16 := 0
  jobGen : Byte := 0
  valid : Bool := false
  reduction : Bool := false
  row : Word := 0
  hasRow : Bool := false
  lastHur : BitVec 12 := 0
  lastHurGen : Byte := 0
  stale : Word := 0
  adaptive : Bool := false
  hurs : Tab Hur := []
  reds : Tab Red := []
  /-- the row is unfit to commit (Table 6-4) -/
  unfit : Bool := false
  deriving DecidableEq, Repr

/-! ### Memory (06) -/

/-- One stack of a memory die. -/
structure Stack where
  erased : BitVec 18 := 0
  corr : BitVec 32 := 0
  uncorr : BitVec 32 := 0
  linkEcc : BitVec 32 := 0
  chanCorr : Tab (BitVec 32) := []
  /-- corrections of the present scrub pass, by channel (R134) -/
  passCorr : Tab Nat := []
  trained : Bool := false
  deriving DecidableEq, Repr

/-- The MEMn registers, and the scrubber's place. -/
structure MemDie where
  stk : Tab Stack := []
  rate : BitVec 3 := 0
  selfRefresh : Bool := false
  /-- twin traffic keeps the stacks out of self-refresh since this tick (R131) -/
  twinTraffic : Option Word := none
  eraseThresh : BitVec 16 := 64
  passHours : Byte := 24
  scrubEnable : Bool := true
  /-- pass_hours of the pass in progress (R137) -/
  passInForce : Byte := 24
  scrubPass : Word := 0
  scrubLine : Nat := 0
  ueAddr : BitVec 48 := 0
  ueSource : Byte := 0
  ueValid : Bool := false
  rmw : Word := 0
  ovf : Bool := false
  deriving DecidableEq, Repr

/-- An uncorrectable-error report on its way to the Shepherd (R154). -/
structure UeRep where
  addr : BitVec 48
  source : Byte
  owner : BitVec 4
  tb : Word
  deriving DecidableEq, Repr

/-! ### The tensor fabric (07) -/

/-- A DATA flit in the replay buffer: its sequence number, header bits and payload. -/
structure SentFlit where
  seq : BitVec 12
  data : Sys2Proof.FlitData
  packet : Option Packet := none
  deriving DecidableEq, Repr

/-- A packet queued on a link since a tick, with the flits of it that are not yet sent (none before its
first flit leaves). -/
structure TxPkt where
  packet : Packet
  since : Word := 0
  flits : List Sys2Proof.FlitData := []
  started : Bool := false
  deriving DecidableEq, Repr

/-- What a receiver keeps of one sender's alive counter (R378). -/
structure Alive where
  last : Option Byte := none
  cand : Option Byte := none
  deriving DecidableEq, Repr

/-- A link context (R158): registers, go-back-N state and partner. States of LINK_STATE: 0 unused,
1 training, 2 up, 3 retrain, 4 draining, 5 failed, 6 crossed, 7 down. -/
structure Link where
  state : BitVec 3 := 0
  fenced : Bool := false
  /-- the fence is a PEN's, which only UNPEN lifts (R269) -/
  penFence : Bool := false
  member : Bool := false
  /-- lanes in service: local lane numbers 0-15 of an electrical link, strands of a bundle -/
  lanes : List Nat := []
  partner : Coord := 0
  partnerDigest : Word := 0
  partnerRev : Byte := 0
  crcErr : BitVec 32 := 0
  replays : BitVec 32 := 0
  fecCorr : BitVec 48 := 0
  fecUncorr : BitVec 16 := 0
  flits : Word := 0
  nextSeq : BitVec 12 := 0
  lastAcked : BitVec 12 := 0xFFF
  replay : List SentFlit := []
  expected : BitVec 12 := 0
  nakSent : Bool := false
  unacked : Nat := 0
  unackedSince : Word := 0
  ackProgress : Word := 0
  downSince : Option Word := none
  /-- flits sent whose credits are not returned, oldest first: VC, phase (R165) -/
  held : List (Nat × Nat) := []
  /-- credits to return, per VC -/
  owe : List Nat := [0, 0, 0, 0]
  /-- packets waiting, oldest first, and the arbiter (R166) -/
  txq : List TxPkt := []
  ctlRun : Nat := 15
  rrVc : Nat := 2
  rrLeft : Nat := 0
  lastCtlTx : Word := 0
  lastCtlRx : Word := 0
  retrainTx : Bool := false
  retrainRx : Bool := false
  /-- when a commanded retrain was announced by either end (R164) -/
  retrainAt : Word := 0
  drainReason : Byte := 0
  aliveRx : Alive := {}
  aliveTx : Byte := 0
  silent : Bool := false
  /-- payload bytes of the packet being received, by VC -/
  partials : Tab (List Byte) := []
  deriving DecidableEq, Repr

/-- One job overlay (FABn.OVL_KEY, OVL_ENTRY). -/
structure Overlay where
  jobId : BitVec 16 := 0
  entries : Tab (Coord × RouteEntry) := []
  deriving DecidableEq, Repr

/-- A fabric die's registers (FABn). -/
structure Fab where
  ports : Tab (BitVec 2) := []
  lanesUp : Tab (BitVec 16) := []
  ovf : Bool := false
  hopInit : BitVec 5 := 8
  nonminThresh : Byte := 192
  wReq : BitVec 4 := 4
  wRsp : BitVec 4 := 4
  wCol : BitVec 4 := 4
  routes : Tab RouteEntry := []
  ovls : Tab Overlay := []
  fence : Tab Bool := []
  drop : Tab Word := []
  hold : Tab Word := []
  /-- DROP notices sent: receiving module, tile, tag or endpoint or hurdle, tick (R171) -/
  notices : List (Coord × BitVec 16 × Nat × Word) := []
  deriving DecidableEq, Repr

/-! ### Light paths and the Crook (08, 09) -/

/-- One skein: OPTn per-skein registers, its bank lane, and what the Shepherd keeps of it. -/
structure Skein where
  secondary : Bool := false
  quiesced : Bool := false
  switching : Bool := false
  fade : BitVec 2 := 0
  secUnfit : Bool := false
  txSpare : Bool := false
  rxSpare : Bool := false
  feedPri : BitVec 16 := 0
  feedSec : BitVec 16 := 0
  darkCnt : Word := 0
  misroute : BitVec 32 := 0
  mismatch : Byte := 0
  switches : Word := 0
  darkOver : Nat := 0
  darkUnder : Nat := 256
  darkArmed : Bool := true
  /-- a scheduled switch waits for its hurdle since this tick (R217) -/
  schedSince : Option Word := none
  lastImmediate : Option Word := none
  primaryFitSince : Option Word := none
  /-- a switch has held moves of the skein: the report of their set marks it late (R224) -/
  late : Bool := false
  correction : BitVec 16 := 0
  nextCorrection : BitVec 16 := 0
  frozen : Bool := true
  /-- the gauge record's nominal receive peak of the skein -/
  nominalPeak : BitVec 16 := 0
  bankC : Tab (BitVec 16) := []
  bankT : Tab (BitVec 16) := []
  deriving DecidableEq, Repr

/-- An optical lane (OPTn.LANE) and the misroute count of its spare (R213). -/
structure OLane where
  txRing : BitVec 3 := 0
  rxRing : BitVec 3 := 0
  txSlot : BitVec 3 := 0
  rxSlot : BitVec 3 := 0
  lit : Bool := false
  state : BitVec 4 := 0
  misroutes : BitVec 2 := 0
  rxMisroutes : BitVec 2 := 0
  txOk : Bool := false
  rxOk : Bool := false
  trainSince : Word := 0
  /-- the identity received on the lane since training began (R211) -/
  heard : Option (Coord × BitVec 6) := none
  /-- the slot on which the lane's own ring has misrouted twice, transmit and receive (R213) -/
  txLost : Option (BitVec 3) := none
  rxLost : Option (BitVec 3) := none
  deriving DecidableEq, Repr

/-- One (skein, slot): OPTn.REACH, OPTn.LINE_PWR and the commissioning references. -/
structure SlotInfo where
  coord : Coord := 0
  remoteSkein : BitVec 6 := 0
  valid : Bool := false
  rel : BitVec 16 := 0
  lit : Bool := false
  relValid : Bool := false
  projHours : Byte := 255
  expectCoord : Option (Coord × BitVec 6) := none
  /-- ratios of the ring's monitor mean to its lock target since a tick: their sum and number (R215) -/
  ringSum : Nat := 0
  ringN : Nat := 0
  ringSince : Word := 0
  /-- values of `rel` since a tick: their sum and number; their 10-minute means, oldest first, in 1/1024 (R216) -/
  relSum : Int := 0
  relN : Nat := 0
  relSince : Word := 0
  means : List Int := []
  deriving DecidableEq, Repr

/-- Element modes, Table 9-5. -/
inductive ElemMode where
  | park | seek | move | track | hold | test
  deriving DecidableEq, Repr

/-- What a move in progress is doing (R239, R246). -/
inductive MovePhase where
  | out      -- toward the overshoot beyond the target line
  | back     -- return to the lock point
  | parking  -- toward park, or toward a selector position
  | evaluating
  deriving DecidableEq, Repr

/-- A profile and its line counting. -/
structure Run where
  phase : MovePhase
  /-- the target slot; none for park -/
  target : Option (BitVec 3)
  from_ : BitVec 16
  to_ : BitVec 16
  /-- the segments planned at its start (R239) -/
  plan : Nat × Nat × Nat := (1, 1, 1)
  step : Nat := 0
  /-- samples of the crossing under way: largest sample and the power where it was -/
  peak : BitVec 16 := 0
  peakAt : BitVec 16 := 0
  rising : Bool := false
  crossed : List (BitVec 3) := []
  missed : Nat := 0
  targetSeen : Bool := false
  proposals : List (BitVec 16) := []
  lastSet : BitVec 16 := 0
  wait : Nat := 0
  /-- this SEEK is the one retry after a line-count failure (R247) -/
  retry : Bool := false
  /-- an evaluation that RELEASE began in HOLD (R250) -/
  fromHold : Bool := false
  deriving DecidableEq, Repr

/-- Gauge values of an element at one temperature (section after R312). -/
structure GaugeVal where
  park : BitVec 16 := 0
  lines : List (BitVec 16) := []
  row : List (BitVec 16) := []
  deriving DecidableEq, Repr

/-- A move command that waits: of a set with the targets of earlier moves of it and the spans of its moves (R206). -/
structure Queued where
  cmd : BitVec 4
  slot : BitVec 3
  lane : BitVec 2
  /-- a move of a set; it starts from any mode -/
  ofSet : Bool := false
  earlier : List (Nat × BitVec 4) := []
  others : List (Nat × BitVec 4 × BitVec 4) := []
  deriving DecidableEq, Repr

/-- One tunable element: CROOKn per-element registers and internal state. -/
structure Elem where
  mode : ElemMode := .park
  faulted : Bool := false
  ge : BitVec 3 := 0
  pset : BitVec 2 := 0
  slot : BitVec 4 := 15
  lane : BitVec 2 := 0
  last : BitVec 4 := 0
  refusal : BitVec 3 := 0
  sat : Bool := false
  missed : BitVec 2 := 0
  feTimer : BitVec 16 := 0
  command : BitVec 16 := 0
  code : BitVec 16 := 0
  setpoint : BitVec 16 := 0
  proposal : BitVec 16 := 0
  accel : BitVec 16 := 0
  feLimit : BitVec 16 := 983
  fePeriods : BitVec 16 := 64
  livePark : BitVec 16 := 0
  liveLines : List (BitVec 16) := []
  cold : GaugeVal := {}
  hot : GaugeVal := {}
  liveRow : List (BitVec 16) := []
  expiries : BitVec 32 := 0
  slips : BitVec 32 := 0
  refused : BitVec 32 := 0
  lcFail : BitVec 32 := 0
  c : Tab (BitVec 16) := []
  notch : BitVec 32 := 0
  t : Tab (BitVec 16) := []
  target : BitVec 16 := 0
  peakRef : BitVec 16 := 0
  feedAtAcq : BitVec 16 := 0
  /-- monitor samples since the last outer update, oldest first, and their mean then (R228) -/
  mons : List (BitVec 16) := []
  mean : BitVec 16 := 0
  acdc : BitVec 16 := 0
  eye : BitVec 16 := 0
  slipRun : Nat := 0
  run : Option Run := none
  /-- a move command that waits for the present move (R241) -/
  queued : Option Queued := none
  /-- the period in which a command was last accepted, and commands that wait for a boundary of their own (R241) -/
  cmdAt : Option Word := none
  cmds : List (BitVec 4 × BitVec 3 × BitVec 2) := []
  /-- slots whose expected-dark window held a crossing in the last sweep (R246) -/
  darkSeen : Byte := 0
  /-- a selector that was stopped between its positions (R224) -/
  adrift : Bool := false
  /-- misroutes for the present lane and slot (R211, R212) -/
  misroutes : Nat := 0
  exciteCnt : Nat := 0
  deriving DecidableEq, Repr

/-- An optical engine: OPTn engine registers and the CROOKn engine registers. -/
structure Engine where
  crookRunning : Bool := false
  blanked : Bool := false
  gaugeOk : Bool := false
  darkThresh : BitVec 16 := 0xF768
  moveRefused : Tab (BitVec 32) := []
  run : Bool := false
  slotMiss : Bool := false
  railFault : Bool := false
  railBad : Bool := false
  tempClamp : Bool := false
  tempWarn : Bool := false
  progStatus : BitVec 3 := 0
  period : Word := 0
  periodOvf : Bool := false
  temp : BitVec 16 := 0
  railMv : BitVec 12 := 0
  bind : Tab (BitVec 10 × BitVec 11) := []
  phaseA : BitVec 16 := 0
  phaseB : BitVec 16 := 0
  halfWidth : BitVec 16 := 731
  detect : BitVec 16 := 8192
  recovery : BitVec 16 := 7813
  slipLimit : BitVec 16 := 853
  slipUpdates : Byte := 16
  handover : BitVec 16 := 120
  exAmp : BitVec 16 := 0
  exHalf : Byte := 8
  exKind : Bool := false
  slotMissCnt : BitVec 32 := 0
  badCmd : BitVec 32 := 0
  profiles : Tab (BitVec 32 × BitVec 32 × BitVec 32) := []
  prog : Tab (BitVec 32) := []
  coefQ : List (Bool × Nat × Nat × BitVec 32) := []
  /-- coefficient writes waiting for room in the queue (R252) -/
  coefWait : List (Bool × Nat × Nat × BitVec 32) := []
  railOut : Nat := 0
  railIn : Nat := 1000
  /-- this excursion of the rail has been acted on; a rail fault bars the elements still (R234) -/
  railActed : Bool := false
  railHeld : Bool := false
  lastMiss : Option Word := none
  coupling : BitVec 16 := 0
  deriving DecidableEq, Repr

/-! ### Shepherd (10) and continuity (11) -/

/-- Observer reports of a group member (SHEP.OBS) with their times. -/
structure Obs where
  a : Bool := false
  b : Bool := false
  c : Bool := false
  d : Bool := false
  suspended : Bool := false
  alive : Byte := 0
  score : Byte := 0
  valid : Bool := false
  heard : Word := 0
  aAt : Word := 0
  bAt : Word := 0
  dAt : Word := 0
  suspAt : Word := 0
  term : BitVec 32 := 0
  penned : Bool := false
  paddock : Bool := false
  spare : Bool := false
  /-- when a GOSSIP of the member was last accepted (R260) -/
  gossipAt : Word := 0
  /-- ticks of unsubstantiated accusations against the member (R273) -/
  unsub : List Word := []
  dead : Bool := false
  deriving DecidableEq, Repr

/-- A directed probe that this Shepherd ordered as bellwether (R272): one result answers every job that has
accused the subject (Table 10-8). -/
structure Probe where
  subject : Coord
  prober : Coord
  tile : BitVec 16
  jobs : List (BitVec 16)
  since : Word
  deriving DecidableEq, Repr

/-- A directed probe that this Shepherd carries out as prober (R272): the tiles asked, those that have
answered, and whether the loopback has passed. -/
structure ProbeRun where
  subject : Coord
  asked : List Nat
  answered : List Nat := []
  /-- PROBE flits that have come back around a link to the subject -/
  looped : Nat := 0
  since : Word
  deriving DecidableEq, Repr

/-- An expulsion request held by the bellwether (R278, R279). -/
structure ExpelReq where
  subject : Coord
  cause : Byte
  score : Byte
  lastEval : Word
  deriving DecidableEq, Repr

/-- An ADMIT accepted whose coordinate fence still stands (R284). -/
structure Admission where
  coord : Coord
  prev : Coord
  digest : Word
  /-- READY has come, but the 4 ms hold of Table 7-6 still runs -/
  ready : Bool := false
  deriving DecidableEq, Repr

/-- The SHEP registers of chapter 10 and the internal state of its blocks. -/
structure Shep where
  bellwether : Bool := false
  penned : Bool := false
  paddock : Bool := false
  spare : Bool := false
  draining : Bool := false
  watch : Bool := false
  expelOpen : Bool := false
  /-- own coordinate; 0x7FF while the module has none -/
  coord : Coord := 0x7FF
  /-- a coordinate has been taken, from CO8 or ADMIT -/
  hasCoord : Bool := false
  member : Bool := false
  memberSince : Word := 0
  term : BitVec 32 := 0
  bell : Coord := 0
  bellValid : Bool := false
  verdicts : Word := 0
  ovf : Bool := false
  vSubject : Coord := 0
  vClasses : BitVec 4 := 0
  vTerm : BitVec 31 := 0
  vValid : Bool := false
  score : Byte := 255
  hard : Bool := false
  hardCode : Byte := 0
  /-- hard faults that stand, in order (R270, R275) -/
  hardCodes : List Byte := []
  watchThr : Byte := 160
  expelThr : Byte := 96
  ind : Tab (BitVec 16) := []
  /-- class E sums at the collections of the last hour, per indicator (R274) -/
  indPast : List (Word × List Nat) := []
  /-- each source counter as it was last collected, and the sums of what they have counted (R274) -/
  indReads : List (Tab Nat) := []
  indAcc : List Nat := []
  allowed : BitVec 4 := 1
  trusted : Bool := false
  windowHours : Byte := 24
  rejected : Byte := 0
  slots : Tab Word := []
  reserve : BitVec 16 := 0
  floor : BitVec 16 := 0
  exSubject : Coord := 0
  exState : BitVec 3 := 0
  exReasons : BitVec 4 := 0
  exScore : Byte := 0
  requests : List ExpelReq := []
  /-- orders not yet carried out: subject, slot, tick (R280) -/
  orders : List (Coord × Nat × Word) := []
  clean : BitVec 2 := 0
  padPhase : BitVec 2 := 0
  passes : BitVec 16 := 0
  padSince : Word := 0
  lastPass : Option Word := none
  admitted : Bool := false
  /-- accusations against this module that wait for their result -/
  accOpen : Nat := 0
  /-- the tile that a probe of this module names (R272) -/
  named : Option Nat := none
  accTotal : BitVec 16 := 0
  sbUp : Bool := false
  /-- when the last heartbeat left (R288) -/
  sbSentAt : Option Word := none
  sbAlive : Alive := {}
  sbLast : Word := 0
  sbLost : BitVec 16 := 0
  sbCrc : BitVec 16 := 0
  sbTx : Byte := 0
  sbSilent : Bool := false
  probes : List Probe := []
  runs : List ProbeRun := []
  /-- accusations that this module has sent and that wait for their result: subject, job -/
  accusing : List (Coord × BitVec 16) := []
  /-- a bellwether that has yielded passes its standing reports in its next GOSSIP (R266) -/
  passReports : Bool := false
  aliveTx : Byte := 0
  seqTx : BitVec 16 := 0
  lastGossip : Option Word := none
  /-- units whose link fences an UNPEN lifts at the identity check (R269) -/
  unpen : List (Coord × Word) := []
  /-- coordinates penned: when (Table 7-6), and an ADMIT waiting for READY -/
  penHold : Tab Word := []
  lanesMarginal : Nat := 0
  lanesRemoved : Nat := 0
  /-- when a link last failed: the link-margin input stands at worst (R163) -/
  marginWorst : Option Word := none
  /-- alive counters by sender: the coordinate, or 2 048 + the digest for a sender without one (R282, R378) -/
  senders : Tab Alive := []
  admits : List Admission := []
  /-- this module has sent a SELF_REPORT of kind 1 or 3 since it was last in service (R270) -/
  selfFail : Bool := false
  /-- main stays off before the paddock's ramp, since this tick (R281) -/
  padWait : Option Word := none
  /-- the coordinate that the module left, and the ticks of its last report and progress message -/
  padCoord : Coord := 0x7FF
  /-- the group whose vacancy the pod manager has named to it (R282) -/
  padGroup : Option (BitVec 7) := none
  padReportAt : Word := 0
  padProgressAt : Word := 0
  deriving DecidableEq, Repr

/-- A checkpoint version held for the partner: its row and granules. -/
structure Version where
  row : Word
  grans : Tab (List Byte) := []
  /-- packets of granules not yet whole, key 16 × granule + packet -/
  parts : Tab (List Byte) := []
  /-- granules written into the version while it was in progress -/
  got : List Nat := []
  /-- how many granules the stream has, once its last packet has come -/
  total : Option Nat := none
  deriving DecidableEq, Repr

/-- A reserve held for one job of the partner (SHEP.HELD_*, EXPORT). -/
structure Held where
  /-- the coordinate whose checkpoint it is (R287) -/
  owner : Coord := 0x7FF
  jobId : BitVec 16 := 0
  jobGen : Byte := 0
  size : BitVec 7 := 0
  limit : BitVec 7 := 0
  committed : Option Version := none
  sealed : Option Version := none
  inProgress : Option Version := none
  exportRow : BitVec 60 := 0
  exportState : BitVec 2 := 0
  /-- row of the version pinned by a running export -/
  pinned : Option Word := none
  commits : Nat := 0
  /-- E of R296, as the partner's stream carries it (log entry 22) -/
  exportEvery : Byte := 10
  /-- granules written into the version in progress, and granules superseded under a pin -/
  wrote : Nat := 0
  pinGrans : Nat := 0
  deriving DecidableEq, Repr

/-- A job of this module in the checkpoint coordinator (SHEP.CKPT_JOB). -/
structure Ckpt where
  state : BitVec 3 := 0
  reason : BitVec 4 := 0
  fullNext : Bool := false
  exportEvery : Byte := 10
  failed : Byte := 0
  bytes : Word := 0
  pause : BitVec 32 := 0
  reserveGib : Nat := 0
  limitGib : Nat := 0
  /-- the checkpoint map: none for the default map (R289) -/
  map : Option (List (Nat × Nat)) := none
  /-- granules written since the map was last frozen, and the ones frozen for the row streamed -/
  dirty : List Nat := []
  frozen : List Nat := []
  arrival : Word := 0
  commitRow : Word := 0
  /-- granules streamed and not yet acknowledged; granules a restore still needs -/
  unacked : List Nat := []
  needed : List Nat := []
  /-- a restore of everything that the holder keeps has not ended -/
  needAll : Bool := false
  /-- of a restore: packets of granules not yet whole, granules written back, and how many the holder keeps -/
  parts : Tab (List Byte) := []
  restored : List Nat := []
  total : Option Nat := none
  /-- a commit hurdle has been passed since the bind-off began (R300) -/
  bound : Bool := false
  restoreTag : Option (Nat × BitVec 16) := none
  sealedAt : Bool := false
  deriving DecidableEq, Repr

/-- SHEP.TWIN and the twin's state as the sideband tells it. -/
structure Twin where
  /-- the twin's coordinate; 0x7FF while none is named (log entry 24) -/
  coord : Coord := 0x7FF
  paired : Bool := false
  twinless : Bool := false
  handshake : Bool := false
  crossed : Bool := false
  sentHandshake : Bool := false
  timeout : BitVec 32 := 1000000000
  mainOn : Bool := false
  bindingOff : Bool := false
  penned : Bool := false
  /-- reserve that the twin holds for this module, GiB, and the highest row sealed in it -/
  heldGib : BitVec 16 := 0
  heldRow : Word := 0
  jobs : Tab Ckpt := []
  held : Tab Held := []
  /-- bind-off in progress since, with its ring and tag, and the bind-off has stopped chains -/
  bindOff : Option (Option (Nat × BitVec 16) × Word) := none
  deriving DecidableEq, Repr

/-! ### Cast-on (12), firmware and trust (13) -/

/-- A report record (Table 12-3). -/
structure Report where
  stage : Byte := 0
  result : Byte := 0
  fault : BitVec 16 := 0
  valid : Bool := false
  fast : Bool := false
  island : Option (BitVec 3) := none
  retried : Bool := false
  run : BitVec 16 := 0
  start : Word := 0
  duration : Word := 0
  hold : BitVec 32 := 0
  d : List (BitVec 32) := []
  deriving DecidableEq, Repr

/-- What one run of cast-on covers (Table 12-2). -/
inductive CastRun where
  | full              -- CO0 to CO9
  | main              -- CO2 to CO9
  | island (p : Nat)  -- CO2, CO3 and CO5 for island p
  | joining           -- CO8 and CO9
  | paddock           -- CO2 to CO7
  | refclk            -- training of CO4 and CO6
  deriving DecidableEq, Repr

/-- One electrical link as discovered (CAST.DISC). -/
structure Disc where
  planned : Coord := 0x7FF
  found : Coord := 0x7FF
  status : BitVec 3 := 0
  rev : Byte := 0
  deriving DecidableEq, Repr

/-- A lane's qualification (CAST.LANEQ). -/
structure LaneQ where
  result : BitVec 2 := 0
  fast : Bool := false
  retrained : Bool := false
  ber : Byte := 0
  uncorr : BitVec 16 := 0
  deriving DecidableEq, Repr

/-- The CAST block. -/
structure Cast where
  stage : BitVec 4 := 0
  running : Bool := false
  /-- a run of this aux life has started; none has at reset, before AUX_POWER_UP runs cast-on -/
  begun : Bool := false
  ready : Bool := false
  degraded : Bool := false
  held : Bool := false
  hold : BitVec 2 := 0
  run : CastRun := .full
  stageStart : Word := 0
  failedStage : BitVec 4 := 0
  firstTry : Word := 0
  planWait : Bool := false
  lastRetry : Word := 0
  lastReport : Word := 0
  retried : Bool := false
  /-- full_next as it stood when the run started (R328) -/
  fullRun : Bool := false
  protoRev : Byte := 0
  protoMin : Byte := 0
  coordValid : Bool := false
  fastCnt : Tab (BitVec 16 × BitVec 16) := []
  reports : Tab Report := []
  disc : Tab Disc := []
  laneq : Tab LaneQ := []
  /-- island bring-ups that wait their turn, with the ring and tag of the command to complete -/
  islandQ : List (Nat × Option (Nat × BitVec 16)) := []
  islandCmd : Option (Nat × BitVec 16) := none
  co1End : Word := 0
  /-- REFCLK restart at CO2 is due when holdover ends (R328) -/
  refclkRestart : Bool := false
  /-- an ADMIT heard during CO8 or CO9 (R328) -/
  admitLater : Option Coord := none
  /-- ports have been divided again in this cast-on (R322) -/
  redivided : Bool := false
  /-- bit x: the source at position x was removed during CO7 (Table 12-11) -/
  ecsGone : BitVec 4 := 0
  /-- channels that the defect map names as erased, as (stack, channel), from CO3 -/
  defErased : List (Nat × Nat) := []
  deriving DecidableEq, Repr

/-- An image slot (Table 13-2). -/
structure Slot where
  state : BitVec 3 := 0
  reason : BitVec 3 := 0
  keyId : BitVec 1 := 0
  settingsFormat : BitVec 16 := 0
  version : BitVec 32 := 0
  svn : BitVec 32 := 0
  /-- the TRIAL slot has been booted (R335) -/
  booted : Bool := false
  /-- it holds the image as shipped, whose bytes the spec does not give -/
  shipped : Bool := false
  /-- digest of the image header with its signature (Table 13-4) -/
  headDigest : BitVec 256 := 0
  bytes : Tab Byte := []
  deriving DecidableEq, Repr

/-- A measurement log entry (R350). -/
structure LogEntry where
  index : Byte
  type : Byte
  comp : BitVec 16
  number : BitVec 32
  tb : Word
  digest : BitVec 256
  info : BitVec 96 := 0
  deriving DecidableEq, Repr

/-- A distribution in progress (R343 to R345). -/
structure Dist where
  digest : BitVec 256
  /-- chunks of the image, and payload bytes of the last one -/
  total : BitVec 12
  lastLen : Nat := 0
  slot : Nat
  source : Coord
  parent : Coord
  held : List Nat := []
  lastChunk : Word := 0
  /-- holder asked, by its place in the order of R344 -/
  holder : Nat := 0
  askedAt : Word := 0
  deriving DecidableEq, Repr

/-- The SEC block. -/
structure Sec where
  slot : BitVec 1 := 0
  trial : Bool := false
  migrated : Bool := false
  protoRev : Byte := 0
  /-- of the running image: tile microcode and its version, and loop set (R332) -/
  ucodeDigest : BitVec 256 := 0
  ucodeVersion : BitVec 16 := 0
  loopDigest : BitVec 256 := 0
  version : BitVec 32 := 0
  deadline : Word := 0
  pufStatus : BitVec 2 := 0
  pufCorr : BitVec 16 := 0
  unitId : BitVec 256 := 0
  signNext : Word := 0
  signLimit : Word := 0
  reserveFail : Bool := false
  reserveTry : Word := 0
  /-- a reservation write is outstanding (R352) -/
  reservePending : Bool := true
  signBusy : BitVec 16 := 0
  /-- ticks of the signatures of the last second (R353) -/
  signTimes : List Word := []
  meas : Tab (BitVec 256) := []
  log : List LogEntry := []
  entries : Nat := 0
  truncated : Bool := false
  cursor : BitVec 12 := 0
  prevEpoch : Option (BitVec 16 × Word) := none
  authFail : Tab (BitVec 32) := []
  /-- last control sequence accepted, per sender -/
  seqs : List (BitVec 128 × Word) := []
  bcImage : Word := 0
  bcTotal : BitVec 12 := 0
  bcHeld : BitVec 12 := 0
  bcRepaired : BitVec 12 := 0
  bcBad : BitVec 12 := 0
  bcState : BitVec 3 := 0
  ideLink : Bool := false
  ideSel : Bool := false
  session : Bool := false
  integrityFail : Byte := 0
  /-- activation waiting for a maintenance point: the slot (R337) -/
  activate : Option Nat := none
  reject : Bool := false
  /-- a forced reset under R337 is under way -/
  resetting : Bool := false
  lastSeqRecord : Word := 0
  deriving DecidableEq, Repr

/-- The references of a feed of a skein (R215): its tap and the source's report of its lines, and by slot the ratio of
a ring's monitor mean to its lock target; 0 for none yet. -/
structure FeedRef where
  tap : Option (BitVec 16) := none
  lines : List (BitVec 16) := []
  ring : Tab Nat := []
  deriving DecidableEq, Repr

/-- The settings store, fixed section and format section (R340, R341, Table 12-7). -/
structure Settings where
  fieldRepair : List Repair := []
  erased : List (Nat × Nat) := []
  faulted : List Nat := []
  mismatch : Tab Byte := []
  /-- of a skein: its source, its spares in use (OPTn.SKEIN_STATE, class F) -/
  skeins : Tab (Bool × Bool × Bool) := []
  /-- references of a feed, at 2q for the primary of skein q and 2q + 1 for its secondary (R215) -/
  refs : Tab FeedRef := []
  /-- serial number of the source at a position when its references were taken (R215) -/
  ecsSerials : Tab (BitVec 128) := []
  islands : BitVec 8 := 0xFF
  mode : Option (BitVec 2) := none
  plan : Option Plan := none
  reach : List ReachEntry := []
  seqs : List (BitVec 128 × Word) := []
  spare : Bool := false
  /-- units that have taken a coordinate since the plan, by digest, the latest first (R284; log entry 58) -/
  standins : List (Word × Coord) := []
  /-- GATE.FLOCK_CTL.udp_port as last written (R192) -/
  udpPort : Option (BitVec 16) := none
  /-- the storage target of exports, as the pod manager has named it (R296) -/
  storage : List Byte := []
  deriving DecidableEq, Repr

/-- A tally record (Table 14-3) with its 16 bins. -/
structure Rec where
  code : BitVec 16 := 0
  source : BitVec 16 := 0
  severity : BitVec 3 := 0
  ovf : Bool := false
  prior : Bool := false
  valued : Bool := false
  suppressed : BitVec 16 := 0
  count : BitVec 32 := 0
  first : Word := 0
  last : Word := 0
  min : BitVec 32 := 0
  max : BitVec 32 := 0
  sum : Word := 0
  /-- bins 0-15 (R365) -/
  bins : Tab Byte := []
  deriving DecidableEq, Repr

/-- A black-box or staging entry (Table 14-4): the event, its tick and the rate decision. -/
structure Entry where
  tb : Word
  ev : Event
  refused : Bool := false
  deriving DecidableEq, Repr

/-- A mirror of the book (R372). -/
structure Mirror where
  seq : BitVec 32
  tb : Word
  life : BitVec 32
  book : Tab Rec
  complete : Bool := true
  deriving DecidableEq, Repr

/-- A written copy of the ring (R375, R376). -/
structure RingCopy where
  entries : List Entry
  cause : BitVec 2
  life : BitVec 32
  deriving DecidableEq, Repr

/-- Training settings kept for an item, with their tag (Table 12-9): only of items that passed (R320). -/
structure SavedItem where
  item : Nat
  /-- rate code of the training; lanes and yarns have one line rate -/
  rate : Nat := 0
  /-- at capture, 0.25 °C -/
  temp : BitVec 16 := 0
  /-- of a lane the partner's digest, of a yarn the serial number of the comb source -/
  partner : BitVec 128 := 0
  run : BitVec 16 := 0
  format : BitVec 16 := 0
  deriving DecidableEq, Repr

/-- The provision flash and the slot flash (Table 12-7, 13, 14): kept without power. -/
structure Flash where
  slots : Tab Slot := [(0, { state := 4, shipped := true })]
  svn : BitVec 32 := 0
  frogs : BitVec 16 := 0
  settings : Settings := {}
  /-- the other copy area: its settings format and content (R341) -/
  oldSettings : Option (BitVec 16 × Settings) := none
  format : BitVec 16 := 0
  run : BitVec 16 := 0
  fullNext : Bool := false
  signLimit : Word := 0
  stuck : Bool := false
  /-- the distribution in progress: its bitmap outlasts a power loss (R361) -/
  dist : Option Dist := none
  /-- sequence of the last control message sent (R356) -/
  ctlSeq : Word := 0
  owned : Bool := false
  ownerKey : List Byte := []
  podRoot : List Byte := []
  epoch : BitVec 16 := 0
  protOff : Tab Bool := []
  bands : Tab (BitVec 4) := []
  /-- saved training settings (R318) -/
  saved : List SavedItem := []
  mirrors : Option Mirror := none
  mirrors2 : Option Mirror := none
  life : BitVec 32 := 0
  fatalArea : Option RingCopy := none
  fatalHeld : Bool := false
  powerArea : Option RingCopy := none
  deriving DecidableEq, Repr

/-- The TALLY block (14). -/
structure Tally where
  book : Tab Rec := []
  buckets : List (BitVec 16 × Nat × Word) := []
  rateDef : BitVec 16 := 16
  burstDef : BitVec 16 := 64
  overrides : Tab (BitVec 16 × Byte × Byte) := []
  freeze : Bool := false
  freezeAt : Word := 0
  freezeTimeout : Bool := false
  freezeBroken : Bool := false
  autoInc : Bool := false
  source : BitVec 2 := 0
  cursor : BitVec 13 := 0
  /-- TALLY.WIN: the 68 bytes latched (R365, R369) -/
  win : List Byte := []
  staging : List Entry := []
  stagedOver : Nat := 0
  stageOvf : Word := 0
  lost : Word := 0
  suppressed : Word := 0
  mirrorTime : Word := 0
  mirrorDue : Bool := false
  shadow : Option Mirror := none
  copying : Bool := false
  mirroring : Bool := false
  ring : List Entry := []
  bbNewest : BitVec 12 := 0
  bbFrozen : Bool := false
  bbCause : BitVec 2 := 0
  bbWriting : Bool := false
  bbSkipped : Byte := 0
  bbCursor : BitVec 12 := 0
  bbSource : BitVec 2 := 0
  bbLost : Word := 0
  /-- TALLY.BB_WIN: the 32 bytes latched -/
  bbWin : List Byte := []
  /-- release was written while the ring's flash write ran (Table 14-8) -/
  bbReleased : Bool := false
  /-- tick of the last copy taken for a mirror (R372) -/
  lastMirror : Word := 0
  hold : List Entry := []
  deriving DecidableEq, Repr

/-- A lane test (TEST_* registers, R379 and R380). -/
structure LaneTest where
  gen : BitVec 4 := 0
  chk : BitVec 4 := 0
  loop : BitVec 2 := 0
  fec : Bool := false
  invert : Bool := false
  lock : Bool := false
  refused : Bool := false
  lockLost : Byte := 0
  uncorr : BitVec 16 := 0
  pat : Word := 0
  bits : Word := 0
  errs : Word := 0
  efr : Word := 0
  efrMax : Word := 0
  started : Bool := false
  deriving DecidableEq, Repr

/-- I3C, MCTP, DOE and SPDM (R399 to R402, R351). -/
structure Mgmt where
  dynAddr : Option (BitVec 7) := none
  ibiEn : Bool := true
  mwl : BitVec 16 := 256
  mrl : BitVec 16 := 256
  eid : Byte := 0
  doeBusy : Bool := false
  rstact : Byte := 0
  deriving DecidableEq, Repr

/-! ### What leaves the block -/

/-- Bodies of flock messages (Table 10-3) as sent. -/
inductive FlockBody where
  | gossip (twin : Coord) (es : List GossipEntry)
  | selfReport (kind code group : Byte) (detail : Word)
  | verdict (subject : Coord) (classes : BitVec 4)
  | pen (subject : Coord) (cause : Byte)
  | unpen (subject : Coord) (digest : Word)
  | claim (members : BitVec 16)
  | accuse (subject : Coord) (job : BitVec 16) (gen : Byte) (tile : BitVec 16) (row : Word)
  | probeOrder (subject prober : Coord) (tile : BitVec 16)
  | probeResult (subject : Coord) (result : Byte) (dies : BitVec 40)
  | expelReq (score cause : Byte) (ind : List (BitVec 16))
  | expelOrder (subject : Coord) (slot left : Byte)
  | expelRefused (subject : Coord) (reasons : BitVec 4)
  | admission (coord prev : Coord) (digest : Word)
  deriving DecidableEq, Repr

/-- What the block sends or drives. -/
inductive Output where
  /-- a packet handed over on this module itself, or whole to the link layer of a link -/
  | packet (fd : Nat) (link : Nat) (p : Packet)
  /-- a packet that a link has received whole: its bytes go to the router -/
  | toRouter (fd : Nat) (link : Nat) (bytes : List Byte)
  | flit (fd : Nat) (link : Nat) (h : FlitHdr) (d : Option Sys2Proof.FlitData)
  | commitNotice (p : Packet) (row : Word)
  /-- a UDP datagram leaves on a service port to a UDP port (R192) -/
  | datagram (port : Nat) (udp : BitVec 16) (bytes : List Byte)
  | side (type : Byte) (f : SideFrame)
  /-- a control message on the service ports (R356) -/
  | ctl (bytes : List Byte)
  /-- a chunk goes on to a module that names this one as parent (R343) -/
  | relay (peer : Coord) (bytes : List Byte)
  | cmdCons (ring : Nat) (v : BitVec 32)
  /-- the 64 bytes of a completion entry at its slot of the completion ring (Table 15-7) -/
  | entry (ring : Nat) (slot : Nat) (bytes : List Byte)
  /-- the control block's cpl_prod (Table 15-3) -/
  | cplProd (ring : Nat) (v : BitVec 32)
  | msix (vector : BitVec 6)
  | hostWrite (addr : Nat) (bytes : List Byte)
  | bar2Data (bytes : List Byte)
  | bar2Abort
  | ecsWrite (x : Nat) (reg : Byte) (v : Byte)
  | engineRestartRefused (n : Nat)
  | i3c (bytes : List Byte)
  | ibi (b : Byte)
  | mctp (cmd : Byte) (bytes : List Byte)
  | doe (proto : Byte) (bytes : List Byte)
  | spdm (via : Nat) (code : Byte) (bytes : List Byte) (signed : Option Word)
  | measurements (via : Nat) (mask : BitVec 32) (vals : List (BitVec 256)) (index : Option Word)
  | window (word : BitVec 32)
  /-- an export leaves for the storage target: its manifest, and each granule as enciphered with its tag (R296) -/
  | exported (target manifest : List Byte) (grans : List (List Byte))
  | probeEcho (tile : Nat) (alive : Bool)
  deriving DecidableEq, Repr

/-- Tally events that blocks raise whose code the spec does not give: what they name (03 to 16). -/
inductive EvKind where
  | fault (tile ctx : Nat) (code : BitVec 4)
  | hurdleTimeout (h : BitVec 12) (gen : Byte)
  | eventDropped (ring : Nat)
  | ue (addr : BitVec 48)
  | laneRemoved (fd lane : Nat)
  | linkFailed (fd k : Nat)
  | aliveLost (fd k : Nat) (n : Nat)
  | dark (q : Nat)
  | fadeWatch (q : Nat)
  | switchRefused (q : Nat)
  | mismatch (q : Nat) (slot : BitVec 3)
  | rail (n : Nat)
  | tempClamp (n : Nat)
  | slotMiss (n : Nat)
  | lineCount (n e : Nat)
  | slip (n e : Nat)
  | handover (n e : Nat)
  | expiry (n e : Nat)
  | admissionPause (ticks : BitVec 32)
  | accusation (job : BitVec 16)
  | exportAbandoned (h : Nat)
  | crossed
  | castReport (stage : Byte)
  | serviceRequest
  | cooling
  | hardFault (code : Byte)
  | signStuck
  | counterStuck (off : Nat)
  | auxLoss
  deriving DecidableEq, Repr

/-- An event handed to the Tally Book and not yet recorded. -/
structure Raised where
  kind : EvKind
  severity : BitVec 3
  tb : Word
  deriving DecidableEq, Repr

/-- The state of the block. -/
structure State where
  /-- commands waiting, first in first out -/
  pending : List Instr := []
  /-- the model's own counter of free values taken (log entry 4) -/
  free : Nat := 0
  /-- GATE.TB_TIME (R35) -/
  tb : Word := 0
  pwr : Power := {}
  gate : Gate := {}
  bands : Tab Band := []
  partMem : Tab PartMem := []
  ecs : Tab Ecs := []
  rings : Tab Ring := []
  dies : Tab TileDie := []
  tiles : Tab Tile := []
  /-- contexts, key 4 × tile + context -/
  ctxs : Tab Ctx := []
  /-- instruction stores, key 32 768 × tile + word -/
  istore : Tab Word := []
  images : List Image := []
  /-- the job a partition belongs to (chapter 3, text before JOB_SLOT) -/
  partJob : Tab (BitVec 16) := []
  jobs : Tab Job := []
  /-- identities under the reuse hold (Table 7-6): job, generation, since -/
  jobHolds : List (BitVec 16 × Byte × Word) := []
  faultRecs : List FaultRec := []
  /-- LPDDR5X and store slices over the 48-bit module address space (R141) -/
  mem : List Host.Cell := []
  /-- base addresses of uncorrectable lines and slice words (R128, R133) -/
  bad : Tab Bool := []
  /-- array errors that stand in a slice word or a line, by its base address: the bits in error (R127, R133) -/
  upsets : Tab (List Nat) := []
  /-- key number per owner (R144), and the key a line was last written under -/
  keys : Tab Nat := []
  lineKeys : Tab Nat := []
  mds : Tab MemDie := []
  ueReports : List UeRep := []
  fabs : Tab Fab := []
  /-- FAB0.HUR_TIMEOUT (R68) -/
  hurTimeout : BitVec 32 := 100000000
  /-- link contexts, key 176 × die + k -/
  links : Tab Link := []
  engines : Tab Engine := []
  skeins : Tab Skein := []
  olanes : Tab OLane := []
  /-- (skein, slot), key 8 × skein + slot -/
  slotInfo : Tab SlotInfo := []
  /-- elements, key 176 × engine + index -/
  elems : Tab Elem := []
  shep : Shep := {}
  obs : Tab Obs := []
  twin : Twin := {}
  cast : Cast := {}
  sec : Sec := {}
  flash : Flash := {}
  tally : Tally := {}
  /-- lane tests, key 320 × die + lane; GATE lanes at 640 + g -/
  tests : Tab LaneTest := []
  mgmt : Mgmt := {}
  raised : List Raised := []
  out : List Output := []
  deriving DecidableEq, Repr

/-- Reasons a step can stop with a fault. -/
inductive Fault where
  /-- Never raised: the block has no machine stop of its own; kept so that the type is inhabited
  by a named reason. Safe. -/
  | machineStop
  deriving DecidableEq, Repr

/-- Reasons a step can refuse a command. -/
inductive Refusal where
  /-- The command's meaning is not written (its arm in Machine/Dispatch.lean). Safe. -/
  | notModelled (mnemonic : String)
  deriving DecidableEq, Repr

/-- The machine right after reset: aux power just applied to a module as shipped (R9, 16
"Ordering"), every register at the value of its Reset column. -/
def State.reset : State := {}

end Sys2Proof.Machine
end

