-- ==== Sys2Proof/Machine/Ops.lean ====
section
/-! DEFINITION. The named operations over the state that the meanings are written with: one
accessor and one update for each array, power domains, time, counters, events, outputs, bytes and
rings. -/

namespace Sys2Proof.Machine

/-- The outcome of a command. -/
abbrev Res := Host.Outcome State Fault Refusal

/-- The command's effect where its event can happen; an event whose precondition does not hold does
not happen and changes nothing (log entry 1). -/
def doIf (c : Bool) (s t : State) : Res := .next (if c then t else s)

/-! ### Arrays -/

def ringDef (r : Nat) : Ring := { vector := BitVec.ofNat 6 r }
def State.ring (s : State) (r : Nat) : Ring := tabGet ringDef s.rings r
def State.setRing (s : State) (r : Nat) (v : Ring) : State := { s with rings := tabSet ringDef s.rings r v }
def State.updRing (s : State) (r : Nat) (f : Ring → Ring) : State := s.setRing r (f (s.ring r))

def State.die (s : State) (n : Nat) : TileDie := tabGet (fun _ => {}) s.dies n
def State.setDie (s : State) (n : Nat) (v : TileDie) : State := { s with dies := tabSet (fun _ => {}) s.dies n v }
def State.updDie (s : State) (n : Nat) (f : TileDie → TileDie) : State := s.setDie n (f (s.die n))

def State.tile (s : State) (t : Nat) : Tile := tabGet (fun _ => {}) s.tiles t
def State.setTile (s : State) (t : Nat) (v : Tile) : State := { s with tiles := tabSet (fun _ => {}) s.tiles t v }
def State.updTile (s : State) (t : Nat) (f : Tile → Tile) : State := s.setTile t (f (s.tile t))

/-- The key of context `c` of tile `t`. -/
def ctxKey (t c : Nat) : Nat := 4 * t + c
def State.ctx (s : State) (t c : Nat) : Ctx := tabGet (fun _ => {}) s.ctxs (ctxKey t c)
def State.setCtx (s : State) (t c : Nat) (v : Ctx) : State :=
  { s with ctxs := tabSet (fun _ => {}) s.ctxs (ctxKey t c) v }
def State.updCtx (s : State) (t c : Nat) (f : Ctx → Ctx) : State := s.setCtx t c (f (s.ctx t c))

def State.job (s : State) (j : Nat) : Job := tabGet (fun _ => {}) s.jobs j
def State.setJob (s : State) (j : Nat) (v : Job) : State := { s with jobs := tabSet (fun _ => {}) s.jobs j v }
def State.updJob (s : State) (j : Nat) (f : Job → Job) : State := s.setJob j (f (s.job j))

def State.md (s : State) (n : Nat) : MemDie := tabGet (fun _ => {}) s.mds n
def State.setMd (s : State) (n : Nat) (v : MemDie) : State := { s with mds := tabSet (fun _ => {}) s.mds n v }
def State.updMd (s : State) (n : Nat) (f : MemDie → MemDie) : State := s.setMd n (f (s.md n))

def State.fab (s : State) (n : Nat) : Fab := tabGet (fun _ => {}) s.fabs n
def State.setFab (s : State) (n : Nat) (v : Fab) : State := { s with fabs := tabSet (fun _ => {}) s.fabs n v }
def State.updFab (s : State) (n : Nat) (f : Fab → Fab) : State := s.setFab n (f (s.fab n))

/-- The key of link context `k` of fabric die `fd` (R158: 176 contexts a die). -/
def linkKey (fd k : Nat) : Nat := 176 * fd + k
def State.link (s : State) (fd k : Nat) : Link := tabGet (fun _ => {}) s.links (linkKey fd k)
def State.setLink (s : State) (fd k : Nat) (v : Link) : State :=
  { s with links := tabSet (fun _ => {}) s.links (linkKey fd k) v }
def State.updLink (s : State) (fd k : Nat) (f : Link → Link) : State := s.setLink fd k (f (s.link fd k))

def State.engine (s : State) (n : Nat) : Engine := tabGet (fun _ => {}) s.engines n
def State.setEngine (s : State) (n : Nat) (v : Engine) : State :=
  { s with engines := tabSet (fun _ => {}) s.engines n v }
def State.updEngine (s : State) (n : Nat) (f : Engine → Engine) : State := s.setEngine n (f (s.engine n))

def State.skein (s : State) (q : Nat) : Skein := tabGet (fun _ => {}) s.skeins q
def State.setSkein (s : State) (q : Nat) (v : Skein) : State :=
  { s with skeins := tabSet (fun _ => {}) s.skeins q v }
def State.updSkein (s : State) (q : Nat) (f : Skein → Skein) : State := s.setSkein q (f (s.skein q))

/-- The key of lane `j` of skein `q`. -/
def olaneKey (q j : Nat) : Nat := 4 * q + j
def State.olane (s : State) (q j : Nat) : OLane := tabGet (fun _ => {}) s.olanes (olaneKey q j)
def State.setOlane (s : State) (q j : Nat) (v : OLane) : State :=
  { s with olanes := tabSet (fun _ => {}) s.olanes (olaneKey q j) v }
def State.updOlane (s : State) (q j : Nat) (f : OLane → OLane) : State := s.setOlane q j (f (s.olane q j))

/-- The key of slot `k` of skein `q`. -/
def slotKey (q k : Nat) : Nat := 8 * q + k
def State.slotI (s : State) (q k : Nat) : SlotInfo := tabGet (fun _ => {}) s.slotInfo (slotKey q k)
def State.setSlotI (s : State) (q k : Nat) (v : SlotInfo) : State :=
  { s with slotInfo := tabSet (fun _ => {}) s.slotInfo (slotKey q k) v }
def State.updSlotI (s : State) (q k : Nat) (f : SlotInfo → SlotInfo) : State := s.setSlotI q k (f (s.slotI q k))

/-- The key of element `e` of engine `n`. -/
def elemKey (n e : Nat) : Nat := 176 * n + e
def State.elem (s : State) (n e : Nat) : Elem := tabGet (fun _ => {}) s.elems (elemKey n e)
def State.setElem (s : State) (n e : Nat) (v : Elem) : State :=
  { s with elems := tabSet (fun _ => {}) s.elems (elemKey n e) v }
def State.updElem (s : State) (n e : Nat) (f : Elem → Elem) : State := s.setElem n e (f (s.elem n e))

def State.obsOf (s : State) (m : Nat) : Obs := tabGet (fun _ => {}) s.obs m
def State.setObs (s : State) (m : Nat) (v : Obs) : State := { s with obs := tabSet (fun _ => {}) s.obs m v }
def State.updObs (s : State) (m : Nat) (f : Obs → Obs) : State := s.setObs m (f (s.obsOf m))

def State.band (s : State) (b : Nat) : Band := tabGet (fun _ => {}) s.bands b
def State.setBand (s : State) (b : Nat) (v : Band) : State := { s with bands := tabSet (fun _ => {}) s.bands b v }

def State.part (s : State) (p : Nat) : PartMem := tabGet (fun _ => {}) s.partMem p
def State.setPart (s : State) (p : Nat) (v : PartMem) : State :=
  { s with partMem := tabSet (fun _ => {}) s.partMem p v }

def State.ecsOf (s : State) (x : Nat) : Ecs := tabGet (fun _ => {}) s.ecs x
def State.setEcs (s : State) (x : Nat) (v : Ecs) : State := { s with ecs := tabSet (fun _ => {}) s.ecs x v }
def State.updEcs (s : State) (x : Nat) (f : Ecs → Ecs) : State := s.setEcs x (f (s.ecsOf x))

/-- The key of the test registers of lane `lane` of fabric die `fd`; `fd` = 2 for GATE lanes. -/
def testKey (fd lane : Nat) : Nat := 320 * fd + lane
def State.test (s : State) (fd lane : Nat) : LaneTest := tabGet (fun _ => {}) s.tests (testKey fd lane)
def State.setTest (s : State) (fd lane : Nat) (v : LaneTest) : State :=
  { s with tests := tabSet (fun _ => {}) s.tests (testKey fd lane) v }
/-- A fabric lane's generator or checker is on: no link takes it (Table 14-8). -/
def State.underTest (s : State) (fd lane : Nat) : Bool := decide ((s.test fd lane).gen ≠ 0 ∨ (s.test fd lane).chk ≠ 0)

def State.ckptJob (s : State) (j : Nat) : Ckpt := tabGet (fun _ => {}) s.twin.jobs j
def State.setCkptJob (s : State) (j : Nat) (v : Ckpt) : State :=
  { s with twin := { s.twin with jobs := tabSet (fun _ => {}) s.twin.jobs j v } }
def State.updCkptJob (s : State) (j : Nat) (f : Ckpt → Ckpt) : State := s.setCkptJob j (f (s.ckptJob j))

/-- What stays of a slot of the checkpoint coordinator when its job is gone: the registers, which are on aux
(R9). -/
def Ckpt.kept (c : Ckpt) : Ckpt :=
  { state := c.state, reason := c.reason, fullNext := c.fullNext, exportEvery := c.exportEvery, failed := c.failed,
    bytes := c.bytes, pause := c.pause }

def State.heldJob (s : State) (h : Nat) : Held := tabGet (fun _ => {}) s.twin.held h
def State.setHeldJob (s : State) (h : Nat) (v : Held) : State :=
  { s with twin := { s.twin with held := tabSet (fun _ => {}) s.twin.held h v } }
/-- Of the reserves held, those for the module's twin and for its own coordinate (R287). -/
def keptFor (own twin : Coord) (held : Tab Held) : Tab Held := held.filter (fun h => decide (h.2.owner = twin ∨ h.2.owner = own))
def State.updHeldJob (s : State) (h : Nat) (f : Held → Held) : State := s.setHeldJob h (f (s.heldJob h))

/-! ### Power domains (R13) and reach -/

/-- Island `p` is up. -/
def State.islandOn (s : State) (p : Nat) : Bool := s.pwr.islands.getLsbD p
/-- The island of tile die `n` is up (R12: die n lies in island n div 5). -/
def State.dieOn (s : State) (n : Nat) : Bool := decide (n < 40) && s.islandOn (n / 5)
/-- The die of logical tile `t` (R53). -/
def dieOfTile (t : Nat) : Nat := t / 240
/-- The partition of logical tile `t` (R12, R53). -/
def partOfTile (t : Nat) : Nat := t / 1200
/-- Main power is on: transit and memory are up. -/
def State.mainOn (s : State) : Bool := s.pwr.transit || s.pwr.memory || decide (s.pwr.islands ≠ 0)

/-! ### Time, counters, events, outputs -/

/-- `n` ticks or more have passed since `t` (R35). -/
def State.passed (s : State) (t : Word) (n : Nat) : Bool := decide (t.toNat + n ≤ s.tb.toNat)

/-- The largest value of a counter that sticks. -/
def stickMax (w : Nat) : BitVec w := BitVec.allOnes w

/-- A counter of class S, E or H: it adds and sticks at all ones (Table 14-5). -/
def stickAdd {w : Nat} (x : BitVec w) (n : Nat) : BitVec w :=
  if x.toNat + n < 2 ^ w - 1 then x + BitVec.ofNat w n else stickMax w

/-- An output is emitted. -/
def State.emit (s : State) (o : Output) : State := { s with out := s.out ++ [o] }

/-- An event is handed to the Tally Book, which records it with TALLY_EVENT (R363, log entry 12). -/
def State.raise (s : State) (k : EvKind) (sev : BitVec 3) : State :=
  { s with raised := s.raised ++ [{ kind := k, severity := sev, tb := s.tb }] }

/-- What a class S counter does when it comes to stick: COUNTER_STUCK, once (Table 14-5). -/
def State.stuck {w : Nat} (s : State) (off : Nat) (old new : BitVec w) : State :=
  { s with raised := if new = stickMax w ∧ old ≠ stickMax w then (s.raise (.counterStuck off) 2).raised else s.raised }

/-- MSI-X vector `v` is masked by its table entry (R398 names the base specification). -/
def State.msixMasked (s : State) (v : BitVec 6) : Bool :=
  (tabGet (fun k => if k % 4 = 3 then (1 : BitVec 32) else 0) s.gate.msixTable (4 * v.toNat + 3)).getLsbD 0

/-- Vector `v` is signalled: its message leaves, or it is pending while masked. -/
def State.msix (s : State) (v : BitVec 6) : State :=
  if s.msixMasked v then
    { s with gate := { s.gate with msixPending := s.gate.msixPending ||| (1 <<< v.toNat) } }
  else s.emit (.msix v)

/-- Cause bit `c` of GATE.IRQ_CAUSE is set already: how the misc vector is signalled (R398). -/
def State.miscSignal (s : State) (c : Nat) : State :=
  if s.gate.irqEnable.getLsbD c then s.msix s.gate.miscVector else s

/-- A cause of GATE.IRQ_CAUSE arises: mailbox 0, ring_error 1, cast_hold 2, fatal 3. -/
def State.misc (s : State) (c : Nat) : State :=
  let g := s.gate
  let g := match c with
    | 0 => { g with irqMailbox := true }
    | 1 => { g with irqRing := true }
    | 2 => { g with irqHold := true }
    | _ => { g with irqFatal := true }
  { s with gate := g }.miscSignal c

/-! ### Bytes (R6: little-endian) -/

/-- The value of little-endian bytes. -/
def leVal : List Byte → Nat
  | [] => 0
  | b :: bs => b.toNat + 256 * leVal bs

/-- The `n` little-endian bytes of a value. -/
def leBytes : Nat → Nat → List Byte
  | 0, _ => []
  | n + 1, v => BitVec.ofNat 8 v :: leBytes n (v / 256)

/-- `n` bytes of `l` from `off`; bytes past the end read as 0. -/
def sliceB (l : List Byte) (off n : Nat) : List Byte :=
  let x := (l.drop off).take n
  x ++ List.replicate (n - x.length) 0

/-- The little-endian field of `n` bytes at `off`. -/
def fieldB (l : List Byte) (off n : Nat) : Nat := leVal (sliceB l off n)

/-- The element at `i`, or `d` past the end. -/
def nth {α : Type} (l : List α) (i : Nat) (d : α) : α := (l[i]?).getD d

/-- One bit of a CRC-32C step (polynomial 0x1EDC_6F41, reflected; log entry 10). -/
def crcBit (c : BitVec 32) : BitVec 32 :=
  if c.getLsbD 0 then (c >>> 1) ^^^ 0x82F63B78 else c >>> 1

/-- One byte of a CRC-32C. -/
def crcByte (c : BitVec 32) (b : Byte) : BitVec 32 :=
  (List.range 8).foldl (fun a _ => crcBit a) (c ^^^ b.setWidth 32)

/-- The CRC-32C of a list of bytes (Table 0-7). -/
def crc32c (l : List Byte) : BitVec 32 := ~~~ (l.foldl crcByte 0xFFFFFFFF)

/-! ### Rings (15) -/

/-- Entries of the command ring and of the completion ring. -/
def Ring.cmdN (r : Ring) : Nat := 2 ^ r.cmdLog2.toNat
def Ring.cplN (r : Ring) : Nat := 2 ^ r.cplLog2.toNat
/-- Entries written and not consumed, as the Gate counts them (R388). -/
def Ring.used (r : Ring) : Nat := (r.cplProd - r.cplCons).toNat
/-- Completion entries neither written, nor due, nor reserved for a command fetched (R397). -/
def Ring.free (r : Ring) : Nat := r.cplN - (r.used + r.due.length + r.fetched.length)

/-- An event counted as dropped (R397). -/
def State.dropEvent (s : State) (r : Nat) (ring : Ring) : State :=
  let lost := stickAdd ring.lost 1
  ((s.setRing r { ring with lost := lost, lostSince := stickAdd ring.lostSince 1 }).raise
    (.eventDropped r) 1).stuck (0x528 + 0x40 * r) ring.lost lost

/-- Kind codes of Table 15-8 that the model uses by name. -/
def evStage : Byte := 2

/-- Remove the oldest held STAGE_EVENT. -/
def dropOldestStage : List Cpl → List Cpl
  | [] => []
  | c :: cs => if c.kind = evStage then cs else c :: dropOldestStage cs

/-- An event entry for ring `r` (R397): a free entry is taken while nothing is held, else it is held,
or dropped under the rule of the full hold. -/
def State.event (s : State) (r : Nat) (kind : Byte) (detail : List (Nat × Nat × Nat)) : State :=
  let ring := s.ring r
  let c : Cpl := { kind := kind, tag := ring.eventSeq, tbTime := s.tb, detail := detail }
  let ring := { ring with eventSeq := ring.eventSeq + 1 }
  if ring.enable && decide (0 < ring.free) && ring.held.isEmpty && decide (ring.lostSince = 0) then
    s.setRing r { ring with due := ring.due ++ [c] }
  else if ring.held.length < 256 then s.setRing r { ring with held := ring.held ++ [c] }
  else if kind = evStage then s.dropEvent r ring
  else if ring.held.any (fun x => x.kind = evStage) then
    s.dropEvent r { ring with held := dropOldestStage ring.held ++ [c] }
  else s.dropEvent r ring

/-- Command statuses (Table 15-6). -/
abbrev Status := BitVec 16
def stOk : Status := 0
def stMalformed : Status := 1
def stNotReady : Status := 2
def stWrongPartition : Status := 3
def stBusy : Status := 4
def stSequence : Status := 5
def stBadImage : Status := 6
def stMicrocode : Status := 7
def stTileAbsent : Status := 8
def stLayout : Status := 9
def stGraph : Status := 10
def stLimit : Status := 11
def stRowMismatch : Status := 12
def stHold : Status := 13
def stRouteMode : Status := 14
def stRestoring : Status := 15
def stNoReserve : Status := 16
def stSlotBusy : Status := 17
def stSlotState : Status := 18
def stTwinUe : Status := 19
def stDmaError : Status := 20
def stAuth : Status := 21
def stAborted : Status := 22
def stNoJob : Status := 23
def stAddress : Status := 24
def stWrongRing : Status := 25
def stNoChain : Status := 26
def stGeneration : Status := 27

/-- Header fields of a command block (Table 15-4). -/
def blkOp (b : Block) : Nat := fieldB b 0 1
def blkFence (b : Block) : Bool := (nth b 1 0).getLsbD 0
def blkQuiet (b : Block) : Bool := (nth b 1 0).getLsbD 1
def blkTag (b : Block) : BitVec 16 := BitVec.ofNat 16 (fieldB b 2 2)

/-- Remove the first started command with this tag and answer it. -/
def takeStarted (tag : BitVec 16) : List Cmd → Option (Cmd × List Cmd)
  | [] => none
  | c :: cs =>
    if c.started && decide (blkTag c.block = tag) then some (c, cs)
    else (takeStarted tag cs).map (fun p => (p.1, c :: p.2))

/-- A started command of ring `r` completes (R394 to R397): its reserved entry becomes due, unless it
is quiet and OK, and RING_CMDS counts. -/
def State.complete (s : State) (r : Nat) (tag : BitVec 16) (st : Status)
    (detail : List (Nat × Nat × Nat) := []) : State :=
  let ring := s.ring r
  match takeStarted tag ring.fetched with
  | none => s
  | some (c, rest) =>
    let cpl : Cpl := { kind := 0, tag := tag, status := st,
                       opcode := BitVec.ofNat 8 (blkOp c.block), tbTime := s.tb, detail := detail }
    let due := if blkQuiet c.block && decide (st = stOk) then ring.due else ring.due ++ [cpl]
    let cmds := stickAdd ring.cmds 1
    (s.setRing r { ring with fetched := rest, due := due, cmds := cmds }).stuck
      (0x530 + 0x40 * r) ring.cmds cmds

/-- The next command of a ring that can start (R394): the first not started, which a fence lets start
only when every earlier one has completed. -/
def nextCmd : List Cmd → (atHead : Bool) → Option Cmd
  | [], _ => none
  | c :: cs, atHead =>
    if c.started then nextCmd cs false
    else if blkFence c.block && !atHead then none else some c

/-- Mark the first command not started as started. -/
def markStarted : List Cmd → List Cmd
  | [] => []
  | c :: cs => if c.started then c :: markStarted cs else { c with started := true } :: cs

/-- Commands of ring `r` that need a ready module can run (R305): an island bring-up holds back only its
own partition's ring. -/
def State.readyFor (s : State) (r : Nat) : Bool :=
  s.cast.ready && !(s.cast.running && decide (s.cast.run = .island r))

/-- The command of opcode `op` on ring `r` starts, if it is the next that can; before ready it ends
with NOT_READY where Table 15-5 says so; else `f` gives its effect (R393, R394). -/
def hostCmd (s : State) (r op : Nat) (beforeReady : Bool) (f : Block → BitVec 16 → State → State) : Res :=
  let ring := s.ring r
  match nextCmd ring.fetched true with
  | none => .next s
  | some c =>
    if s.pwr.aux && decide (blkOp c.block = op) then
      let s1 := s.setRing r { ring with fetched := markStarted ring.fetched }
      if beforeReady || s.readyFor r then .next (f c.block (blkTag c.block) s1)
      else .next (s1.complete r (blkTag c.block) stNotReady)
    else .next s

end Sys2Proof.Machine
end

