-- ==== Sys2Proof/Machine/Keccak.lean ====
section
/-! DEFINITION. SHAKE256 (FIPS 202) and KMAC256 (NIST SP 800-185), the hash and the message code that Table 0-7
names (00, R10; 13, R349, R355, R356; 07, R192). -/

namespace Sys2Proof.Machine

/-! ### The permutation Keccak-f[1600]: 25 lanes of 64 bits, lane x + 5 y (FIPS 202; log entry 6) -/

/-- Lane `i` of a state. -/
def kLane (a : List Word) (i : Nat) : Word := nth a i 0

/-- Rotations of the lanes in the order of their index. -/
def kRho : List Nat := [0, 1, 62, 28, 27, 36, 44, 6, 55, 20, 3, 10, 43, 25, 39, 41, 45, 15, 21, 8, 18, 2, 61, 56, 14]

/-- Step theta. -/
def kTheta (a : List Word) : List Word :=
  let c := (List.range 5).map (fun x => kLane a x ^^^ kLane a (x + 5) ^^^ kLane a (x + 10) ^^^ kLane a (x + 15) ^^^ kLane a (x + 20))
  let d := (List.range 5).map (fun x => kLane c ((x + 4) % 5) ^^^ (kLane c ((x + 1) % 5)).rotateLeft 1)
  (List.range 25).map (fun i => kLane a i ^^^ kLane d (i % 5))

/-- Steps rho and pi: lane (x, y) goes, rotated, to (y, 2x + 3y). -/
def kRhoPi (a : List Word) : List Word :=
  (List.range 25).map (fun i =>
    let src := (i % 5 + 3 * (i / 5)) % 5 + 5 * (i % 5)
    (kLane a src).rotateLeft (nth kRho src 0))

/-- Step chi. -/
def kChi (a : List Word) : List Word :=
  (List.range 25).map (fun i =>
    let row := 5 * (i / 5)
    kLane a i ^^^ (~~~(kLane a (row + (i + 1) % 5)) &&& kLane a (row + (i + 2) % 5)))

/-- Round constants. -/
def kRounds : List Word :=
  [ 0x0000000000000001, 0x0000000000008082, 0x800000000000808A, 0x8000000080008000, 0x000000000000808B, 0x0000000080000001,
    0x8000000080008081, 0x8000000000008009, 0x000000000000008A, 0x0000000000000088, 0x0000000080008009, 0x000000008000000A,
    0x000000008000808B, 0x800000000000008B, 0x8000000000008089, 0x8000000000008003, 0x8000000000008002, 0x8000000000000080,
    0x000000000000800A, 0x800000008000000A, 0x8000000080008081, 0x8000000000008080, 0x0000000080000001, 0x8000000080008008 ]

/-- One round. -/
def kRound (a : List Word) (rc : Word) : List Word :=
  match kChi (kRhoPi (kTheta a)) with
  | [] => []
  | l :: ls => (l ^^^ rc) :: ls

/-- The permutation. -/
def keccakF (a : List Word) : List Word := kRounds.foldl kRound a

/-! ### The sponge with a rate of 136 bytes -/

/-- The rate of SHAKE256 and KMAC256 in bytes. -/
def kRate : Nat := 136

/-- A block of the rate is absorbed. -/
def kAbsorb (a : List Word) (block : List Byte) : List Word :=
  keccakF ((List.range 25).map (fun i => kLane a i ^^^ (if i < 17 then BitVec.ofNat 64 (fieldB block (8 * i) 8) else 0)))

/-- Bytes padded to whole blocks: the suffix bits, then zeros, and a 1 at the end of the last block. -/
def kPad (suffix : Byte) (m : List Byte) : List Byte :=
  let n := kRate - m.length % kRate
  if n = 1 then m ++ [suffix ||| 0x80] else m ++ suffix :: (List.replicate (n - 2) 0 ++ [0x80])

/-- `n` blocks of a list are absorbed. -/
def kBlocks : Nat → List Word → List Byte → List Word
  | 0, a, _ => a
  | n + 1, a, m => kBlocks n (kAbsorb a (m.take kRate)) (m.drop kRate)

/-- `n` blocks are squeezed. -/
def kSqueeze : Nat → List Word → List Byte
  | 0, _ => []
  | n + 1, a => ((a.take 17).flatMap (fun l => leBytes 8 l.toNat)) ++ kSqueeze n (keccakF a)

/-- The sponge: suffix bits, message, bytes of output. -/
def kSponge (suffix : Byte) (m : List Byte) (out : Nat) : List Byte :=
  let p := kPad suffix m
  (kSqueeze (out / kRate + 1) (kBlocks (p.length / kRate) (List.replicate 25 0) p)).take out

/-- SHAKE256 with `out` bytes of output. -/
def shake (m : List Byte) (out : Nat) : List Byte := kSponge 0x1F m out

/-- A digest as a number, byte 0 lowest (R6). -/
def digestOf (l : List Byte) : BitVec 256 := BitVec.ofNat 256 (leVal l)

/-- SHAKE256 with 256-bit output. -/
def shake256 (m : List Byte) : BitVec 256 := digestOf (shake m 32)

/-! ### KMAC256 (SP 800-185) -/

/-- The big-endian bytes of a number, at least one (fuel `n`). -/
def beBytes : Nat → Nat → List Byte
  | 0, _ => []
  | n + 1, v => (if v / 256 = 0 then [] else beBytes n (v / 256)) ++ [BitVec.ofNat 8 v]

/-- left_encode. -/
def leftEnc (v : Nat) : List Byte := let b := beBytes 8 v; BitVec.ofNat 8 b.length :: b
/-- right_encode. -/
def rightEnc (v : Nat) : List Byte := let b := beBytes 8 v; b ++ [BitVec.ofNat 8 b.length]
/-- encode_string. -/
def encString (l : List Byte) : List Byte := leftEnc (8 * l.length) ++ l
/-- bytepad to the rate. -/
def bytePad (l : List Byte) : List Byte :=
  let x := leftEnc kRate ++ l
  x ++ List.replicate ((kRate - x.length % kRate) % kRate) 0

/-- The bytes of a text by its ASCII codes. -/
def ascii (codes : List Nat) : List Byte := codes.map (BitVec.ofNat 8)

/-- KMAC256 of a message under a key and a customisation string, with `out` bytes of output. -/
def kmac256 (key m custom : List Byte) (out : Nat) : List Byte :=
  kSponge 0x04 (bytePad (encString (ascii [0x4B, 0x4D, 0x41, 0x43]) ++ encString custom) ++ bytePad (encString key) ++ m
    ++ rightEnc (8 * out)) out

end Sys2Proof.Machine
end

