-- ==== Sys2Proof/Machine/Net.lean ====
section
/-! DEFINITION. What leaves the module over its fabric links, service ports and twin sideband, and how it is laid out
in bytes: packets and routes, flits, drops and notices, flock messages, sideband frames (07; 10, R264; 11, R288; 13,
R355, R356). -/

namespace Sys2Proof.Machine

/-! ### Kinds (Table 7-5) -/

def kChEntry : Byte := 0x01
def kChCredit : Byte := 0x02
def kPut : Byte := 0x03
def kPutAck : Byte := 0x04
def kGetReq : Byte := 0x05
def kGetData : Byte := 0x06
def kRedUp : Byte := 0x07
def kRedDown : Byte := 0x08
def kHurArrive : Byte := 0x09
def kHurRelease : Byte := 0x0A
def kKeepalive : Byte := 0x0B
def kDrain : Byte := 0x0C
def kReady : Byte := 0x0D
def kDrop : Byte := 0x0E
def kFlock : Byte := 0x0F
def kProbe : Byte := 0x10
def kProbeReply : Byte := 0x11
def kCkpt : Byte := 0x12
def kCkptAck : Byte := 0x13

/-- The virtual channel of a kind; none for a malformed kind. REQ 0, RSP 1, COL 2, CTL 3. -/
def vcOfKind (k : Byte) : Option (BitVec 2) :=
  match k.toNat with
  | 0x01 | 0x03 | 0x05 | 0x12 => some 0
  | 0x02 | 0x04 | 0x06 | 0x13 => some 1
  | 0x07 | 0x08 => some 2
  | 0x09 | 0x0A | 0x0B | 0x0C | 0x0D | 0x0E | 0x0F | 0x10 | 0x11 => some 3
  | _ => none

/-- Reasons of FABn.DROP. -/
def dAge : Nat := 0
def dHop : Nat := 1
def dNoRoute : Nat := 2
def dFenced : Nat := 3
def dPartDown : Nat := 4
def dStale : Nat := 5
def dNoJob : Nat := 6
def dLink : Nat := 7
def dMalformed : Nat := 8
def dLate : Nat := 9
def dNotice : Nat := 10

/-- A packet for another module is at most this old (R170). -/
def ageLimit : Nat := 100000

/-- The fabric die on the side of a tile: grid columns 0-3 use FD0 (In-fabric reduction, R180's
example; die n stands in column n div 5). -/
def fdOfTile (t : Nat) : Nat := if dieOfTile t / 5 < 4 then 0 else 1

/-! ### Coordinates -/

/-- Group and position of a coordinate (R284, Table 7-1). -/
def groupOf (c : Coord) : Nat := c.toNat / 16
def posOf (c : Coord) : Nat := c.toNat % 16
def coordAt (g p : Nat) : Coord := BitVec.ofNat 11 (16 * g + p)

/-- The module's own group; the coordinate belongs to it. -/
def State.ownGroup (s : State) : Nat := groupOf s.shep.coord
def State.inGroup (s : State) (c : Coord) : Bool := s.shep.hasCoord && decide (groupOf c = s.ownGroup)

/-- The links whose partner is `c`. -/
def State.linksTo (s : State) (c : Coord) : List Nat :=
  (s.links.filter (fun e => decide (e.2.partner = c ∧ e.2.state ≠ 0) && !e.2.member)).map (·.1)

/-! ### Counters of a fabric die -/

def Fab.dropN (f : Fab) (r : Nat) : Word := tabGet (fun _ => (0 : Word)) f.drop r
def Fab.holdN (f : Fab) (h : Nat) : Word := tabGet (fun _ => (0 : Word)) f.hold h
def Fab.fenced (f : Fab) (c : Coord) : Bool := tabGet (fun _ => false) f.fence c.toNat

/-- Offset of a FABn register in BAR0. -/
def fabOff (fd off : Nat) : Nat := 0xC00000 + 0x200000 * fd + off

/-- One drop for reason `r` on die `fd` (class S). -/
def State.countDrop (s : State) (fd r : Nat) : State :=
  let n := stickAdd ((s.fab fd).dropN r) 1
  (s.updFab fd fun f =>
    { f with drop := tabSet (fun _ => (0 : Word)) f.drop r n, ovf := f.ovf || decide (n = stickMax 64) }).stuck
    (fabOff fd 0x80100 + 8 * r) ((s.fab fd).dropN r) n

/-- One reuse request held or refused for class `h` of Table 7-6. -/
def State.countHold (s : State) (fd h : Nat) : State :=
  let n := stickAdd ((s.fab fd).holdN h) 1
  (s.updFab fd fun f =>
    { f with hold := tabSet (fun _ => (0 : Word)) f.hold h n, ovf := f.ovf || decide (n = stickMax 64) }).stuck
    (fabOff fd 0x80200 + 8 * h) ((s.fab fd).holdN h) n

/-! ### Routes (R175 to R179) -/

/-- The module's own coordinate. -/
def State.isMine (s : State) (c : Coord) : Bool := s.shep.hasCoord && decide (c = s.shep.coord)

/-- The base entry of a coordinate. -/
def Fab.route (f : Fab) (c : Coord) : RouteEntry := tabGet (fun _ => {}) f.routes c.toNat

/-- The entry that routes `c` for a packet of job `job`: the job's overlay, else the base entry. -/
def Fab.entry (f : Fab) (job : BitVec 16) (c : Coord) : Option RouteEntry :=
  let ovl := (f.ovls.find? (fun o => decide (o.2.jobId = job ∧ job ≠ 0))).bind
    (fun o => (o.2.entries.find? (fun e => decide (e.2.1 = c) && e.2.2.valid)).map (·.2.2))
  match ovl with
  | some e => some e
  | none => if (f.route c).valid then some (f.route c) else none

/-- The packet is for this module: its coordinate, or the local bit of the entry (R176). -/
def State.forUs (s : State) (fd : Nat) (p : Packet) : Bool :=
  s.isMine p.dst || (((s.fab fd).entry p.jobId p.dst).map (·.local_)).getD false

/-- A link takes packets. -/
def Link.usable (l : Link) : Bool := decide (l.state = 2) && !l.fenced

/-- The usable choices of an entry: link or 0xFE for the other die, and weight (R176). -/
def State.choices (s : State) (fd : Nat) (e : RouteEntry) : List (Nat × Nat) :=
  (e.choices.map (fun c => (c.1.toNat, c.2.toNat))).filter (fun c =>
    decide (c.2 ≠ 0) && (decide (c.1 = 0xFE) || (decide (c.1 < 176) && (s.link fd c.1).usable)))

/-- Credits of a virtual channel per phase, in flits (Table 7-3). -/
def vcDepth (vc : Nat) : Nat := match vc with | 0 => 96 | 1 => 96 | 2 => 48 | _ => 16
/-- Credits of a VC and phase held by flits not returned. -/
def Link.heldN (l : Link) (vc phase : Nat) : Nat := (l.held.filter (fun h => decide (h = (vc, phase)))).length
/-- A credit is at hand. Phases 0 to 2 have a buffer class each. -/
def Link.credit (l : Link) (vc phase : Nat) : Bool := decide (phase < 3 ∧ l.heldN vc phase < vcDepth vc)

/-- The phase a packet carries on link `k`: one more on an optical link (R167). -/
def phaseOn (p : Packet) (k : Nat) : BitVec 2 := if 48 ≤ k ∧ p.phase ≠ 3 then p.phase + 1 else p.phase

/-- Occupancy of a choice in 256ths (R178); that of the in-package path is left open (log entry 19). -/
def State.occupancy (s : State) (fd : Nat) (p : Packet) (k : Nat) : Nat :=
  if k = 0xFE then min 256 (Config.crossOccupancy fd s.tb p.vc.toNat p.phase.toNat)
  else (s.link fd k).heldN p.vc.toNat (phaseOn p k).toNat * 256 / vcDepth p.vc.toNat

/-- The first choice whose running sum of weights exceeds `sel`. -/
def runningPick : List (Nat × Nat) → Nat → Option Nat
  | [], _ => none
  | (k, w) :: cs, sel => if sel < w then some k else runningPick cs (sel - w)

/-- The deterministic choice (R177). -/
def detPick (p : Packet) (cs : List (Nat × Nat)) : Option Nat :=
  let w := (cs.map (·.2)).foldl (· + ·) 0
  if w = 0 then none
  else runningPick cs ((3 * p.srcTile.toNat + 5 * p.dstTile.toNat + 7 * p.src.toNat + p.ep.toNat
    + 11 * p.kind.toNat) % w)

/-- The choice with the least occupancy over weight, the first on a tie (R178). -/
def State.adaptPick (s : State) (fd : Nat) (p : Packet) (cs : List (Nat × Nat)) : Option Nat :=
  (cs.foldl (fun (best : Option (Nat × Nat)) c =>
    match best with
    | none => some c
    | some b => if s.occupancy fd p c.1 * b.2 < s.occupancy fd p b.1 * c.2 then some c else some b) none).map (·.1)

def State.pick (s : State) (fd : Nat) (p : Packet) (cs : List (Nat × Nat)) : Option Nat :=
  if p.det then detPick p cs else s.adaptPick fd p cs

/-- Kinds that are never sent non-minimally (R179). -/
def minimalOnly (p : Packet) : Bool := decide (2 ≤ p.vc.toNat) || decide (p.kind = kCkpt ∨ p.kind = kCkptAck)

/-- Is the packet to go through the entry's group (R177, R178)? Only its source fabric die says so: no hop changes
these fields (R168). -/
def State.goNonmin (s : State) (fd : Nat) (p : Packet) (e : RouteEntry) : Bool :=
  let cs := s.choices fd e
  e.nonmin && !minimalOnly p && !p.nonmin && s.isMine p.src &&
    (if p.det then cs.isEmpty
     else match s.pick fd p cs with
       | none => false
       | some k => decide ((s.fab fd).nonminThresh.toNat < s.occupancy fd p k))

/-- The coordinate a packet is routed by (R179). -/
def routeTarget (p : Packet) : Coord :=
  if p.nonmin && !p.viaDone then BitVec.ofNat 11 (16 * p.interGroup.toNat) else p.dst

/-- The die and link a packet leaves by, and the packet as it leaves; `fuel` bounds the passes from one
die to the other. -/
def State.routeOn (s : State) : Nat → Nat → Packet → Option (Nat × Nat × Packet)
  | 0, _, _ => none
  | fuel + 1, fd, p =>
    match (s.fab fd).entry p.jobId (routeTarget p) with
    | none => none
    | some e =>
      let p1 := if s.goNonmin fd p e then { p with nonmin := true, interGroup := e.viaGroup } else p
      match (s.fab fd).entry p1.jobId (routeTarget p1) with
      | none => none
      | some e1 =>
        match s.pick fd p1 (s.choices fd e1) with
        | none => none
        | some k => if k = 0xFE then s.routeOn fuel (1 - fd) p1 else some (fd, k, p1)

/-! ### The header as bytes (Table 7-4) -/

def packetBytes (p : Packet) : List Byte :=
  leBytes 2 (p.dst.toNat + 2048 * p.hopLimit.toNat) ++ leBytes 2 p.src.toNat ++ [p.kind,
    BitVec.ofNat 8 (p.vc.toNat + (if p.det then 4 else 0) + (if p.nonmin then 8 else 0) + 16 * p.phase.toNat),
    BitVec.ofNat 8 (p.interGroup.toNat + (if p.viaDone then 128 else 0)), p.jobGen]
  ++ leBytes 2 p.jobId.toNat ++ leBytes 2 p.len.toNat ++ leBytes 3 p.age.toNat ++ [0]
  ++ leBytes 2 p.dstTile.toNat ++ leBytes 2 p.srcTile.toNat ++ leBytes 2 p.ident.toNat
  ++ [BitVec.ofNat 8 (p.ep.toNat + 8 * p.ctx.toNat), p.b23] ++ leBytes 8 p.arg.toNat ++ p.payload

/-- The packet that bytes spell. -/
def packetOf (l : List Byte) : Packet :=
  let b0 := fieldB l 0 2
  let b5 := fieldB l 5 1
  let b6 := fieldB l 6 1
  { dst := BitVec.ofNat 11 b0, hopLimit := BitVec.ofNat 5 (b0 / 2048), src := BitVec.ofNat 11 (fieldB l 2 2),
    kind := nth l 4 0, vc := BitVec.ofNat 2 b5, det := b5.testBit 2, nonmin := b5.testBit 3,
    phase := BitVec.ofNat 2 (b5 / 16), interGroup := BitVec.ofNat 7 b6, viaDone := b6.testBit 7,
    jobGen := nth l 7 0, jobId := BitVec.ofNat 16 (fieldB l 8 2), len := BitVec.ofNat 13 (fieldB l 10 2),
    age := BitVec.ofNat 24 (fieldB l 12 3), dstTile := BitVec.ofNat 16 (fieldB l 16 2),
    srcTile := BitVec.ofNat 16 (fieldB l 18 2), ident := BitVec.ofNat 16 (fieldB l 20 2),
    ep := BitVec.ofNat 3 (fieldB l 22 1), ctx := BitVec.ofNat 2 (fieldB l 22 1 / 8), b23 := nth l 23 0,
    arg := BitVec.ofNat 64 (fieldB l 24 8), payload := l.drop 32 }

/-- Payload bytes of a flit, and the flits of a packet (R160, R168). -/
def flitPayload : Nat := 296

def flitChunks : Nat → List Byte → List (List Byte)
  | 0, _ => []
  | n + 1, l => if l.length ≤ flitPayload then [l] else l.take flitPayload :: flitChunks n (l.drop flitPayload)

def flitsOf (p : Packet) : List FlitData :=
  let cs := flitChunks 16 (packetBytes p)
  (cs.zipIdx).map (fun c =>
    { vc := p.vc, phase := p.phase, sop := decide (c.2 = 0), eop := decide (c.2 + 1 = cs.length), payload := c.1 })

/-! ### Flits as bytes (Table 7-2) -/

/-- Flit types (Table 7-2); 5 to 15 are malformed. -/
def ftIdle : BitVec 4 := 0
def ftData : BitVec 4 := 1
def ftAck : BitVec 4 := 2
def ftNak : BitVec 4 := 3
def ftTrain : BitVec 4 := 4

/-- Bytes 0 to 315 of a flit. -/
def flitBody (h : FlitHdr) (d : Option FlitData) : List Byte :=
  let payload := (d.map (·.payload)).getD []
  let b0 := h.type.toNat + (match d with
    | some x => 16 * x.vc.toNat + (if x.sop then 64 else 0) + (if x.eop then 128 else 0)
    | none => 0)
  [BitVec.ofNat 8 b0, if h.retrain then 1 else 0] ++ leBytes 2 h.seq.toNat
  ++ leBytes 2 (h.ack.toNat + (if h.ackValid then 4096 else 0)) ++ leBytes 2 payload.length
  ++ leBytes 2 h.creditReq.toNat ++ leBytes 2 h.creditRsp.toNat ++ leBytes 2 h.creditCol.toNat ++ leBytes 2 h.creditCtl.toNat
  ++ leBytes 4 0 ++ sliceB payload 0 flitPayload

/-- The CRC that the flit is to carry in bytes 316 to 319. -/
def flitCrc (h : FlitHdr) (d : Option FlitData) : BitVec 32 := crc32c (flitBody h d)

/-- A flit with its CRC formed. -/
def sealFlit (h : FlitHdr) (d : Option FlitData) : FlitHdr := { h with crc := flitCrc h d }

/-- The 320 bytes of a flit. -/
def flitBytes (h : FlitHdr) (d : Option FlitData) : List Byte := flitBody h d ++ leBytes 4 h.crc.toNat

/-- A flit whose CRC holds and that no uncorrectable codeword overlaps (R155, R161). -/
def flitGood (h : FlitHdr) (d : Option FlitData) : Bool := decide (h.crc = flitCrc h d ∧ h.fecUncorr = 0)

/-- The payload of a TRAIN flit: what R211 and R315 have it say (layout: log entry 20). -/
def trainPayload (t : TrainInfo) : List Byte :=
  leBytes 2 t.coord.toNat ++ [t.skein.setWidth 8, BitVec.ofNat 8 (t.lane.toNat + 16 * t.slot.toNat)]
  ++ (match t.heard with
      | some (c, q) => leBytes 2 (c.toNat + 0x8000) ++ [q.setWidth 8]
      | none => [0, 0, 0])
  ++ [t.rev] ++ leBytes 8 t.digest.toNat

/-- The data part of a TRAIN flit. -/
def trainData (t : TrainInfo) : FlitData := { vc := 3, sop := true, eop := true, payload := trainPayload t }

/-! ### The transmit side of a link (R161, R165, R166) -/

/-- The head of the link's queue on a virtual channel. -/
def Link.headOf (l : Link) (vc : Nat) : Option TxPkt := l.txq.find? (fun x => decide (x.packet.vc.toNat = vc))

/-- The queue with its first packet of a VC replaced or taken out. -/
def replaceHead (vc : Nat) (r : Option TxPkt) : List TxPkt → List TxPkt
  | [] => []
  | x :: xs =>
    if x.packet.vc.toNat = vc then (match r with | some y => y :: xs | none => xs)
    else x :: replaceHead vc r xs

/-- A VC has a packet whose next flit holds a credit. -/
def Link.canSend (l : Link) (vc : Nat) : Bool :=
  match l.headOf vc with
  | some x => l.credit vc x.packet.phase.toNat
  | none => false

/-- Weight of a VC (FABn.VC_WEIGHT; 0 is replaced by 1 when written). -/
def Fab.weight (f : Fab) (vc : Nat) : Nat :=
  (match vc with | 0 => f.wReq | 1 => f.wRsp | _ => f.wCol).toNat

/-- The VC that the arbiter grants: CTL first, but one flit in 16 while another VC waits; the others
weighted round-robin by packets (R166). Answers the VC and the link with its arbiter moved. -/
def Link.grant (l : Link) (f : Fab) : Option (Nat × Link) :=
  let others := [0, 1, 2].any l.canSend
  if l.canSend 3 && (!others || decide (15 ≤ l.ctlRun)) then some (3, { l with ctlRun := 0 })
  else if others then
    let l := { l with ctlRun := min 15 (l.ctlRun + 1) }
    if l.canSend l.rrVc && decide (0 < l.rrLeft) then some (l.rrVc, l)
    else
      match [(l.rrVc + 1) % 3, (l.rrVc + 2) % 3, l.rrVc % 3].find? l.canSend with
      | some v => some (v, { l with rrVc := v, rrLeft := f.weight v })
      | none => none
  else none

/-- The header of a flit as this end sends it: it acknowledges and returns the credits owed (R160, R161,
R165). -/
def Link.hdr (l : Link) (type : BitVec 4) (seq : BitVec 12) : FlitHdr :=
  { type := type, retrain := l.retrainTx, seq := seq, ack := l.expected - 1, ackValid := true,
    creditReq := BitVec.ofNat 16 (nth l.owe 0 0), creditRsp := BitVec.ofNat 16 (nth l.owe 1 0),
    creditCol := BitVec.ofNat 16 (nth l.owe 2 0), creditCtl := BitVec.ofNat 16 (nth l.owe 3 0) }

/-- A flit of a type leaves on a link; what it carries back is sent. -/
def State.sendFlit (s : State) (fd k : Nat) (type : BitVec 4) (seq : BitVec 12) (d : Option FlitData) : State :=
  (s.updLink fd k fun l => { l with owe := [0, 0, 0, 0], unacked := 0 }).emit
    (.flit fd k (sealFlit ((s.link fd k).hdr type seq) d) d)

/-- The age of a packet after `n` more ticks; it saturates. -/
def addAge (a : BitVec 24) (n : Nat) : BitVec 24 := if a.toNat + n < 2 ^ 24 then a + BitVec.ofNat 24 n else stickMax 24

/-- The exception of R189: probes of this module's own Shepherd. -/
def State.ownProbe (s : State) (p : Packet) : Bool :=
  decide (p.kind = kProbe ∨ p.kind = kProbeReply) && s.isMine p.src

/-- A coordinate fence of die `fd` catches the packet (R189). -/
def State.coordFenced (s : State) (fd : Nat) (p : Packet) : Bool :=
  ((s.fab fd).fenced p.src || (s.fab fd).fenced p.dst) && !s.ownProbe p

/-! ### Drops and notices (R170, R171) -/

/-- Kinds whose drop produces a notice. -/
def noticed (k : Byte) : Bool := decide (1 ≤ k.toNat ∧ k.toNat ≤ 0x0A) || decide (k = kCkpt ∨ k = kCkptAck)
/-- Kinds whose requester is their destination. -/
def isAnswer (k : Byte) : Bool := decide (k = kPutAck ∨ k = kGetData ∨ k = kCkptAck)
/-- Reasons with a notice. -/
def reasonNoticed (r : Nat) : Bool := decide (r ≤ dPartDown ∨ r = dLink)

/-- The tag, endpoint or hurdle ID by which notices are limited: the hurdle of a hurdle message or a reduction, the
endpoints of a channel packet, the granule and packet number of a checkpoint packet (log entry 22), the FAB tag and
source context of the others; told apart by class. -/
def noticeId (p : Packet) : Nat :=
  if p.kind = kHurArrive ∨ p.kind = kHurRelease ∨ p.kind = kRedUp ∨ p.kind = kRedDown then 0x10000 + p.ident.toNat
  else if p.kind = kCkpt ∨ p.kind = kCkptAck then
    0x1000000 + p.b23.toNat + 256 * p.ident.toNat + 0x1000000 * (p.dstTile.toNat + 65536 * p.srcTile.toNat)
  else if p.kind = kChEntry ∨ p.kind = kChCredit then 0x30000 + p.b23.toNat + 256 * p.ep.toNat
  else p.b23.toNat

/-- The DROP packet of a dropped packet. -/
def noticeOf (r : Nat) (p : Packet) : Packet :=
  { dst := if isAnswer p.kind then p.dst else p.src, src := 0, kind := kDrop, vc := 3, jobId := p.jobId,
    jobGen := p.jobGen, srcTile := p.srcTile, dstTile := p.dstTile, ident := p.ident, ep := p.ep, ctx := p.ctx,
    b23 := p.b23, arg := BitVec.ofNat 64 (r + 256 * p.kind.toNat) }

/-- The packet enters the queue of a link. -/
def State.queueOn (s : State) (fd k : Nat) (p : Packet) : State :=
  s.updLink fd k fun l => { l with txq := l.txq ++ [{ packet := p, since := s.tb }] }

/-- A notice of a drop is sent, or counted as not sent: at most one for each (module, tile, tag) in 100 µs.
A notice meets the checks of any packet, and its own drop only counts. -/
def State.sendNotice (s : State) (fd r : Nat) (p : Packet) : State :=
  let n := noticeOf r p
  let tile := if isAnswer p.kind then p.dstTile else p.srcTile
  let recent := (s.fab fd).notices.filter (fun x => !s.passed x.2.2.2 10000)
  if recent.any (fun x => decide (x.1 = n.dst ∧ x.2.1 = tile ∧ x.2.2.1 = noticeId p)) then
    (s.updFab fd fun f => { f with notices := recent }).countDrop fd dNotice
  else
    let s := s.updFab fd fun f => { f with notices := recent ++ [(n.dst, tile, noticeId p, s.tb)] }
    let n := { n with src := s.shep.coord, hopLimit := (s.fab fd).hopInit }
    if s.coordFenced fd n then s.countDrop fd dFenced
    else if s.forUs fd n then s.emit (.packet fd 255 n)
    else match s.routeOn 2 fd n with
      | none => s.countDrop fd dNoRoute
      | some (fd1, k, n1) =>
        s.queueOn fd1 k { n1 with phase := phaseOn n1 k, hopLimit := n1.hopLimit - 1 }

/-- A packet is dropped for reason `r` on die `fd`; its notice waits on its link. -/
def State.dropQuiet (s : State) (fd r : Nat) (p : Packet) : State :=
  let s1 := s.countDrop fd r
  if reasonNoticed r && noticed p.kind then s1.sendNotice fd r p else s1

/-! ### Sending -/

/-- The next flit that the arbiter grants leaves: a packet's age is brought up to date with its first
flit (R169), and one that is too old or fenced by then is dropped at the head of the queue (R170, R189). -/
def State.pumpOne (s : State) (fd k : Nat) : State :=
  let l := s.link fd k
  if !decide ((l.state = 2 ∨ l.state = 4) ∧ l.replay.length < 256) then s
  else match l.grant (s.fab fd) with
  | none => s
  | some (vc, l) =>
    match l.headOf vc with
    | none => s
    | some x =>
      let age := addAge x.packet.age (s.tb.toNat - x.since.toNat + 1)
      if !x.started && (l.fenced || s.coordFenced fd x.packet) && !s.ownProbe x.packet then
        (s.setLink fd k { l with txq := replaceHead vc none l.txq }).dropQuiet fd dFenced x.packet
      else if !x.started && decide (ageLimit < age.toNat) then
        (s.setLink fd k { l with txq := replaceHead vc none l.txq }).dropQuiet fd dAge { x.packet with age := age }
      else
        let p := if x.started then x.packet else { x.packet with age := age }
        match (if x.started then x.flits else flitsOf p) with
        | [] => s.setLink fd k { l with txq := replaceHead vc none l.txq }
        | d :: ds =>
          let last := ds.isEmpty
          let l1 := { l with
            txq := replaceHead vc (if last then none else some { x with packet := p, flits := ds, started := true }) l.txq,
            rrLeft := if last && decide (vc ≠ 3) then l.rrLeft - 1 else l.rrLeft,
            nextSeq := l.nextSeq + 1,
            replay := l.replay ++ [{ seq := l.nextSeq, data := d, packet := if last then some p else none }],
            held := l.held ++ [(vc, p.phase.toNat)],
            ackProgress := if l.replay.isEmpty then s.tb else l.ackProgress,
            lastCtlTx := if vc = 3 then s.tb else l.lastCtlTx }
          (s.setLink fd k l1).sendFlit fd k 1 l.nextSeq (some d)

/-- The link sends what it can. -/
def State.pumpN (s : State) (fd k : Nat) : Nat → State
  | 0 => s
  | n + 1 => State.pumpN (s.pumpOne fd k) fd k n

/-- Enough passes for every flit queued: a packet has at most 14. -/
def State.pumpOnce (s : State) (fd k : Nat) : State := s.pumpN fd k (16 * (s.link fd k).txq.length)

/-- The links on which a DROP notice waits. -/
def State.noticeLinks (s : State) : List Nat :=
  (s.links.filter (fun e => e.2.txq.any (fun x => decide (x.packet.kind = kDrop) && !x.started))).map (·.1)

/-- Waiting notices leave (R171); a packet dropped at the head of a queue meanwhile brings one more, so `n` passes. -/
def State.pumpNotices : Nat → State → State
  | 0, s => s
  | n + 1, s => State.pumpNotices n (s.noticeLinks.foldl (fun (s : State) key => s.pumpOnce (key / 176) (key % 176)) s)

/-- The link sends what it can, and so do the links that have a notice to send. -/
def State.pump (s : State) (fd k : Nat) : State := State.pumpNotices 2 (s.pumpOnce fd k)

/-- A packet is dropped for reason `r` on die `fd` (R170), and its notice leaves (R171). -/
def State.dropPacket (s : State) (fd r : Nat) (p : Packet) : State := State.pumpNotices 2 (s.dropQuiet fd r p)

/-- A packet goes on from die `fd`: malformed, fenced, too old, for this module, out of hops, or to a link
(R168, R170, R176, R189). -/
def State.forward (s : State) (fd : Nat) (p : Packet) : State :=
  if vcOfKind p.kind ≠ some p.vc then s.countDrop fd dMalformed
  else if s.coordFenced fd p then s.dropPacket fd dFenced p
  else if ageLimit < p.age.toNat then s.dropPacket fd dAge p
  else if s.forUs fd p then s.emit (.packet fd 255 p)
  else if p.hopLimit = 0 then s.dropPacket fd dHop p
  else match s.routeOn 2 fd p with
    | none => s.dropPacket fd dNoRoute p
    | some (fd1, k, p1) =>
      (s.queueOn fd1 k { p1 with phase := phaseOn p1 k, hopLimit := p1.hopLimit - 1 }).pump fd1 k

/-- A packet is sourced on die `fd`: the die fills coordinate, hop limit and channel (R168, R170). -/
def State.sendPacket (s : State) (fd : Nat) (p : Packet) : State :=
  if s.pwr.transit then
    let h := (s.fab fd).hopInit
    s.forward fd { p with src := s.shep.coord, hopLimit := if h = 0 then 1 else h,
                          vc := (vcOfKind p.kind).getD 0, phase := 0, age := 0 }
  else s

/-- The control packet of a kind that goes to the partner of a link, over that link (Table 7-3): DRAIN, READY, KEEPALIVE.
It passes the queue, the arbiter and the credits of the link as any packet does (R165, R166, R169). -/
def State.sendOnLink (s : State) (fd k : Nat) (kind : Byte) (arg : Word) (payload : List Byte) : State :=
  let p : Packet := {
    dst := (s.link fd k).partner, src := s.shep.coord, hopLimit := (s.fab fd).hopInit, kind := kind, vc := 3,
    len := BitVec.ofNat 13 payload.length, arg := arg, payload := payload }
  (s.queueOn fd k { p with phase := phaseOn p k, hopLimit := p.hopLimit - 1 }).pump fd k

/-! ### Keys of the pod (R355, R358) -/

/-- The key of a use under an epoch: KMAC256 with the pod root, the use's customisation string over the epoch. -/
def State.podKey (s : State) (epoch : BitVec 16) (use : List Byte) (len : Nat := 32) : List Byte :=
  kmac256 s.flash.podRoot (leBytes 2 epoch.toNat) use len

/-- "GXK-FLOCK", "GXFLOCK", "GXK-CTRL" and "GXCTRL". -/
def useFlock : List Byte := ascii [0x47, 0x58, 0x4B, 0x2D, 0x46, 0x4C, 0x4F, 0x43, 0x4B]
def tagFlock : List Byte := ascii [0x47, 0x58, 0x46, 0x4C, 0x4F, 0x43, 0x4B]
def useCtrl : List Byte := ascii [0x47, 0x58, 0x4B, 0x2D, 0x43, 0x54, 0x52, 0x4C]
def tagCtrl : List Byte := ascii [0x47, 0x58, 0x43, 0x54, 0x52, 0x4C]

/-- The epochs under which messages are accepted: the one in force, and the one before it for 10 minutes (R358). -/
def State.epochs (s : State) : List (BitVec 16) :=
  s.flash.epoch :: (match s.sec.prevEpoch with
    | some p => if s.tb.toNat < p.2.toNat + 60000000000 then [p.1] else []
    | none => [])

/-! ### Flock messages as bytes (Table 7-8, Table 10-3) -/

/-- The type of a message. -/
def FlockBody.type : FlockBody → Byte
  | .gossip _ _ => 0x01
  | .selfReport _ _ _ _ => 0x02
  | .verdict _ _ => 0x03
  | .pen _ _ => 0x04
  | .unpen _ _ => 0x05
  | .claim _ => 0x06
  | .accuse _ _ _ _ _ => 0x07
  | .probeOrder _ _ _ => 0x08
  | .probeResult _ _ _ => 0x09
  | .expelReq _ _ _ => 0x0A
  | .expelOrder _ _ _ => 0x0B
  | .expelRefused _ _ => 0x0C
  | .admission _ _ _ => 0x0D

/-- An entry of a GOSSIP. -/
def gossipBytes (e : GossipEntry) : List Byte :=
  leBytes 2 (e.subject.toNat + (if e.a then 0x0800 else 0) + (if e.b then 0x1000 else 0) + (if e.c then 0x2000 else 0))
  ++ [e.alive] ++ leBytes 2 e.ageMs.toNat

/-- The bytes of a body from byte 24 on; a byte that Table 10-3 does not name is zero. -/
def FlockBody.bytes : FlockBody → List Byte
  | .gossip twin es => leBytes 2 twin.toNat ++ [BitVec.ofNat 8 es.length, 0] ++ es.flatMap gossipBytes
  | .selfReport kind code group detail => [kind, code, group, 0] ++ leBytes 8 detail.toNat
  | .verdict c classes => leBytes 2 c.toNat ++ [classes.setWidth 8]
  | .pen c cause => leBytes 2 c.toNat ++ [cause]
  | .unpen c digest => leBytes 2 c.toNat ++ [0, 0] ++ leBytes 8 digest.toNat
  | .claim members => leBytes 2 members.toNat
  | .accuse c job gen tile row => leBytes 2 c.toNat ++ leBytes 2 job.toNat ++ [gen, 0] ++ leBytes 2 tile.toNat ++ leBytes 8 row.toNat
  | .probeOrder c prober tile => leBytes 2 c.toNat ++ leBytes 2 prober.toNat ++ leBytes 2 tile.toNat
  | .probeResult c result dies => leBytes 2 c.toNat ++ [result, 0] ++ leBytes 5 dies.toNat
  | .expelReq score cause ind => [score, cause, 0, 0] ++ ind.flatMap (fun v => leBytes 2 v.toNat)
  | .expelOrder c slot left => leBytes 2 c.toNat ++ [slot, left]
  | .expelRefused c reasons => leBytes 2 c.toNat ++ [reasons.setWidth 8]
  | .admission c prev digest => leBytes 2 c.toNat ++ leBytes 2 prev.toNat ++ leBytes 8 digest.toNat

/-- Bytes 0 to 107 of a message. -/
def flockText (h : FlockHdr) (b : FlockBody) : List Byte :=
  [h.version, h.type] ++ leBytes 2 h.sender.toNat ++ leBytes 2 h.pod.toNat ++ [h.alive,
    BitVec.ofNat 8 (h.mode.toNat + (if h.penned then 4 else 0) + (if h.paddock then 8 else 0) + (if h.spare then 16 else 0)
      + (if h.draining then 32 else 0))]
  ++ leBytes 4 h.term.toNat ++ leBytes 2 h.seq.toNat ++ [h.score, 0] ++ leBytes 8 h.tbTime.toNat ++ sliceB b.bytes 0 84

/-- The tag of a message under the flock key of an epoch, byte 108 lowest (R192). -/
def State.flockTag (s : State) (epoch : BitVec 16) (h : FlockHdr) (b : FlockBody) : BitVec 128 :=
  BitVec.ofNat 128 (leVal ((kmac256 (s.podKey epoch useFlock) (flockText h b) tagFlock 32).take 16))

/-- The CRC of a message over bytes 0 to 123. -/
def flockCrc (h : FlockHdr) (b : FlockBody) : BitVec 32 := crc32c (flockText h b ++ leBytes 16 h.tag.toNat)

/-- The 128 bytes of a message. -/
def flockBytes (h : FlockHdr) (b : FlockBody) : List Byte :=
  flockText h b ++ leBytes 16 h.tag.toNat ++ leBytes 4 h.crc.toNat

/-- A message with its type, tag and CRC formed, under the epoch in force (R358). -/
def State.sealFlock (s : State) (h : FlockHdr) (b : FlockBody) : FlockHdr :=
  let h1 := { h with type := b.type }
  let h2 := { h1 with tag := s.flockTag s.flash.epoch h1 b }
  { h2 with crc := flockCrc h2 b }

/-- The checks of R193 on length and CRC, and on the tag. -/
def flockWhole (h : FlockHdr) (b : FlockBody) : Bool := decide (h.len = 128 ∧ h.crc = flockCrc h b)
def State.flockSigned (s : State) (h : FlockHdr) (b : FlockBody) : Bool := s.epochs.any (fun e => decide (h.tag = s.flockTag e h b))

/-- A type of Table 10-3. -/
def flockTypeKnown (t : Byte) : Bool := decide (1 ≤ t.toNat ∧ t.toNat ≤ 0x0D)

/-! ### Flock messages as sent (R192) -/

/-- The frame of the module's next flock message (Table 7-8). -/
def State.flockHdr (s : State) : FlockHdr :=
  { sender := s.shep.coord, pod := (s.flash.settings.plan.map (·.pod)).getD 0, alive := s.shep.aliveTx,
    mode := s.pwr.mode, penned := s.shep.penned, paddock := s.shep.paddock, spare := s.shep.spare,
    draining := s.shep.draining, term := s.shep.term, seq := s.shep.seqTx, score := s.shep.score,
    tbTime := s.tb }

/-- A message that a module without a coordinate sends (R282). -/
def FlockBody.graduate : FlockBody → Bool
  | .selfReport kind _ _ _ => decide (kind = 4)
  | _ => false

/-- A message that every Shepherd of the pod acts on, beyond its group (R188, R268, R269, R284). -/
def FlockBody.podWide : FlockBody → Bool
  | .verdict _ _ | .pen _ _ | .unpen _ _ | .admission _ _ _ => true
  | _ => false

/-- The coordinates that FLOCK packets go to (log entry 57): those of the own group, or of the plan for a message that
concerns the pod, that the base table of FD0 routes and that are not fenced. -/
def State.flockPeers (s : State) (b : FlockBody) : List Coord :=
  let all := if b.podWide then (s.flash.settings.plan.map (fun p => p.digests.map (·.2))).getD []
    else (List.range 16).map (coordAt s.ownGroup)
  all.filter (fun c => decide (c ≠ s.shep.coord) && ((s.fab 0).route c).valid && !((s.fab 0).route c).local_
    && !(s.fab 0).fenced c)

/-- The datagrams of a message, one on each service port that is enabled. -/
def State.datagrams (s : State) (bytes : List Byte) : State :=
  let one := fun (s : State) (on : Bool) (port : Nat) => if on then s.emit (.datagram port s.gate.udpPort bytes) else s
  one (one s s.gate.port0En 0) s.gate.port1En 1

/-- The FLOCK packets of a message (R192), where the module has a coordinate and its fabric is up. -/
def State.flockPackets (s : State) (b : FlockBody) (bytes : List Byte) : State :=
  if s.gate.fabricEn && s.pwr.transit && s.shep.hasCoord then
    (s.flockPeers b).foldl (fun (s : State) c =>
      s.sendPacket 0 { dst := c, src := 0, kind := kFlock, vc := 3, len := 128, payload := bytes }) s
  else s

/-- A flock message leaves on both service ports and over the fabric (R192); an unowned module, which holds no flock
key, sends none (R323), nor does one without a coordinate but for SELF_REPORT kind 4 (R282, R309), nor a Shepherd
whose firmware does not run (hold state 1). -/
def State.flock (s : State) (b : FlockBody) : State :=
  if s.pwr.aux && s.flash.owned && decide (s.cast.hold ≠ 1) && (s.shep.hasCoord || b.graduate) then
    let bytes := flockBytes (s.sealFlock s.flockHdr b) b
    (({ s with shep := { s.shep with aliveTx := s.shep.aliveTx + 1, seqTx := s.shep.seqTx + 1 } } : State).datagrams bytes).flockPackets
      b bytes
  else s

/-! ### Twin sideband frames (R288, Table 11-2) -/

/-- The first 8 bytes of the unit identity digest. -/
def State.ownDigest (s : State) : Word := s.sec.unitId.setWidth 64

/-- Bytes 0 to 27 of a frame. -/
def sideText (type : Byte) (f : SideFrame) : List Byte :=
  [type, f.alive] ++ leBytes 2 f.sender.toNat ++ [BitVec.ofNat 8 ((if f.mainOn then 1 else 0) + (if f.penned then 2 else 0)
    + (if f.bindingOff then 4 else 0) + (if f.streaming then 8 else 0) + (if f.reserveReady then 16 else 0)), f.kind, 0, 0]
  ++ leBytes 8 f.heldRow.toNat ++ leBytes 8 f.digest.toNat ++ leBytes 2 f.heldGib.toNat ++ [0, 0]

/-- The CRC of a frame, and a frame with it formed. -/
def sideCrc (type : Byte) (f : SideFrame) : BitVec 32 := crc32c (sideText type f)
def sealSide (type : Byte) (f : SideFrame) : SideFrame := { f with crc := sideCrc type f }
/-- The 32 bytes of a frame. -/
def sideBytes (type : Byte) (f : SideFrame) : List Byte := sideText type f ++ leBytes 4 f.crc.toNat
/-- The CRC of a frame holds. -/
def sideGood (type : Byte) (f : SideFrame) : Bool := decide (f.crc = sideCrc type f)

/-- The reserve that the module keeps for its twin, in GiB: its twin-reserve bands (R138, R292). -/
def State.reserveGib (s : State) : Nat := 16 * (s.bands.filter (fun b => decide (b.2.owner = 8))).length

/-- The twin sideband frame of the module now (Table 11-2). -/
def State.sideFrame (s : State) (kind : Byte) : SideFrame :=
  let held := s.twin.held.filter (fun h => decide (h.2.jobId ≠ 0))
  { alive := s.shep.sbTx, sender := s.shep.coord, mainOn := s.pwr.transit && s.pwr.memory && !s.pwr.lost, penned := s.shep.penned,
    bindingOff := s.twin.bindOff.isSome, streaming := s.twin.jobs.any (fun j => decide (j.2.state = 1)),
    reserveReady := s.pwr.memory && decide (s.reserveGib ≠ 0), kind := kind,
    heldRow := BitVec.ofNat 64 ((held.map (fun h => max ((h.2.sealed.map (·.row.toNat)).getD 0)
      ((h.2.committed.map (·.row.toNat)).getD 0))).foldl max 0),
    digest := s.ownDigest, heldGib := BitVec.ofNat 16 s.reserveGib }

/-- A frame leaves on the twin sideband, which is silent in hold state 1. -/
def State.sendSide (s : State) (type kind : Byte) : State :=
  if s.pwr.aux && decide (s.cast.hold ≠ 1) then
    { s with shep := { s.shep with sbTx := s.shep.sbTx + 1 } }.emit (.side type (sealSide type (s.sideFrame kind)))
  else s

/-- A SELF_REPORT (Table 10-4); it goes over the sideband as well as over the service ports (R288). Kinds 1
and 3 say that the module has failed. -/
def State.selfReport (s : State) (kind code : Byte) : State :=
  let s := if kind = 1 ∨ kind = 3 then { s with shep := { s.shep with selfFail := true } } else s
  (s.flock (.selfReport kind code 0 0)).sendSide 3 kind

/-- The argument of a DRAIN: its reason in the lowest byte (R190, log entry 20). -/
def drainArg (reason : Byte) : Word := reason.setWidth 64

/-- DRAIN on CTL to every fabric neighbour (R15): every link that is up carries it, one that still drains too. -/
def State.drainSend (s : State) (reason : Byte) : State :=
  s.links.foldl (fun (s : State) p =>
    if (p.2.state = 2 ∨ p.2.state = 4) ∧ p.2.member = false then s.sendOnLink (p.1 / 176) (p.1 % 176) kDrain (drainArg reason) [] else s)
    { s with shep := { s.shep with draining := true } }

end Sys2Proof.Machine
end

