-- ==== Sys2Proof/Machine/Stop.lean ====
section
/-! DEFINITION. What several chapters do to the module as a whole: passing a tile's front end on,
stopping contexts, blanking the transmitters, and what a Shepherd does on a hard fault. -/

namespace Sys2Proof.Machine

/-! ### The front end (R51, R52) -/

/-- The contexts of a tile in the order of R51: after the owner, wrapping, the owner last. -/
def rotation (o : Nat) : List Nat := [(o + 1) % 4, (o + 2) % 4, (o + 3) % 4, o % 4]

/-- An idle tile gives its front end to the first READY context; a tile with a RUNNING owner keeps it
(R51). -/
def State.dispatch (s : State) (t : Nat) : State :=
  let o := (s.tile t).owner
  if (s.ctx t o).mode = .running then s
  else match (rotation o).find? (fun c => decide ((s.ctx t c).mode = .ready)) with
    | some c => (s.updTile t fun x => { x with owner := c }).updCtx t c fun x => { x with mode := .running }
    | none => s

/-- A WAITING context comes back to READY and takes the front end if the tile is idle (R52). -/
def State.wake (s : State) (t c : Nat) : State :=
  (s.updCtx t c fun x => { x with mode := .ready, waitCause := 0 }).dispatch t

/-- A context holds a chain that is neither stopped nor done. -/
def Ctx.live (x : Ctx) : Bool :=
  decide (x.mode = .loaded ∨ x.mode = .ready ∨ x.mode = .running ∨ x.mode = .waiting)

/-- STOP_CHAIN on one context (R63): a live one is STOPPED with fault code 6, and its blocked
instruction has no effect (R103). -/
def Ctx.stopped (x : Ctx) : Ctx :=
  if x.live then { x with mode := .stopped, waitCause := 0, fault := 6 } else x

/-- Every context that `p` names is stopped by command, and tiles left idle go on with another. -/
def State.stopWhere (s : State) (p : Nat → Ctx → Bool) : State :=
  let keys := (s.ctxs.filter (fun e => p e.1 e.2 && e.2.live)).map (·.1)
  let s := keys.foldl (fun (s : State) k => s.updCtx (k / 4) (k % 4) Ctx.stopped) s
  keys.foldl (fun (s : State) k => s.dispatch (k / 4)) s

/-- Every chain of the module is stopped. -/
def State.stopAll (s : State) : State := s.stopWhere fun _ _ => true

/-- The physical column of logical column `c` (R54). -/
def RowMap.phys (m : RowMap) (c : Nat) : Nat := if c < m.spareCol.toNat then c else c + 1
def TileDie.row (d : TileDie) (r : Nat) : RowMap := tabGet (fun _ => {}) d.rows r
/-- The row map in force for a logical tile. -/
def State.rowOf (s : State) (t : Nat) : RowMap := (s.die (dieOfTile t)).row (t % 240 / 15)

/-- The tile die forms and sends a fault record for a stop with a code other than 6 (R74). -/
def State.faultRecord (s : State) (t c : Nat) (code : BitVec 4) (pc : BitVec 15) (word : Word) : State :=
  let x := s.ctx t c
  let row := match s.jobs.find? (fun p => p.2.valid && decide (p.2.jobId = x.jobId)) with
    | some p => p.2.row
    | none => 0
  { s with faultRecs := s.faultRecs ++ [{
      tile := t, ctx := c, phys := (s.rowOf t).phys (t % 15), code := code, pc := pc, word := word, jobId := x.jobId, jobGen := x.jobGen,
      hurId := x.lastHur, hurGen := x.lastHurGen, row := row, tb := s.tb }] }

/-- A context stops with a fault (R73): its state is frozen, CTX_PC and CTX_FAULT_WORD hold the
faulting instruction, and the tile goes on with another context. -/
def State.faultCtx (s : State) (t c : Nat) (code : BitVec 4) (pc : BitVec 15) (word : Word) : State :=
  ((s.faultRecord t c code pc word).updCtx t c fun x =>
    { x with mode := .stopped, waitCause := 0, fault := code, pc := pc, faultWord := word }).dispatch t

/-! ### Blank (R222) -/

/-- Elements of an engine: 16 skeins of 11 each, 0-4 transmit rings (4 the spare), 5-9 receive rings,
10 the feed selector (Table 9-2). -/
def elemIsTx (e : Nat) : Bool := decide (e % 11 < 5)
def elemIsSel (e : Nat) : Bool := decide (e % 11 = 10)

/-- Q15 readings. -/
def q15 (b : BitVec 16) : Int := b.toInt
def ofQ15 (i : Int) : BitVec 16 := BitVec.ofInt 16 i

/-- Supply feed-forward and clamp of R233: the DAC code, and the command that it delivers. -/
def dacOf (y : Int) (rail : Nat) : Nat × Int :=
  let y := (max y 0).toNat
  if rail = 0 then (if y = 0 then (0, 0) else (65535, 0))
  else
    let num := y * 2 * 48 * 3300 * 3300
    let den := 52 * rail * rail
    let code := (2 * num + den) / (2 * den)
    let cmax := min 65535 (65536 * 3300 * 3300 / (rail * rail))
    if code ≤ cmax then (code, (y : Int))
    else (cmax, (((cmax * 52 * rail * rail * 32768) / (65536 * 48 * 3300 * 3300) : Nat) : Int))

/-- The DAC code that holds a command at a rail reading; 0 before the first reading. -/
def codeAt (y : BitVec 16) (rail : Nat) : BitVec 16 := if rail = 0 then 0 else BitVec.ofNat 16 (dacOf (q15 y) rail).1

/-- A transmit ring under blank: its heater is held at the park value. A command that waits is checked later. -/
def Elem.blank (x : Elem) (rail : Nat) : Elem :=
  { x with mode := .park, slot := 15, run := none, command := x.livePark, code := codeAt x.livePark rail,
           setpoint := x.livePark, t := [], slipRun := 0, feTimer := 0,
           last := if x.run.isSome then 8 else x.last }

/-- A selector that moves stays where it is (Table 8-10). -/
def Elem.stopSel (x : Elem) : Elem :=
  if x.run.isSome then { x with mode := .hold, run := none, last := 8, setpoint := x.command, feTimer := 0, adrift := true }
  else x

/-- Every optical lane has left service: its strand has left its link (R205), and an optical link without
lanes is down. -/
def State.dropOptics (s : State) : State :=
  let s := (s.olanes.map (·.1)).foldl (fun (s : State) key =>
    s.updOlane (key / 4) (key % 4) fun o => { o with state := 0, lit := false, txOk := false, rxOk := false, heard := none }) s
  ((s.links.filter (fun e => decide (48 ≤ e.1 % 176))).map (·.1)).foldl (fun (s : State) key =>
    s.updLink (key / 176) (key % 176) fun l =>
      if l.state = 2 ∨ l.state = 3 ∨ l.state = 4 then
        { l with lanes := [], member := false, state := 7, downSince := some s.tb }
      else { l with lanes := [], member := false }) s

/-- The elements of an engine under blank: transmit rings park, a moving selector stays where it is (R222, R243). -/
def State.blankElems (s : State) : State :=
  s.elems.foldl (fun (s : State) e =>
    let n := e.1 / 176
    let i := e.1 % 176
    if elemIsTx i then s.updElem n i fun x => x.blank (s.engine n).railMv.toNat
    else if elemIsSel i && e.2.run.isSome then
      (s.updElem n i Elem.stopSel).updSkein (16 * n + i / 11) fun k => { k with switching := false }
    else s) s

/-- Blank: the Gate asserts it, every modulator driver is off, every transmit ring is held at park, and the lanes
leave service. The Gate holds it through the loss of the transit domain (R222). -/
def State.blankAll (s : State) : State :=
  let s := { s with gate := { s.gate with blank := true } }
  if s.pwr.transit then
    let s := (List.range 4).foldl (fun (s : State) n => s.updEngine n fun x => { x with blanked := true }) s
    s.blankElems.dropOptics
  else s

/-! ### Expulsion slots and orders (R277, R280) -/

/-- Budget slot `i`: when it frees, 0 while free. -/
def State.slotAt (s : State) (i : Nat) : Word := tabGet (fun _ => (0 : Word)) s.shep.slots i
def State.setBudget (s : State) (i : Nat) (v : Word) : State :=
  { s with shep := { s.shep with slots := tabSet (fun _ => (0 : Word)) s.shep.slots i v } }

/-- The order of a module with a hard fault is withdrawn and its slot freed (Table 10-8). -/
def State.withdrawOrder (s : State) (c : Coord) : State :=
  let slots := (s.shep.orders.filter (fun o => decide (o.1 = c))).map (·.2.1)
  let s1 := slots.foldl (fun (s : State) i => s.setBudget i 0) s
  { s1 with shep := { s1.shep with orders := s1.shep.orders.filter (fun o => decide (o.1 ≠ c)) } }

/-- The module's own order, which a hard fault withdraws before it is carried out (Table 10-8): its bind-off
ends with it. -/
def State.withdrawOwn (s : State) : State :=
  if s.shep.hasCoord && s.shep.orders.any (fun o => decide (o.1 = s.shep.coord)) && s.pwr.drain.isNone then
    { s.withdrawOrder s.shep.coord with twin := { s.twin with bindOff := s.twin.bindOff.filter (fun b => b.1.isSome) } }
  else s

/-! ### Hard faults (R262, Table 10-4) -/

/-- On a hard fault the Shepherd stops every chain, its keepalives stop (`hard` holds them back), the
transmitters go dark, the score is 0 (so that it is on watch) and it can be bellwether no more, and SELF_REPORT kind 3 goes out; the event is fatal. The first
code is shown, and every one that stands is kept. `kind` is 1 where main power is lost without command. -/
def State.hardWith (s : State) (kind code : Byte) : State :=
  let s := s.withdrawOwn.stopAll.blankAll
  let s := { s with shep := { s.shep with
    hard := true, hardCode := if s.shep.hard then s.shep.hardCode else code, score := 0, watch := true,
    hardCodes := if s.shep.hardCodes.contains code then s.shep.hardCodes else s.shep.hardCodes ++ [code],
    bellwether := false, passReports := s.shep.passReports || s.shep.bellwether,
    bellValid := s.shep.bellValid && !s.shep.bellwether } }
  (s.selfReport kind code).raise (.hardFault code) 5

/-- A hard fault of a code, reported with kind 3. -/
def State.hardFault (s : State) (code : Byte) : State := s.hardWith 3 code

end Sys2Proof.Machine
end

