-- ==== Sys2Proof/Machine/MemOps.lean ====
section
/-! DEFINITION. Memory: the module address space, slice words and LPDDR5X lines, keys, reach, reads and
writes, and the records of errors (06). -/

namespace Sys2Proof.Machine

/-! ### The module address map (Table 6-3) -/

/-- What an address names. -/
inductive Place where
  | band (b : Nat)
  | ext (b : Nat)
  | slice (t : Nat)
  | control
  | nowhere
  deriving DecidableEq, Repr

/-- First address of the band extensions, of the slices and of the control space. -/
def extBase : Nat := 0x028000000000
def sliceBase : Nat := 0x100000000000
def controlBase : Nat := 0x200000000000
/-- Bytes of a slice, a band, an extension, a slice word and a line. -/
def sliceSize : Nat := 0x400000
def bandSize : Nat := 0x400000000
def extSize : Nat := 0x80000000
def wordSize : Nat := 32
def lineSize : Nat := 512

/-- The place of an address (R141). -/
def placeOf (a : Nat) : Place :=
  if a < extBase then .band (a / bandSize)
  else if a < extBase + 160 * extSize then .ext ((a - extBase) / extSize)
  else if a < sliceBase then .nowhere
  else if a < sliceBase + 9600 * sliceSize then .slice ((a - sliceBase) / sliceSize)
  else if a < controlBase then .nowhere
  else if a < controlBase + 0x10000000 then .control
  else .nowhere

/-- The base of the slice of logical tile `t` (R53). -/
def sliceAddr (t : Nat) : Nat := sliceBase + t * sliceSize

/-- The band of an LPDDR5X address. -/
def bandOf (a : Nat) : Option Nat :=
  match placeOf a with
  | .band b => some b
  | .ext b => some b
  | _ => none

/-- Size of the unit that a place is protected in: a slice word or a line. -/
def unitSize (a : Nat) : Nat := if sliceBase ≤ a then wordSize else lineSize
/-- First byte of the unit that holds `a`. -/
def unitOf (a : Nat) : Nat := a / unitSize a * unitSize a

/-- The units that `n` bytes at `a` touch, lowest first. -/
def unitsOf (a n : Nat) : List Nat :=
  if n = 0 then [] else
    (List.range ((a + n - 1) / unitSize a - a / unitSize a + 1)).map (fun i => unitOf a + i * unitSize a)

/-- The stack of its memory die that protected line `a` lies in (R142). -/
def stackOf (a : Nat) : Nat := (a - a / bandSize / 20 * 0x5000000000) / lineSize % 5

/-- The memory die and the stacks that the line at `a` lies in: an extension line takes the parity
bursts of eight protected lines (R140). -/
def lineStacks (a : Nat) : Nat × List Nat :=
  match placeOf a with
  | .ext b =>
    let l := b * bandSize + 8 * ((a - extBase) % extSize / lineSize) * lineSize
    (b / 20, ((List.range 8).map (fun i => stackOf (l + i * lineSize))).eraseDups)
  | _ => (a / bandSize / 20, [stackOf a])

/-! ### Stacks -/

def MemDie.stack (m : MemDie) (k : Nat) : Stack := tabGet (fun _ => {}) m.stk k
def MemDie.setStack (m : MemDie) (k : Nat) (v : Stack) : MemDie :=
  { m with stk := tabSet (fun _ => {}) m.stk k v }
/-- Stack `k` of memory die `n`. -/
def State.stack (s : State) (n k : Nat) : Stack := (s.md n).stack k
def State.updStack (s : State) (n k : Nat) (f : Stack → Stack) : State :=
  s.updMd n fun m => m.setStack k (f (m.stack k))

/-- Erased channels of a stack. -/
def Stack.erasedN (x : Stack) : Nat := (erasedList x.erased).length

/-- Protection is off for the line at `a` (R140). -/
def State.lineUnprotected (s : State) (a : Nat) : Bool :=
  match bandOf a with
  | some b => (s.band b).protOff
  | none => false

/-- The bits in error of a slice word (bits 256 to 265 are its check bits) or of a line. -/
def State.flips (s : State) (u : Nat) : List Nat := tabGet (fun _ => []) s.upsets u
def State.setFlips (s : State) (u : Nat) (v : List Nat) : State := { s with upsets := tabSet (fun _ => []) s.upsets u v }

/-- What reading the unit at base `u` comes to: a word under SECDED, where more bits than it detects for certain
count as detected (R124, log entry 54); a line under R133; a line without protection, which an erased channel
alone makes uncorrectable (R140). -/
def State.decoded (s : State) (u : Nat) : Decoded :=
  let f := s.flips u
  if sliceBase ≤ u then (match f with | [] => .clean | [_] => .corrected 0 | _ => .uncorrectable)
  else
    let (m, ks) := lineStacks u
    if s.lineUnprotected u then (if ks.any (fun k => decide (0 < (s.stack m k).erasedN)) then .uncorrectable else .clean)
    else decodeLine (s.stack m (ks.headD 0)).erased f

/-- The unit at base `u` cannot be corrected: it has been found so and not been written whole since, or a decode
finds it so now (R128, R133, R154). -/
def State.unitBad (s : State) (u : Nat) : Bool :=
  tabGet (fun _ => false) s.bad u || decide (s.decoded u = .uncorrectable)

def State.setBad (s : State) (u : Nat) (v : Bool) : State :=
  { s with bad := tabSet (fun _ => false) s.bad u v }

/-! ### Keys (R143 to R145) -/

/-- The key number of an owner (a partition 0-7, or 8 the twin reserve); each new key has a new one. -/
def State.key (s : State) (o : Nat) : Nat := tabGet (fun k => k + 1) s.keys o
/-- The Gate writes a new key. -/
def State.rotateKey (s : State) (o : Nat) : State :=
  { s with keys := tabSet (fun k => k + 1) s.keys o (s.key o + 16) }
/-- The key that the owner of the line at `a` reads it with. -/
def State.lineKeyNow (s : State) (a : Nat) : Nat :=
  match bandOf a with
  | some b => s.key (s.band b).owner.toNat
  | none => 0
/-- The key that a line was last written under; 0 before its first write. -/
def State.lineKeyWritten (s : State) (l : Nat) : Nat := tabGet (fun _ => 0) s.lineKeys l
/-- The line at base `l` was written under another key than its owner's. -/
def State.stale (s : State) (l : Nat) : Bool :=
  decide (l < sliceBase) && decide (s.lineKeyWritten l ≠ 0) && decide (s.lineKeyWritten l ≠ s.lineKeyNow l)

/-! ### Reading and writing bytes -/

/-- What a byte that nothing has written reads as: a slice is zeroed at bring-up (R126); for LPDDR5X
the spec gives no value and the model takes 0 (log entry 11). -/
def memDef (_ : Nat) : Byte := 0
/-- The byte stored at `a`, before decryption under another key. -/
def State.cell (s : State) (a : Nat) : Byte := tabGet memDef s.mem a
/-- The memory with a byte stored. -/
def State.setCell (s : State) (a : Nat) (b : Byte) : State := { s with mem := tabSet memDef s.mem a b }
/-- Bytes stored one after the other from `a`. -/
def State.setCells (s : State) : Nat → List Byte → State
  | _, [] => s
  | a, b :: bs => State.setCells (s.setCell a b) (a + 1) bs

/-- One byte as its owner reads it. -/
def State.readByte (s : State) (a : Nat) : Byte :=
  if s.stale (unitOf a) then
    Config.staleByte (s.lineKeyWritten (unitOf a)) (s.lineKeyNow a) a
      ((List.range 16).map (fun i => s.cell (a / 16 * 16 + i)))
  else s.cell a
/-- `n` bytes from `a`. -/
def State.readBytes (s : State) (a n : Nat) : List Byte := (List.range n).map (fun i => s.readByte (a + i))

/-- Before a part of a stale line is written, the line holds what it decrypts to (R135, R145). -/
def State.settle (s : State) (l : Nat) : State := if s.stale l then s.setCells l (s.readBytes l lineSize) else s

/-! ### Checkpoint granules -/

/-- Bytes of a granule (R289). -/
def granSize : Nat := 65536

/-- The partition that owns an address: the band's owner or the slice's partition. -/
def State.ownerOf (s : State) (a : Nat) : Nat :=
  match placeOf a with
  | .band b => (s.band b).owner.toNat
  | .ext b => (s.band b).owner.toNat
  | .slice t => partOfTile t
  | _ => 15

/-- The job a partition belongs to; 0xFFFF for none. -/
def State.jobOfPart (s : State) (p : Nat) : BitVec 16 := tabGet (fun _ => (0xFFFF : BitVec 16)) s.partJob p
/-- The slot of a job. -/
def State.slotOfJob (s : State) (j : BitVec 16) : Option Nat :=
  (List.range 8).find? (fun i => (s.job i).valid && decide ((s.job i).jobId = j))
/-- The slot of the job that a partition belongs to. -/
def State.slotOfPart (s : State) (p : Nat) : Option Nat :=
  if s.jobOfPart p = 0xFFFF then none else s.slotOfJob (s.jobOfPart p)

/-- A granule written is marked for the job of its partition (R289). -/
def State.markGran (s : State) (g : Nat) : State :=
  match s.slotOfPart (s.ownerOf (g * granSize)) with
  | some j => s.updCkptJob j fun c => if c.dirty.contains g then c else ({ c with dirty := g :: c.dirty } : Ckpt)
  | none => s
/-- The granules of `n` bytes at `a` are marked. -/
def State.markDirty (s : State) (a n : Nat) : State :=
  if n = 0 then s else
    (List.range ((a + n - 1) / granSize - a / granSize + 1)).foldl
      (fun (s : State) i => s.markGran (a / granSize + i)) s

/-! ### Errors (R152 to R154) -/

/-- A channel is marked erased (R134): recorded in the settings store; the second of a stack is a hard
fault. -/
def State.eraseChan (s : State) (m k c : Nat) : State :=
  if (s.stack m k).erased.getLsbD c then s
  else
    let n := (s.stack m k).erasedN
    let s1 := s.updStack m k fun x => { x with erased := x.erased ||| (1 <<< c) }
    let s2 := { s1 with flash := { s1.flash with settings := { s1.flash.settings with
      erased := s1.flash.settings.erased ++ [(5 * m + k, c)] } } }
    if n = 1 then s2.hardFault 3 else s2

/-- A correction attributed to channel `c` (R133, R134). -/
def State.correct (s : State) (m k c : Nat) : State :=
  let x := s.stack m k
  let pass := tabGet (fun _ => 0) x.passCorr c + 1
  let s1 := s.updStack m k fun x => { x with
    corr := stickAdd x.corr 1,
    chanCorr := tabSet (fun _ => (0 : BitVec 32)) x.chanCorr c (stickAdd (tabGet (fun _ => (0 : BitVec 32)) x.chanCorr c) 1),
    passCorr := tabSet (fun _ => 0) x.passCorr c pass }
  let th := (s.md m).eraseThresh.toNat
  if th ≠ 0 ∧ th ≤ pass then s1.eraseChan m k c else s1

/-- Key of a store row: tile row, physical column, sub-array, row (R124). -/
def storeRowKey (trow tcol sub row : Nat) : Nat := ((16 * trow + tcol) * 16 + sub) * 1024 + row

/-- A slice word is corrected and written back: the store die counts it, for itself and for its row (R127). -/
def State.correctWord (s : State) (u : Nat) : State :=
  let t := (u - sliceBase) / sliceSize
  let w := (u - sliceBase) % sliceSize / wordSize
  let k := storeRowKey (t % 240 / 15) ((s.rowOf t).phys (t % 15)) (w / 8 / 1024) (w / 8 % 1024)
  s.updDie (dieOfTile t) fun d => { d with
    storeCorr := stickAdd d.storeCorr 1,
    scrubRow := tabSet (fun _ => 0) d.scrubRow k (tabGet (fun _ => 0) d.scrubRow k + 1) }

/-- Cipher blocks of a line have been returned wrong: what they decrypt to is not defined (R140; log entry 5). -/
def State.garble (s : State) (l : Nat) (blocks : List Nat) : State :=
  if blocks.isEmpty then s
  else
    let n := s.free
    blocks.foldl (fun (s : State) b =>
      s.setCells (l + 16 * b) ((List.range 16).map (fun i => Config.freeByte n (l + 16 * b + i)))) { s with free := n + 1 }

/-- A unit that is not uncorrectable is read: its errors are corrected, counted and written back; errors that
the code does not see, or that nothing checks, come through as data (R127, R133, R140). -/
def State.fixUnit (s : State) (u : Nat) : State :=
  let f := s.flips u
  if f.isEmpty || s.unitBad u then s
  else
    let s1 := s.setFlips u []
    if sliceBase ≤ u then s1.correctWord u
    else if s.lineUnprotected u then s1.garble u ((f.map (fun b => b / 128)).eraseDups.filter (· < 32))
    else
      let (m, ks) := lineStacks u
      let d := s.decoded u
      let s2 := s1.garble u (wrongBlocks (s.stack m (ks.headD 0)).erased f d)
      match d with
      | .corrected c => s2.correct m (ks.headD 0) c
      | _ => s2

/-- The units that `n` bytes at `a` touch are read. -/
def State.fixRange (s : State) (a n : Nat) : State :=
  ((s.upsets.map (·.1)).filter (fun u => decide (a < u + unitSize u ∧ u < a + n))).foldl State.fixUnit s

/-- An array bit turns over, where its array has power: of a slice word, or of a protected line. With protection
off the parity bursts of a line are bytes of its band's extension (R140). -/
def State.upset (s : State) (e : Nat × Nat) : State :=
  let u := unitOf e.1
  let flip := fun (u b : Nat) =>
    let f := s.flips u
    s.setFlips u (if f.contains b then f.filter (· ≠ b) else f ++ [b])
  match placeOf u with
  | .slice t => if s.dieOn (dieOfTile t) && decide (e.2 < 266) then flip u e.2 else s
  | .band b =>
    if !s.pwr.memory || decide (8 * 32 * channels ≤ e.2) then s
    else if s.lineUnprotected u && decide (8 * 512 ≤ e.2) then
      let l := u % bandSize / lineSize
      flip (extBase + b * extSize + l / 8 * lineSize) (512 * (l % 8) + (e.2 - 8 * 512))
    else flip u e.2
  | _ => s

/-- An uncorrectable unit is recorded by its block and reported to the Shepherd (R154), and stays so until it is
written whole. Sources as
MEMn.UE_LOG: 0 MEM or FAB read, 1 read-modify-write, 2 scrubber, 3 BAR2, 4 checkpoint or twin link. -/
def State.reportUe (s : State) (u : Nat) (source : Byte) : State :=
  let addr := BitVec.ofNat 48 u
  let s := s.setBad u true
  let s := { s with ueReports := s.ueReports ++ [(⟨addr, source, BitVec.ofNat 4 (s.ownerOf u), s.tb⟩ : UeRep)] }
  match placeOf u with
  | .slice t => s.updDie (dieOfTile t) fun d =>
      { d with ueAddr := addr, ueValid := true, storeUncorr := stickAdd d.storeUncorr 1 }
  | _ =>
    let (m, ks) := lineStacks u
    let s := s.updMd m fun x => { x with ueAddr := addr, ueSource := source, ueValid := true }
    s.updStack m (nth ks 0 0) fun x => { x with uncorr := stickAdd x.uncorr 1 }

/-- A read-modify-write is counted (R135). -/
def State.countRmw (s : State) (m : Nat) : State :=
  let n := stickAdd (s.md m).rmw 1
  (s.updMd m fun x => { x with rmw := n, ovf := x.ovf || decide (n = stickMax 64) }).stuck
    (0x1000000 + 0x200000 * m + 0x418) (s.md m).rmw n

/-! ### Reads and writes of ranges -/

/-- The first uncorrectable unit of a range. -/
def State.firstBad (s : State) (a n : Nat) : Option Nat := (unitsOf a n).find? s.unitBad

/-- The outcome of reading a range: the bytes, or the first uncorrectable unit, which is reported. -/
def State.readRange (s : State) (a n : Nat) (source : Byte) : State × List Byte × Option Nat :=
  match s.firstBad a n with
  | none => ((s.fixRange a n), (s.fixRange a n).readBytes a n, none)
  | some u => ((s.fixRange a (u - a)).reportUe u source, (s.fixRange a (u - a)).readBytes a (u - a), some u)

/-- Bytes of `l`, which stands from address `a`, that fall into the unit at `u`: their first address and
the bytes. -/
def unitPart (a : Nat) (l : List Byte) (u : Nat) : Nat × List Byte :=
  let z := unitSize a
  if u ≤ a then (a, l.take (u + z - a)) else (u, (l.drop (u - a)).take z)

/-- One unit, or a part of one, is written: a whole unit is replaced and is good again; a part is
merged, which an uncorrectable unit refuses (R128, R135). -/
def State.writeUnit (s : State) (a : Nat) (l : List Byte) (source : Byte) : State × Bool :=
  let u := unitOf a
  if l.length = unitSize a then
    let s1 := ((s.setCells a l).setBad u false).setFlips u []
    (if u < sliceBase then { s1 with lineKeys := tabSet (fun _ => 0) s1.lineKeys u (s.lineKeyNow u) } else s1, true)
  else if s.unitBad u then (s.reportUe u source, false)
  else if u < sliceBase then
    let s1 := (((s.fixUnit u).settle u).setCells a l).countRmw (lineStacks u).1
    ({ s1 with lineKeys := tabSet (fun _ => 0) s1.lineKeys u (s.lineKeyNow u) }, true)
  else ((s.fixUnit u).setCells a l, true)

/-- Units are written in order up to the first that fails. -/
def State.writeUnits (s : State) (a : Nat) (l : List Byte) (source : Byte) : List Nat → State × Bool
  | [] => (s, true)
  | u :: us =>
    let (x, p) := unitPart a l u
    match s.writeUnit x p source with
    | (s1, true) => State.writeUnits s1 a l source us
    | (s1, false) => (s1, false)

/-- A range is written; false where a part failed, the units before it being written. -/
def State.writeRange (s : State) (a : Nat) (l : List Byte) (source : Byte) : State × Bool :=
  let (s1, ok) := s.writeUnits a l source (unitsOf a l.length)
  (s1.markDirty a l.length, ok)

/-- Every byte stored in `[lo, hi)`, and what is recorded of it, is gone: slices are zeroed at bring-up
(R126), memory loses its contents with its power. -/
def State.clearRange (s : State) (lo hi : Nat) : State :=
  { s with mem := s.mem.filter (fun p => !decide (lo ≤ p.1 ∧ p.1 < hi)),
           bad := s.bad.filter (fun p => !decide (lo ≤ p.1 ∧ p.1 < hi)),
           upsets := s.upsets.filter (fun p => !decide (lo ≤ p.1 ∧ p.1 < hi)),
           lineKeys := s.lineKeys.filter (fun p => !decide (lo ≤ p.1 ∧ p.1 < hi)) }

/-! ### Reach (R138, R141, R146, R150) -/

/-- The memory die of a band answers: powered, out of self-refresh, and not in P3 (R131). -/
def State.mdOpen (s : State) (b : Nat) : Bool :=
  s.pwr.memory && !(s.md (b / 20)).selfRefresh && decide (s.pwr.mode ≠ 3)

/-- Partition `p` reaches the byte at `a` with its transfers. -/
def State.reachByte (s : State) (p a : Nat) : Bool :=
  match placeOf a with
  | .band b => decide ((s.band b).owner.toNat = p) && !(s.band b).busy && s.mdOpen b
  | .ext b => decide ((s.band b).owner.toNat = p) && !(s.band b).busy && (s.band b).protOff && s.mdOpen b
  | .slice t => decide (partOfTile t = p) && s.islandOn p
  | _ => false

/-- Every byte of a range is reached: no region is shorter than 4 MiB, so its ends and a byte in every
4 MiB tell. -/
def reachAll (f : Nat → Bool) (a n : Nat) : Bool :=
  decide (n = 0) || ((List.range (n / sliceSize + 1)).all (fun i => f (min (a + i * sliceSize) (a + n - 1)))
    && f (a + n - 1))

/-- Partition `p` reaches every byte of a range. -/
def State.reach (s : State) (p a n : Nat) : Bool := reachAll (s.reachByte p) a n

/-- BAR2 reaches the byte at `a` (R149, R150). -/
def State.bar2Byte (s : State) (a : Nat) : Bool :=
  match placeOf a with
  | .band b => decide ((s.band b).owner.toNat < 8) && s.gate.bar2Mask.getLsbD (s.band b).owner.toNat
      && !(s.band b).busy && s.mdOpen b
  | .ext b => decide ((s.band b).owner.toNat < 8) && s.gate.bar2Mask.getLsbD (s.band b).owner.toNat
      && (s.band b).protOff && !(s.band b).busy && s.mdOpen b
  | .slice t => s.gate.bar2Slices && s.gate.bar2Mask.getLsbD (partOfTile t) && s.islandOn (partOfTile t)
      && decide (s.pwr.mode ≠ 3)
  | _ => false

end Sys2Proof.Machine
end

