-- ==== Sys2Proof/Machine/Operands.lean ====
section
/-! DEFINITION. Stage instructions (04): the fields of a word, which words are legal, the registers of a
context, and the frame in which every stage instruction issues: fetch, legality, guard, effect, loops. -/

namespace Sys2Proof.Machine

/-! ### Fields (Tables 4-1 and 4-2) -/

/-- The word of major opcode `major`, function `fn` and the operand bits of `o` (R77). -/
def wordOf (major fn : Nat) (o : Op) : Word :=
  BitVec.ofNat 6 major ++ o.guard ++ BitVec.ofNat 6 fn ++ o.body

def wMajor (w : Word) : Nat := w.toNat / 2 ^ 58
def wFn (w : Word) : Nat := w.toNat / 2 ^ 47 % 64
def wGuard (w : Word) : BitVec 5 := w.extractLsb' 53 5
def wBody (w : Word) : BitVec 47 := w.extractLsb' 0 47

/-- The fields of the operand bits: d, a, b, c, x of format R and imm of format I. -/
def fD (b : BitVec 47) : Nat := b.toNat / 2 ^ 41 % 64
def fA (b : BitVec 47) : Nat := b.toNat / 2 ^ 35 % 64
def fB (b : BitVec 47) : Nat := b.toNat / 2 ^ 29 % 64
def fC (b : BitVec 47) : Nat := b.toNat / 2 ^ 23 % 64
def fX (b : BitVec 47) : Nat := b.toNat % 2 ^ 23
def fImm (b : BitVec 47) : Nat := b.toNat % 2 ^ 35
/-- Bits `[lo + n − 1 : lo]` of a number. -/
def bitsAt (x lo n : Nat) : Nat := x / 2 ^ lo % 2 ^ n
/-- The immediate sign-extended (R77). -/
def immS (b : BitVec 47) : Word := (b.setWidth 35).signExtend 64

/-- The level of a loop function, its length, and the count of LOOPI. -/
def loopLvl (b : BitVec 47) : Nat := bitsAt (fImm b) 12 2
def loopLen (b : BitVec 47) : Nat := bitsAt (fImm b) 0 12
def loopCount (b : BitVec 47) : Nat := bitsAt (fImm b) 14 20

/-- The VEC modifier fields (Table 4-6). -/
def xT (x : Nat) : Nat := bitsAt x 0 4
def xRnd (x : Nat) : Nat := bitsAt x 4 2
def xOp (x : Nat) : Nat := bitsAt x 6 3
def xT2 (x : Nat) : Nat := bitsAt x 9 4
def xPart (x : Nat) : Nat := bitsAt x 13 3
def xH (x : Nat) : Nat := bitsAt x 16 2
def xLane (x : Nat) : Nat := bitsAt x 13 8

/-! ### Lane types (Table 4-7) -/

def typeOk (t : Nat) : Bool := [0, 1, 2, 4, 5, 6, 8, 9, 10].contains t
def typeInt (t : Nat) : Bool := [0, 1, 2, 4, 5, 6].contains t
def typeFloat (t : Nat) : Bool := [8, 9, 10].contains t
def typeSigned (t : Nat) : Bool := decide (t ≤ 2)
/-- Lane width in bits. -/
def typeWidth (t : Nat) : Nat := if t = 0 ∨ t = 4 then 8 else if t = 1 ∨ t = 5 ∨ t = 8 ∨ t = 9 then 16 else 32
/-- Lanes of a vector register. -/
def typeLanes (t : Nat) : Nat := 2048 / typeWidth t

/-! ### Legality (R78) -/

/-- Parts that a conversion between two widths may name (R88). -/
def cvtParts (t t2 : Nat) : Nat := max (typeWidth t) (typeWidth t2) / min (typeWidth t) (typeWidth t2)

def legalCtl (fn : Nat) (b : BitVec 47) : Bool :=
  let imm := fImm b
  match fn with
  | 0x00 => decide (b = 0)
  | 0x01 => decide (fD b = 0 ∧ fA b = 0)
  | 0x02 => decide (fD b < 32 ∧ fA b = 0)
  | 0x03 => decide (fD b = 0 ∧ fA b < 32 ∧ imm = 0)
  | 0x04 => decide (fD b = 0 ∧ fA b < 32 ∧ 1 ≤ loopLen b ∧ imm < 2 ^ 14)
  | 0x05 => decide (fD b = 0 ∧ fA b = 0 ∧ 1 ≤ loopLen b ∧ imm < 2 ^ 34)
  | 0x06 => decide (fD b = 0 ∧ fA b = 0 ∧ imm = loopLvl b * 2 ^ 12)
  | 0x07 => decide (fD b < 32 ∧ fA b = 0 ∧ imm = loopLvl b * 2 ^ 12)
  | 0x08 => decide (b = 0)
  | 0x09 => decide (b = 0)
  | _ => false

/-- Two register operands in format R with no modifier. -/
def noCX (b : BitVec 47) : Bool := decide (fC b = 0 ∧ fX b = 0)
def noBCX (b : BitVec 47) : Bool := decide (fB b = 0) && noCX b

def legalScaReg (fn : Nat) (b : BitVec 47) : Bool :=
  if fn ≤ 0x12 then decide (fD b < 32 ∧ fA b < 32 ∧ fB b < 32) && noCX b
  else match fn with
  | 0x15 => decide (fD b / 8 ≤ 5 ∧ fA b < 32 ∧ fB b < 32) && noCX b
  | 0x16 => decide (fD b < 8 ∧ fA b < 8 ∧ fB b < 8 ∧ fC b = 0 ∧ fX b < 4)
  | 0x17 => decide (fD b < 32 ∧ fA b = 0) && noBCX b
  | 0x18 => decide (fD b = 0 ∧ fA b < 32) && noBCX b
  | 0x19 => decide (fD b < 16 ∧ fA b < 32) && noBCX b
  | 0x1A => decide (fD b < 32 ∧ fA b < 16) && noBCX b
  | 0x1B => decide (fD b < 16 ∧ fA b < 16 ∧ fB b < 32) && noCX b
  | _ => false

def legalScaImm (fn : Nat) (b : BitVec 47) : Bool :=
  if [0x00, 0x02, 0x09, 0x0A, 0x0B, 0x0C, 0x0D, 0x0E].contains fn then decide (fD b < 32 ∧ fA b < 32)
  else match fn with
  | 0x13 => decide (fD b < 32 ∧ fA b = 0)
  | 0x14 => decide (fD b < 32 ∧ fA b = 0 ∧ fImm b < 2 ^ 32)
  | 0x15 => decide (fD b / 8 ≤ 5 ∧ fA b < 32)
  | 0x1B => decide (fD b < 16 ∧ fA b < 16)
  | _ => false

/-- The modifier holds only t, and rnd where the function has it. -/
def onlyT (x : Nat) (rnd : Bool) : Bool := if rnd then decide (x < 64) else decide (x < 16)
/-- Only t, rnd and op. -/
def onlyTOp (x : Nat) : Bool := decide (x < 512)

def legalVec (fn : Nat) (b : BitVec 47) : Bool :=
  let x := fX b
  let t := xT x
  let noB := decide (fB b = 0)
  let noC := decide (fC b = 0)
  if fn ≤ 0x02 ∨ fn = 0x04 ∨ fn = 0x05 then noC && typeOk t && onlyT x true
  else if fn = 0x03 then typeFloat t && onlyT x true
  else if (0x06 ≤ fn ∧ fn ≤ 0x0A) ∨ fn = 0x13 then noC && typeInt t && onlyT x false
  else match fn with
  | 0x0B => noC && typeOk t && onlyTOp x && decide (xOp x ≤ 6) && (decide (xOp x ≠ 6) || typeFloat t)
  | 0x0C => typeOk t && onlyT x true
  | 0x0D => noB && noC && typeOk t && typeOk (xT2 x) && decide (xOp x = 0 ∧ x < 2 ^ 16)
      && decide (xPart x < cvtParts t (xT2 x))
  | 0x0E => noB && noC && decide (t = 10 ∧ xOp x = 0 ∧ xT2 x ≤ 6 ∧ x < 2 ^ 13)
  | 0x0F => noB && noC && typeOk t && onlyTOp x && decide (xOp x ≤ 2)
  | 0x10 => decide (fA b < 32) && noB && noC && typeOk t && onlyT x true
  | 0x11 => decide (fD b < 32) && noB && noC && typeOk t && decide (xOp x = 0 ∧ xT2 x = 0 ∧ x < 2 ^ 21)
      && decide (xLane x < typeLanes t)
  | 0x12 => decide (fA b < 32) && noB && noC && typeOk t && decide (xOp x = 0 ∧ xT2 x = 0 ∧ x < 2 ^ 21)
      && decide (xLane x < typeLanes t)
  | 0x14 => decide (fB b < 32) && noC && decide (t = 10 ∧ xOp x = 0 ∧ xT2 x ≤ 3 ∧ x < 2 ^ 18)
      && decide (xT2 x = 0 ∨ xPart x ≤ 3)
  | 0x15 => decide (fB b < 32) && noC && decide (t = 10 ∧ xOp x = 0 ∧ xT2 x ≤ 3 ∧ x < 2 ^ 18)
      && decide (xT2 x = 0 ∨ xPart x ≤ 3)
  | 0x16 => noBCX b
  | 0x17 => decide (fA b = 0) && noBCX b
  | 0x18 => noB && noC && typeOk t && onlyT x true
  | 0x19 => noB && noC && typeOk t && onlyT x true
  | _ => false

/-- The parts q of an activation format (Table 4-10). -/
def qRange (af : Nat) : Nat := if af = 0 ∨ af = 4 then 8 else if af ≤ 3 then 4 else 2

def legalMat (fn : Nat) (b : BitVec 47) : Bool :=
  let x := fX b
  let imm := fImm b
  match fn with
  | 0x00 => decide (fD b < 4 ∧ fA b < 16 ∧ bitsAt imm 23 3 ≤ 6 ∧ imm < 2 ^ 26)
  | 0x01 => decide (fD b < 4 ∧ fA b = 0) && noBCX b
  | 0x02 => decide (fD b < 4 ∧ fB b = 0 ∧ fC b = 0 ∧ x < 2)
  | 0x03 => decide (fA b < 4 ∧ fB b = 0 ∧ fC b = 0 ∧ x < 2 ^ 7 ∧ bitsAt x 0 2 ≤ 2)
      && decide (bitsAt x 0 2 ≠ 0 ∨ bitsAt x 2 2 ≤ 1)
  | 0x04 => decide (fD b < 4 ∧ fC b < 4 ∧ fB b < 32 ∧ x < 2 ^ 8 ∧ bitsAt x 0 3 ≤ 6)
      && decide (bitsAt x 3 3 < qRange (bitsAt x 0 3))
      && decide (bitsAt x 0 3 ≤ 4 ∨ (fB b = 0 ∧ bitsAt x 6 2 = 0))
  | 0x05 => decide (fD b < 4 ∧ fA b < 16 ∧ imm < 2 ^ 28 ∧ bitsAt imm 23 2 ≤ 2)
  | _ => false

def legalSto (fn : Nat) (b : BitVec 47) : Bool :=
  if fn ≤ 0x03 then decide (fA b < 16 ∧ fImm b < 2 ^ 23)
  else if fn = 0x04 then decide (fA b < 16 ∧ fC b = 0)
  else if fn = 0x05 ∨ fn = 0x06 then decide (fA b < 16) && noCX b
  else if (0x08 ≤ fn ∧ fn ≤ 0x0E) ∨ (0x10 ≤ fn ∧ fn ≤ 0x13) then
    decide (fD b < 32 ∧ fA b < 16 ∧ fImm b < 2 ^ 23)
  else false

/-- The fields of a transfer: tag, two address registers, a scalar. -/
def legalXfer (b : BitVec 47) : Bool := decide (fD b < 16 ∧ fA b < 16 ∧ fB b < 16 ∧ fC b < 32)

def legalMem (fn : Nat) (b : BitVec 47) : Bool :=
  match fn with
  | 0x00 => legalXfer b && decide (fX b = 0)
  | 0x01 => legalXfer b && decide (fX b = 0)
  | 0x02 => legalXfer b && decide (1 ≤ fX b ∧ fX b ≤ 4096)
  | 0x03 => legalXfer b && decide (1 ≤ fX b ∧ fX b ≤ 4096)
  | 0x04 => decide (fD b < 16 ∧ fA b = 0) && noBCX b
  | 0x05 => decide (fD b < 8 ∧ fA b < 16) && noBCX b
  | 0x06 => decide (fD b < 32 ∧ fA b < 16) && noBCX b
  | _ => false

def legalStr (fn : Nat) (b : BitVec 47) : Bool :=
  match fn with
  | 0x00 => decide (fD b < 8 ∧ fB b = 0 ∧ fC b = 0 ∧ fX b < 2)
  | 0x01 => decide (fA b < 8) && noBCX b
  | 0x02 => decide (fD b < 8 ∧ fA b < 8) && noBCX b
  | 0x03 => decide (fD b < 8 ∧ fA b < 8) && noBCX b
  | 0x04 => decide (fD b < 8 ∧ fA b < 8) && noBCX b
  | 0x05 => decide (fD b < 8 ∧ fA b < 8) && noBCX b
  | _ => false

def legalFab (fn : Nat) (b : BitVec 47) : Bool :=
  match fn with
  | 0x00 => legalXfer b && decide (fX b = 0)
  | 0x01 => legalXfer b && decide (fX b = 0)
  | 0x02 => legalXfer b && decide (bitsAt (fX b) 12 2 ≤ 2 ∧ fX b < 2 ^ 15)
  | 0x04 => decide (fD b < 16 ∧ fA b = 0) && noBCX b
  | 0x05 => decide (fD b < 8 ∧ fA b < 16) && noBCX b
  | 0x06 => decide (fD b < 32 ∧ fA b < 16) && noBCX b
  | _ => false

def legalHur (fn : Nat) (b : BitVec 47) : Bool :=
  if fn ≤ 0x02 then decide (fD b = 0 ∧ fA b = 0 ∧ fImm b < 2 ^ 12)
  else if fn = 0x03 then decide (fD b < 32 ∧ fA b = 0 ∧ fImm b < 2 ^ 12)
  else false

def legalSys (fn : Nat) (b : BitVec 47) : Bool :=
  let noD := decide (fD b = 0)
  match fn with
  | 0x02 => noD && decide (fA b = 0 ∧ fImm b < 32)
  | 0x03 => noD && decide (fA b = 0 ∧ fImm b ≤ 2)
  | 0x04 => noD && decide (fA b = 0 ∧ fImm b ≤ 1)
  | 0x05 => noD && decide (fA b < 32) && noBCX b
  | 0x07 => noD && decide (fA b < 32 ∧ fImm b < 2 ^ 16)
  | n => decide (n ≤ 0x0C ∧ fD b < 32 ∧ fA b = 0) && noBCX b

/-- The guard field: gn and gp are 0 when g is 0 (Table 4-1). -/
def legalGuard (g : BitVec 5) : Bool := g.getLsbD 4 || decide (g = 0)

/-- The word is legal (R78). -/
def legalWord (w : Word) : Bool :=
  let fn := wFn w
  let b := wBody w
  legalGuard (wGuard w) &&
    (match wMajor w with
      | 0x00 => legalCtl fn b
      | 0x08 => legalScaReg fn b
      | 0x09 => legalScaImm fn b
      | 0x10 => legalVec fn b
      | 0x20 => legalMat fn b
      | 0x28 => legalSto fn b
      | 0x2C => legalMem fn b
      | 0x30 => legalStr fn b
      | 0x34 => legalFab fn b
      | 0x38 => legalHur fn b
      | 0x3C => legalSys fn b
      | _ => false)

/-! ### Registers of a context (Table 3-1) -/

/-- s0 reads as zero and ignores writes. -/
def Ctx.getS (x : Ctx) (i : Nat) : Word := if i = 0 then 0 else tabGet (fun _ => (0 : Word)) x.s i
def Ctx.setS (x : Ctx) (i : Nat) (v : Word) : Ctx :=
  if i = 0 then x else { x with s := tabSet (fun _ => (0 : Word)) x.s i v }
def Ctx.getA (x : Ctx) (i : Nat) : BitVec 48 := tabGet (fun _ => (0 : BitVec 48)) x.a i
def Ctx.setA (x : Ctx) (i : Nat) (v : BitVec 48) : Ctx := { x with a := tabSet (fun _ => (0 : BitVec 48)) x.a i v }
def Ctx.getP (x : Ctx) (i : Nat) : Bool := x.p.getLsbD i
def Ctx.setP (x : Ctx) (i : Nat) (v : Bool) : Ctx :=
  { x with p := if v then x.p ||| ((1 : BitVec 8) <<< i) else x.p &&& ~~~ ((1 : BitVec 8) <<< i) }
def Ctx.getV (x : Ctx) (i : Nat) : Vec := tabGet (fun _ => (0 : Vec)) x.v i
def Ctx.setV (x : Ctx) (i : Nat) (v : Vec) : Ctx := { x with v := tabSet (fun _ => (0 : Vec)) x.v i v }
def Ctx.getW (x : Ctx) (i : Nat) : WBuf := tabGet (fun _ => {}) x.wb i
def Ctx.setW (x : Ctx) (i : Nat) (v : WBuf) : Ctx := { x with wb := tabSet (fun _ => {}) x.wb i v }
def Ctx.getAcc (x : Ctx) (i : Nat) : BitVec 1024 := tabGet (fun _ => (0 : BitVec 1024)) x.acc i
def Ctx.setAcc (x : Ctx) (i : Nat) (v : BitVec 1024) : Ctx :=
  { x with acc := tabSet (fun _ => (0 : BitVec 1024)) x.acc i v }
def Ctx.loop (x : Ctx) (l : Nat) : Loop := tabGet (fun _ => {}) x.loops l
def Ctx.setLoop (x : Ctx) (l : Nat) (v : Loop) : Ctx := { x with loops := tabSet (fun _ => {}) x.loops l v }
def Ctx.mem (x : Ctx) (t : Nat) : Tag := tabGet (fun _ => {}) x.mems t
def Ctx.setMem (x : Ctx) (t : Nat) (v : Tag) : Ctx := { x with mems := tabSet (fun _ => {}) x.mems t v }
def Ctx.fab (x : Ctx) (t : Nat) : Tag := tabGet (fun _ => {}) x.fabs t
def Ctx.setFab (x : Ctx) (t : Nat) (v : Tag) : Ctx := { x with fabs := tabSet (fun _ => {}) x.fabs t v }
def Ctx.outEp (x : Ctx) (e : Nat) : OutEp := tabGet (fun _ => {}) x.outs e
def Ctx.setOut (x : Ctx) (e : Nat) (v : OutEp) : Ctx := { x with outs := tabSet (fun _ => {}) x.outs e v }
def Ctx.inEp (x : Ctx) (e : Nat) : InEp := tabGet (fun _ => {}) x.ins e
def Ctx.setIn (x : Ctx) (e : Nat) (v : InEp) : Ctx := { x with ins := tabSet (fun _ => {}) x.ins e v }

/-- The guard is true (R80). -/
def Ctx.guardOk (x : Ctx) (g : BitVec 5) : Bool :=
  !g.getLsbD 4 || (x.getP (g.toNat % 8) != g.getLsbD 3)

/-! ### Loops (R84, R85) -/

/-- A word inside a level's body. -/
def Loop.holds (l : Loop) (pc : Nat) : Bool := l.active && decide (l.start.toNat ≤ pc ∧ pc ≤ l.last.toNat)

/-- The levels whose end is the word at `pc` are evaluated, the levels given in order; the first that
loops back decides the next word. -/
def loopEval (x : Ctx) (pc next : Nat) : List Nat → Ctx × Nat
  | [] => (x, next)
  | l :: ls =>
    let lp := x.loop l
    if lp.active && decide (lp.last.toNat = pc) then
      if 1 < lp.remaining.toNat then
        (x.setLoop l { lp with remaining := lp.remaining - 1, index := lp.index + 1 }, lp.start.toNat)
      else loopEval (x.setLoop l { lp with active := false }) pc next ls
    else loopEval x pc next ls

/-- After a word that is not a taken branch: levels 3 to 0 are evaluated, then the pc moves (R84). -/
def Ctx.advance (x : Ctx) (pc next : Nat) : Ctx :=
  let (x1, n) := loopEval x pc next [3, 2, 1, 0]
  { x1 with pc := BitVec.ofNat 15 n }

/-- After a taken branch: levels whose body does not hold the target are deactivated (R85). -/
def Ctx.branch (x : Ctx) (target : BitVec 15) : Ctx :=
  let x1 := [0, 1, 2, 3].foldl (fun (x : Ctx) l =>
    let lp := x.loop l
    if lp.active && !lp.holds target.toNat then x.setLoop l { lp with active := false } else x) x
  { x1 with pc := target }

/-! ### Issue -/

/-- The word at a place of a tile's instruction store. -/
def State.istoreWord (s : State) (t pc : Nat) : Word := tabGet (fun _ => (0 : Word)) s.istore (32768 * t + pc)

/-- What a stage instruction comes to, its guard being true. -/
inductive Fx where
  /-- it completes; the next word follows, or the loop's -/
  | done (s : State)
  /-- it completes and goes on at another word without being a taken branch (R83, R85) -/
  | skip (s : State) (pc : Nat)
  | taken (s : State) (pc : BitVec 15)
  | fault (s : State) (code : BitVec 4)
  | starve (s : State) (cause : BitVec 4)
  | yield (s : State)
  | halt (s : State)

/-- One instruction's beats are charged to its context: the spec leaves waiting beats open (log entry
4). -/
def State.charge (s : State) (t c : Nat) : State :=
  let n := stickAdd (s.ctx t c).beats (Config.freeBeats s.free).toNat
  ({ s with free := s.free + 1 }.updCtx t c fun x =>
    { x with beats := n, beatsOvf := x.beatsOvf || decide (n = stickMax 64) }).stuck
    (0x2000000 + 0x400000 * dieOfTile t + 0x100018 + 0x100 * (t % 240) + 0x20 * c) (s.ctx t c).beats n

/-- What an outcome makes of the context: completion, branch, fault, starvation, rotation, HALT (R50 to
R52, R73, R82 to R85). -/
def Fx.settle (fx : Fx) (t c pc : Nat) (w : Word) : State :=
  match fx with
  | .done s => s.updCtx t c fun x => x.advance pc (pc + 1)
  | .skip s n => s.updCtx t c fun x => x.advance pc n
  | .taken s n => s.updCtx t c fun x => x.branch n
  | .fault s code => s.faultCtx t c code (BitVec.ofNat 15 pc) w
  | .starve s cause => (s.updCtx t c fun x => { x with mode := .waiting, waitCause := cause }).dispatch t
  | .yield s => (s.updCtx t c fun x => { x.advance pc (pc + 1) with mode := .ready }).dispatch t
  | .halt s => (s.updCtx t c fun x => { x.advance pc (pc + 1) with mode := .done }).dispatch t

/-- A word with a false guard: only the pc moves, past the body for LOOP and LOOPI (R81). -/
def guardedNext (major fn pc : Nat) (b : BitVec 47) : Nat :=
  if major = 0 ∧ (fn = 4 ∨ fn = 5) then pc + loopLen b + 1 else pc + 1

/-- The owner of a tile's front end can issue: it is RUNNING, its island is up and beats (R24: no beats in P3), and its
pipeline answers. -/
def State.canIssue (s : State) (t : Nat) : Bool :=
  s.dieOn (dieOfTile t) && decide (t < 9600) && !(s.tile t).failed && decide (s.pwr.mode ≠ 3)
    && decide ((s.ctx t (s.tile t).owner).mode = .running)

/-- The pc lies in the context's region. -/
def Ctx.pcIn (x : Ctx) : Bool :=
  decide (x.istoreBase ≤ x.pc.toNat ∧ x.pc.toNat < x.istoreBase + x.istoreLen)

/-- One stage instruction issues on tile `t` (R43, R78, R80 to R85): the owner fetches its next word; a pc
outside the region or an illegal word is fault 1; a word other than the command's is another command's
event (log entry 1). -/
def stage (major fn t : Nat) (o : Op) (s : State) (f : State → Nat → Fx) : Res :=
  if !s.canIssue t then .next s
  else
    let c := (s.tile t).owner
    let x := s.ctx t c
    let pc := x.pc.toNat
    let w := s.istoreWord t pc
    if !x.pcIn || !legalWord w then .next (s.faultCtx t c 1 x.pc w)
    else if w ≠ wordOf major fn o then .next s
    else
      let s1 := s.charge t c
      if x.guardOk o.guard then .next ((f s1 c).settle t c pc w)
      else .next (s1.updCtx t c fun x => x.advance pc (guardedNext major fn pc o.body))

/-- A stage instruction that only changes registers of its context. -/
def stageReg (major fn t : Nat) (o : Op) (s : State) (f : State → Ctx → Ctx) : Res :=
  stage major fn t o s fun s c => .done (s.setCtx t c (f s (s.ctx t c)))

end Sys2Proof.Machine
end

