-- ==== Sys2Proof/Decode.lean ====
section
/-! DEFINITION. Words of commands. No row of spec/opcode_table.json gives bits, so a table word spells
no command. What the spec does encode is the 64-bit word of each stage instruction (R77, Tables 4-3 to
4-19): `stageWord` builds it and `stageOf` reads it. -/

namespace Sys2Proof

open Sys2Proof.Machine

/-- The command that a word spells by the table's bits: the table gives no row any bits (log entry 3). -/
def decodeTableWord (_nbits _w : Nat) : Option Instr := none

/-- Major opcode of a scalar form (Table 4-3). -/
def ScaForm.major (f : ScaForm) : Nat := match f with | .reg => 0x08 | .imm => 0x09

/-- The tile and the instruction word of a stage instruction; the other commands have no word. -/
def stageWord : Instr → Option (Nat × Word)
  | .ctlNop t o => some (t, wordOf 0x00 0x00 o)
  | .ctlBr t o => some (t, wordOf 0x00 0x01 o)
  | .ctlBl t o => some (t, wordOf 0x00 0x02 o)
  | .ctlJr t o => some (t, wordOf 0x00 0x03 o)
  | .ctlLoop t o => some (t, wordOf 0x00 0x04 o)
  | .ctlLoopi t o => some (t, wordOf 0x00 0x05 o)
  | .ctlBreak t o => some (t, wordOf 0x00 0x06 o)
  | .ctlLidx t o => some (t, wordOf 0x00 0x07 o)
  | .ctlYield t o => some (t, wordOf 0x00 0x08 o)
  | .ctlHalt t o => some (t, wordOf 0x00 0x09 o)
  | .scaAdd t f o => some (t, wordOf f.major 0x00 o)
  | .scaSub t f o => some (t, wordOf f.major 0x01 o)
  | .scaMul t f o => some (t, wordOf f.major 0x02 o)
  | .scaMulh t f o => some (t, wordOf f.major 0x03 o)
  | .scaMulhu t f o => some (t, wordOf f.major 0x04 o)
  | .scaDiv t f o => some (t, wordOf f.major 0x05 o)
  | .scaDivu t f o => some (t, wordOf f.major 0x06 o)
  | .scaRem t f o => some (t, wordOf f.major 0x07 o)
  | .scaRemu t f o => some (t, wordOf f.major 0x08 o)
  | .scaAnd t f o => some (t, wordOf f.major 0x09 o)
  | .scaOr t f o => some (t, wordOf f.major 0x0A o)
  | .scaXor t f o => some (t, wordOf f.major 0x0B o)
  | .scaShl t f o => some (t, wordOf f.major 0x0C o)
  | .scaShr t f o => some (t, wordOf f.major 0x0D o)
  | .scaSra t f o => some (t, wordOf f.major 0x0E o)
  | .scaMin t f o => some (t, wordOf f.major 0x0F o)
  | .scaMax t f o => some (t, wordOf f.major 0x10 o)
  | .scaMinu t f o => some (t, wordOf f.major 0x11 o)
  | .scaMaxu t f o => some (t, wordOf f.major 0x12 o)
  | .scaLi t f o => some (t, wordOf f.major 0x13 o)
  | .scaLih t f o => some (t, wordOf f.major 0x14 o)
  | .scaCmp t f o => some (t, wordOf f.major 0x15 o)
  | .scaPlog t f o => some (t, wordOf f.major 0x16 o)
  | .scaPget t f o => some (t, wordOf f.major 0x17 o)
  | .scaPset t f o => some (t, wordOf f.major 0x18 o)
  | .scaAmov t f o => some (t, wordOf f.major 0x19 o)
  | .scaAget t f o => some (t, wordOf f.major 0x1A o)
  | .scaAadd t f o => some (t, wordOf f.major 0x1B o)
  | .vecVadd t o => some (t, wordOf 0x10 0x00 o)
  | .vecVsub t o => some (t, wordOf 0x10 0x01 o)
  | .vecVmul t o => some (t, wordOf 0x10 0x02 o)
  | .vecVfma t o => some (t, wordOf 0x10 0x03 o)
  | .vecVmin t o => some (t, wordOf 0x10 0x04 o)
  | .vecVmax t o => some (t, wordOf 0x10 0x05 o)
  | .vecVand t o => some (t, wordOf 0x10 0x06 o)
  | .vecVor t o => some (t, wordOf 0x10 0x07 o)
  | .vecVxor t o => some (t, wordOf 0x10 0x08 o)
  | .vecVshl t o => some (t, wordOf 0x10 0x09 o)
  | .vecVshr t o => some (t, wordOf 0x10 0x0A o)
  | .vecVcmp t o => some (t, wordOf 0x10 0x0B o)
  | .vecVsel t o => some (t, wordOf 0x10 0x0C o)
  | .vecVcvt t o => some (t, wordOf 0x10 0x0D o)
  | .vecVfn t o => some (t, wordOf 0x10 0x0E o)
  | .vecVred t o => some (t, wordOf 0x10 0x0F o)
  | .vecVbcast t o => some (t, wordOf 0x10 0x10 o)
  | .vecVext t o => some (t, wordOf 0x10 0x11 o)
  | .vecVins t o => some (t, wordOf 0x10 0x12 o)
  | .vecVperm t o => some (t, wordOf 0x10 0x13 o)
  | .vecVmxq t o => some (t, wordOf 0x10 0x14 o)
  | .vecVmxd t o => some (t, wordOf 0x10 0x15 o)
  | .vecVmov t o => some (t, wordOf 0x10 0x16 o)
  | .vecVzero t o => some (t, wordOf 0x10 0x17 o)
  | .vecVneg t o => some (t, wordOf 0x10 0x18 o)
  | .vecVabs t o => some (t, wordOf 0x10 0x19 o)
  | .matLdw t o => some (t, wordOf 0x20 0x00 o)
  | .matZacc t o => some (t, wordOf 0x20 0x01 o)
  | .matAccw t o => some (t, wordOf 0x20 0x02 o)
  | .matAccr t o => some (t, wordOf 0x20 0x03 o)
  | .matMma t o => some (t, wordOf 0x20 0x04 o)
  | .matAccst t o => some (t, wordOf 0x20 0x05 o)
  | .stoLdv t o => some (t, wordOf 0x28 0x00 o)
  | .stoStv t o => some (t, wordOf 0x28 0x01 o)
  | .stoLdvi t o => some (t, wordOf 0x28 0x02 o)
  | .stoStvi t o => some (t, wordOf 0x28 0x03 o)
  | .stoStvm t o => some (t, wordOf 0x28 0x04 o)
  | .stoGath t o => some (t, wordOf 0x28 0x05 o)
  | .stoScat t o => some (t, wordOf 0x28 0x06 o)
  | .stoLd8 t o => some (t, wordOf 0x28 0x08 o)
  | .stoLd8u t o => some (t, wordOf 0x28 0x09 o)
  | .stoLd16 t o => some (t, wordOf 0x28 0x0A o)
  | .stoLd16u t o => some (t, wordOf 0x28 0x0B o)
  | .stoLd32 t o => some (t, wordOf 0x28 0x0C o)
  | .stoLd32u t o => some (t, wordOf 0x28 0x0D o)
  | .stoLd64 t o => some (t, wordOf 0x28 0x0E o)
  | .stoSt8 t o => some (t, wordOf 0x28 0x10 o)
  | .stoSt16 t o => some (t, wordOf 0x28 0x11 o)
  | .stoSt32 t o => some (t, wordOf 0x28 0x12 o)
  | .stoSt64 t o => some (t, wordOf 0x28 0x13 o)
  | .memGet t o => some (t, wordOf 0x2C 0x00 o)
  | .memPut t o => some (t, wordOf 0x2C 0x01 o)
  | .memGets t o => some (t, wordOf 0x2C 0x02 o)
  | .memPuts t o => some (t, wordOf 0x2C 0x03 o)
  | .memWait t o => some (t, wordOf 0x2C 0x04 o)
  | .memTest t o => some (t, wordOf 0x2C 0x05 o)
  | .memStat t o => some (t, wordOf 0x2C 0x06 o)
  | .strSend t o => some (t, wordOf 0x30 0x00 o)
  | .strRecv t o => some (t, wordOf 0x30 0x01 o)
  | .strFwd t o => some (t, wordOf 0x30 0x02 o)
  | .strEos t o => some (t, wordOf 0x30 0x03 o)
  | .strAvail t o => some (t, wordOf 0x30 0x04 o)
  | .strCred t o => some (t, wordOf 0x30 0x05 o)
  | .fabPut t o => some (t, wordOf 0x34 0x00 o)
  | .fabGet t o => some (t, wordOf 0x34 0x01 o)
  | .fabRed t o => some (t, wordOf 0x34 0x02 o)
  | .fabWait t o => some (t, wordOf 0x34 0x04 o)
  | .fabTest t o => some (t, wordOf 0x34 0x05 o)
  | .fabStat t o => some (t, wordOf 0x34 0x06 o)
  | .hurArrive t o => some (t, wordOf 0x38 0x00 o)
  | .hurWait t o => some (t, wordOf 0x38 0x01 o)
  | .hurSync t o => some (t, wordOf 0x38 0x02 o)
  | .hurGen t o => some (t, wordOf 0x38 0x03 o)
  | .sysRow t o => some (t, wordOf 0x3C 0x00 o)
  | .sysGetflags t o => some (t, wordOf 0x3C 0x01 o)
  | .sysClrflags t o => some (t, wordOf 0x3C 0x02 o)
  | .sysSetrm t o => some (t, wordOf 0x3C 0x03 o)
  | .sysSetftz t o => some (t, wordOf 0x3C 0x04 o)
  | .sysSeed t o => some (t, wordOf 0x3C 0x05 o)
  | .sysGetseed t o => some (t, wordOf 0x3C 0x06 o)
  | .sysEvent t o => some (t, wordOf 0x3C 0x07 o)
  | .sysTile t o => some (t, wordOf 0x3C 0x08 o)
  | .sysJob t o => some (t, wordOf 0x3C 0x09 o)
  | .sysTime t o => some (t, wordOf 0x3C 0x0A o)
  | .sysBeats t o => some (t, wordOf 0x3C 0x0B o)
  | .sysGetrm t o => some (t, wordOf 0x3C 0x0C o)
  | _ => none

/-- Function codes of major opcode 0x00. -/
def stageOfCtl (t : Nat) (o : Op) : Nat → Option Instr
  | 0x00 => some (.ctlNop t o)
  | 0x01 => some (.ctlBr t o)
  | 0x02 => some (.ctlBl t o)
  | 0x03 => some (.ctlJr t o)
  | 0x04 => some (.ctlLoop t o)
  | 0x05 => some (.ctlLoopi t o)
  | 0x06 => some (.ctlBreak t o)
  | 0x07 => some (.ctlLidx t o)
  | 0x08 => some (.ctlYield t o)
  | 0x09 => some (.ctlHalt t o)
  | _ => none

/-- Function codes of major opcode 0x08 and 0x09. -/
def stageOfSca (t : Nat) (f : ScaForm) (o : Op) : Nat → Option Instr
  | 0x00 => some (.scaAdd t f o)
  | 0x01 => some (.scaSub t f o)
  | 0x02 => some (.scaMul t f o)
  | 0x03 => some (.scaMulh t f o)
  | 0x04 => some (.scaMulhu t f o)
  | 0x05 => some (.scaDiv t f o)
  | 0x06 => some (.scaDivu t f o)
  | 0x07 => some (.scaRem t f o)
  | 0x08 => some (.scaRemu t f o)
  | 0x09 => some (.scaAnd t f o)
  | 0x0A => some (.scaOr t f o)
  | 0x0B => some (.scaXor t f o)
  | 0x0C => some (.scaShl t f o)
  | 0x0D => some (.scaShr t f o)
  | 0x0E => some (.scaSra t f o)
  | 0x0F => some (.scaMin t f o)
  | 0x10 => some (.scaMax t f o)
  | 0x11 => some (.scaMinu t f o)
  | 0x12 => some (.scaMaxu t f o)
  | 0x13 => some (.scaLi t f o)
  | 0x14 => some (.scaLih t f o)
  | 0x15 => some (.scaCmp t f o)
  | 0x16 => some (.scaPlog t f o)
  | 0x17 => some (.scaPget t f o)
  | 0x18 => some (.scaPset t f o)
  | 0x19 => some (.scaAmov t f o)
  | 0x1A => some (.scaAget t f o)
  | 0x1B => some (.scaAadd t f o)
  | _ => none

/-- Function codes of major opcode 0x10. -/
def stageOfVec (t : Nat) (o : Op) : Nat → Option Instr
  | 0x00 => some (.vecVadd t o)
  | 0x01 => some (.vecVsub t o)
  | 0x02 => some (.vecVmul t o)
  | 0x03 => some (.vecVfma t o)
  | 0x04 => some (.vecVmin t o)
  | 0x05 => some (.vecVmax t o)
  | 0x06 => some (.vecVand t o)
  | 0x07 => some (.vecVor t o)
  | 0x08 => some (.vecVxor t o)
  | 0x09 => some (.vecVshl t o)
  | 0x0A => some (.vecVshr t o)
  | 0x0B => some (.vecVcmp t o)
  | 0x0C => some (.vecVsel t o)
  | 0x0D => some (.vecVcvt t o)
  | 0x0E => some (.vecVfn t o)
  | 0x0F => some (.vecVred t o)
  | 0x10 => some (.vecVbcast t o)
  | 0x11 => some (.vecVext t o)
  | 0x12 => some (.vecVins t o)
  | 0x13 => some (.vecVperm t o)
  | 0x14 => some (.vecVmxq t o)
  | 0x15 => some (.vecVmxd t o)
  | 0x16 => some (.vecVmov t o)
  | 0x17 => some (.vecVzero t o)
  | 0x18 => some (.vecVneg t o)
  | 0x19 => some (.vecVabs t o)
  | _ => none

/-- Function codes of major opcode 0x20. -/
def stageOfMat (t : Nat) (o : Op) : Nat → Option Instr
  | 0x00 => some (.matLdw t o)
  | 0x01 => some (.matZacc t o)
  | 0x02 => some (.matAccw t o)
  | 0x03 => some (.matAccr t o)
  | 0x04 => some (.matMma t o)
  | 0x05 => some (.matAccst t o)
  | _ => none

/-- Function codes of major opcode 0x28. -/
def stageOfSto (t : Nat) (o : Op) : Nat → Option Instr
  | 0x00 => some (.stoLdv t o)
  | 0x01 => some (.stoStv t o)
  | 0x02 => some (.stoLdvi t o)
  | 0x03 => some (.stoStvi t o)
  | 0x04 => some (.stoStvm t o)
  | 0x05 => some (.stoGath t o)
  | 0x06 => some (.stoScat t o)
  | 0x08 => some (.stoLd8 t o)
  | 0x09 => some (.stoLd8u t o)
  | 0x0A => some (.stoLd16 t o)
  | 0x0B => some (.stoLd16u t o)
  | 0x0C => some (.stoLd32 t o)
  | 0x0D => some (.stoLd32u t o)
  | 0x0E => some (.stoLd64 t o)
  | 0x10 => some (.stoSt8 t o)
  | 0x11 => some (.stoSt16 t o)
  | 0x12 => some (.stoSt32 t o)
  | 0x13 => some (.stoSt64 t o)
  | _ => none

/-- Function codes of major opcode 0x2C. -/
def stageOfMem (t : Nat) (o : Op) : Nat → Option Instr
  | 0x00 => some (.memGet t o)
  | 0x01 => some (.memPut t o)
  | 0x02 => some (.memGets t o)
  | 0x03 => some (.memPuts t o)
  | 0x04 => some (.memWait t o)
  | 0x05 => some (.memTest t o)
  | 0x06 => some (.memStat t o)
  | _ => none

/-- Function codes of major opcode 0x30. -/
def stageOfStr (t : Nat) (o : Op) : Nat → Option Instr
  | 0x00 => some (.strSend t o)
  | 0x01 => some (.strRecv t o)
  | 0x02 => some (.strFwd t o)
  | 0x03 => some (.strEos t o)
  | 0x04 => some (.strAvail t o)
  | 0x05 => some (.strCred t o)
  | _ => none

/-- Function codes of major opcode 0x34. -/
def stageOfFab (t : Nat) (o : Op) : Nat → Option Instr
  | 0x00 => some (.fabPut t o)
  | 0x01 => some (.fabGet t o)
  | 0x02 => some (.fabRed t o)
  | 0x04 => some (.fabWait t o)
  | 0x05 => some (.fabTest t o)
  | 0x06 => some (.fabStat t o)
  | _ => none

/-- Function codes of major opcode 0x38. -/
def stageOfHur (t : Nat) (o : Op) : Nat → Option Instr
  | 0x00 => some (.hurArrive t o)
  | 0x01 => some (.hurWait t o)
  | 0x02 => some (.hurSync t o)
  | 0x03 => some (.hurGen t o)
  | _ => none

/-- Function codes of major opcode 0x3C. -/
def stageOfSys (t : Nat) (o : Op) : Nat → Option Instr
  | 0x00 => some (.sysRow t o)
  | 0x01 => some (.sysGetflags t o)
  | 0x02 => some (.sysClrflags t o)
  | 0x03 => some (.sysSetrm t o)
  | 0x04 => some (.sysSetftz t o)
  | 0x05 => some (.sysSeed t o)
  | 0x06 => some (.sysGetseed t o)
  | 0x07 => some (.sysEvent t o)
  | 0x08 => some (.sysTile t o)
  | 0x09 => some (.sysJob t o)
  | 0x0A => some (.sysTime t o)
  | 0x0B => some (.sysBeats t o)
  | 0x0C => some (.sysGetrm t o)
  | _ => none

/-- The stage instruction that a legal word spells for tile `t`; none for an illegal word (R78). -/
def stageOf (t : Nat) (w : Word) : Option Instr :=
  let o : Op := { guard := wGuard w, body := wBody w }
  if legalWord w then
    match wMajor w with
    | 0x00 => stageOfCtl t o (wFn w)
    | 0x08 => stageOfSca t .reg o (wFn w)
    | 0x09 => stageOfSca t .imm o (wFn w)
    | 0x10 => stageOfVec t o (wFn w)
    | 0x20 => stageOfMat t o (wFn w)
    | 0x28 => stageOfSto t o (wFn w)
    | 0x2C => stageOfMem t o (wFn w)
    | 0x30 => stageOfStr t o (wFn w)
    | 0x34 => stageOfFab t o (wFn w)
    | 0x38 => stageOfHur t o (wFn w)
    | 0x3C => stageOfSys t o (wFn w)
    | _ => none
  else none

end Sys2Proof
end

