-- ==== Sys2Proof/Machine/Router.lean ====
section
/-! DEFINITION. Packets of jobs and the checks of an arriving packet (07, R170, R180). -/

namespace Sys2Proof.Machine

/-- The det bit of a job's packets (R180). -/
def State.jobDet (s : State) (j : BitVec 16) : Bool :=
  match s.slotOfJob j with
  | some i => !(s.job i).adaptive
  | none => true

/-! ### Arrival (R170) -/

/-- Why an arriving packet is dropped: the reasons in order; `part` is the partition it is for. -/
def State.rxDrop (s : State) (fd : Nat) (p : Packet) (part : Option Nat) : Option Nat :=
  if vcOfKind p.kind ≠ some p.vc then some dMalformed
  else if ageLimit < p.age.toNat then some dAge
  else if s.coordFenced fd p then some dFenced
  else if (part.map (fun q => !s.islandOn q)).getD false then some dPartDown
  else if p.jobId = 0 then none
  else match s.slotOfJob p.jobId with
    | none => some dNoJob
    | some j => if (s.job j).jobGen = p.jobGen then none else some dStale

/-- A packet of a kind arrives for this module at die `fd`. -/
def rxPacket (kind : Byte) (fd : Nat) (p : Packet) (part : Option Nat) (s : State) (f : State → State) : Res :=
  if !(s.pwr.transit && decide (fd < 2 ∧ p.kind = kind) && s.forUs fd p) then .next s
  else match s.rxDrop fd p part with
    | some r => .next (s.dropPacket fd r p)
    | none => .next (f s)

end Sys2Proof.Machine
end

