-- ==== Sys2Proof/Machine/Lanes.lean ====
section
/-! DEFINITION. Lanes and links: which link a lane serves, how a lane leaves and joins its link, and what a
link does when it comes up or goes down (07, R156 to R159, R163, R164; 08, R205). -/

namespace Sys2Proof.Machine

/-! ### Numbering (R156, R158, R194) -/

/-- Division of port `p` of die `fd`: 0 1 × 16, 1 2 × 8, 2 4 × 4. -/
def State.division (s : State) (fd p : Nat) : Nat := (tabGet (fun _ => (0 : BitVec 2)) (s.fab fd).ports p).toNat

/-- Lanes of sub-link `sub` of a port divided `d`. -/
def subLanes (d sub : Nat) : List Nat :=
  match d with
  | 0 => if sub = 0 then List.range 16 else []
  | 1 => if sub < 2 then (List.range 8).map (8 * sub + ·) else []
  | _ => if sub < 4 then (List.range 4).map (4 * sub + ·) else []

/-- The electrical link that lane `i` (0-191) of a die belongs to. -/
def State.linkOfLane (s : State) (fd i : Nat) : Nat :=
  let w := match s.division fd (i / 16) with | 0 => 16 | 1 => 8 | _ => 4
  4 * (i / 16) + (i % 16) / w

/-- Strand of lane `j` of skein `q`, its fabric die, and its own link context. -/
def strandOf (q j : Nat) : Nat := (4 * q + j) % 128
def fdOfSkein (q : Nat) : Nat := q / 32

/-- The optical link of a die that strand `i` is striped on. -/
def State.linkOfStrand (s : State) (fd i : Nat) : Option Nat :=
  ((s.links.find? (fun e => decide (e.1 / 176 = fd ∧ 48 ≤ e.1 % 176) && e.2.lanes.contains i && !e.2.member)).map
    (·.1 % 176))

/-! ### Replay and coming up -/

/-- The flits of the replay buffer leave again in their order (R161). -/
def State.resend (s : State) (fd k : Nat) : State :=
  let l := s.link fd k
  if l.retrainTx || l.lanes.isEmpty then s
  else l.replay.foldl (fun (s : State) f => s.sendFlit fd k ftData f.seq (some f.data)) s

/-- A link with lanes in service comes up: draining for a reset or a bind-off lasts on (R190), its flits are
replayed and what is queued goes on (R163, R218). -/
def State.linkUp (s : State) (fd k : Nat) : State :=
  let s := s.updLink fd k fun l => { l with
    state := if l.drainReason = 1 ∨ l.drainReason = 2 then 4 else 2,
    drainReason := if l.drainReason = 3 then 0 else l.drainReason,
    retrainTx := false, retrainRx := false, downSince := none, silent := false, ackProgress := s.tb,
    lastCtlTx := s.tb, lastCtlRx := s.tb }
  (s.resend fd k).pump fd k

/-! ### The number of a bundle (R158) -/

/-- The number that a link has by its lanes: of an optical one, that of its lowest strand. -/
def Link.home (k : Nat) (l : Link) : Nat :=
  match l.lanes with
  | i :: _ => if 48 ≤ k then 48 + i else k
  | [] => k

/-- A bundle whose lowest strand has left takes the number of the one that is lowest now. -/
def State.renumber (s : State) (fd k : Nat) : State :=
  let l := s.link fd k
  if l.home k = k then s else (s.setLink fd k {}).setLink fd (l.home k) l

/-- A strand that leaves a bundle of another number is no member any more. -/
def State.freeMember (s : State) (fd k i : Nat) : State := if 48 + i = k then s else s.setLink fd (48 + i) {}

/-! ### A lane leaves (R159) -/

/-- The link loses a lane and restripes, or goes down with its last. -/
def State.dropLane (s : State) (fd k lane : Nat) : State :=
  let s := s.updLink fd k fun l =>
    let lanes := l.lanes.filter (fun x => decide (x ≠ lane))
    if lanes.isEmpty ∧ (l.state = 2 ∨ l.state = 3 ∨ l.state = 4) then
      { l with lanes := lanes, state := 7, downSince := some s.tb }
    else { l with lanes := lanes }
  (s.renumber fd k).resend fd ((s.link fd k).home k)

/-- What a removal in service leaves behind: a Tally event and the link-margin input. -/
def State.noteRemoval (s : State) (fd lane : Nat) : State :=
  { s with shep := { s.shep with lanesRemoved := s.shep.lanesRemoved + 1 } }.raise (.laneRemoved fd lane) 3

/-- An electrical lane (0-191) leaves service. -/
def State.removeElec (s : State) (fd i : Nat) : State :=
  let k := s.linkOfLane fd i
  let s := s.updFab fd fun f =>
    let v := tabGet (fun _ => (0 : BitVec 16)) f.lanesUp (i / 16)
    { f with lanesUp := tabSet (fun _ => (0 : BitVec 16)) f.lanesUp (i / 16) (v &&& ~~~((1 : BitVec 16) <<< (i % 16))) }
  (s.dropLane fd k (i % 16)).noteRemoval fd i

/-- A strand leaves its bundle; nothing where it is in none. -/
def State.removeStrand (s : State) (fd i : Nat) : State :=
  match s.linkOfStrand fd i with
  | none => s
  | some k =>
    ((s.freeMember fd k i).dropLane fd k i).noteRemoval fd (192 + i)

/-! ### Optical lanes (R205) -/

/-- The lane leaves service: its strand leaves the link, and OPTn.LANE.state says why. -/
def State.laneOut (s : State) (q j : Nat) (why : BitVec 4) : State :=
  let was := (s.olane q j).state
  let s := s.updOlane q j fun o => { o with state := why, txOk := false, rxOk := false, heard := none }
  if was = 5 then s.removeStrand (fdOfSkein q) (strandOf q j) else s

/-- Any lane of the skein in service (OPTn.ENGINE_STATUS). -/
def State.skeinServes (s : State) (q : Nat) : Bool :=
  (List.range 4).any (fun j => decide ((s.olane q j).state = 5))

end Sys2Proof.Machine
end

