-- ==== Sys2Proof/Machine/Fence.lean ====
section
/-! DEFINITION. The alive-counter rule, fences, draining and failed links: what chapters 7, 10 and 11 share
(07, R163, R186, R188 to R190; 14, R378). -/

namespace Sys2Proof.Machine

/-! ### Alive counters (R378) -/

/-- How a message is judged by its alive counter. -/
inductive Heard where
  | again
  | jump
  | accepted (lost : Nat)
  deriving DecidableEq, Repr

/-- The rule: `n` against the counter last accepted and the candidate. -/
def Alive.hear (a : Alive) (n : Byte) : Alive × Heard :=
  match a.last with
  | none => ({ last := some n, cand := none }, .accepted 0)
  | some l =>
    let d := (n - l).toNat
    if d = 0 then (a, .again)
    else if d ≤ 3 then ({ last := some n, cand := none }, .accepted (d - 1))
    else match a.cand with
      | none => ({ a with cand := some n }, .jump)
      | some c =>
        let e := (n - c).toNat
        if e = 0 then (a, .again)
        else if e ≤ 3 then ({ last := some n, cand := none }, .accepted ((c - l - 1).toNat + e - 1))
        else ({ a with cand := some n }, .jump)

/-! ### Fences (R188, R189) -/

/-- The coordinate fence on both dies. -/
def State.fenceCoord (s : State) (c : Coord) (on : Bool) : State :=
  if s.pwr.transit then
    [0, 1].foldl (fun (s : State) fd => s.updFab fd fun f => { f with fence := tabSet (fun _ => false) f.fence c.toNat on }) s
  else s

/-- Draining ends: the link goes back to route choices, and what is queued on it goes on (R190). -/
def State.endDrain (s : State) (fd k : Nat) : State :=
  (s.updLink fd k fun l => { l with state := if l.state = 4 then 2 else l.state, drainReason := 0 }).pump fd k

/-- Draining of every link to a coordinate ends at its fence, under any reason (R190). -/
def State.endDrains (s : State) (c : Coord) : State :=
  (s.linksTo c).foldl (fun (s : State) key => s.endDrain (key / 176) (key % 176)) s

/-- The fence bit of a link. -/
def State.fenceLink (s : State) (fd k : Nat) (on : Bool) : State := s.updLink fd k fun l => { l with fenced := on }

/-- The fences that a PEN sets: the coordinate on both dies, and every link to it; draining of its links ends
(R189, R190, R268). -/
def State.fenceModule (s : State) (c : Coord) : State :=
  ((s.linksTo c).foldl (fun (s : State) key => s.updLink (key / 176) (key % 176) fun l => { l with fenced := true, penFence := true })
    (s.fenceCoord c true)).endDrains c

/-- The hold of Table 7-6 on a penned coordinate. -/
def coordHold : Nat := 400000
def State.penTime (s : State) (c : Coord) : Option Word := (s.shep.penHold.find? (fun e => decide (e.1 = c.toNat))).map (·.2)
/-- The hold still runs. -/
def State.coordHeld (s : State) (c : Coord) : Bool :=
  match s.penTime c with
  | some t => !s.passed t coordHold
  | none => false

/-- A coordinate fence is lifted; the admission that waited for it is over (R189, R284). -/
def State.liftCoord (s : State) (c : Coord) : State :=
  let s := s.fenceCoord c false
  { s with shep := { s.shep with
      penHold := s.shep.penHold.filter (fun e => decide (e.1 ≠ c.toNat)),
      admits := s.shep.admits.filter (fun a => decide (a.coord ≠ c)) } }

/-! ### A link that has failed (R163) -/

/-- A queued packet as it was before it was put on the queue of link `k`. -/
def unqueue (k : Nat) (p : Packet) : Packet :=
  { p with hopLimit := p.hopLimit + 1, phase := if 48 ≤ k ∧ p.phase ≠ 0 then p.phase - 1 else p.phase }

/-- A link is given up: the replay buffer is discarded and each packet with a flit in it is a drop with reason LINK;
packets not begun are routed again. -/
def State.discardLink (s : State) (fd k : Nat) : State :=
  let l := s.link fd k
  let lost := l.replay.filterMap (·.packet) ++ (l.txq.filter (·.started)).map (·.packet)
  let wait := (l.txq.filter (fun x => !x.started)).map (fun x => unqueue k x.packet)
  let s1 := s.setLink fd k { l with
    state := 5, replay := [], txq := [], held := [], partials := [], retrainTx := false, retrainRx := false }
  wait.foldl (fun (s : State) p => s.forward fd p) (lost.foldl (fun (s : State) p => s.dropPacket fd dLink p) s1)

/-- The link fails: it is given up; a Tally event, and the link-margin input falls to worst. -/
def State.failLink (s : State) (fd k : Nat) : State :=
  ({ s with shep := { s.shep with marginWorst := some s.tb } } : State).discardLink fd k |>.raise (.linkFailed fd k) 3

/-! ### A strand joins (R157, R158) -/

/-- `x` put into a rising list. -/
def insertLane (x : Nat) : List Nat → List Nat
  | [] => [x]
  | y :: ys => if x < y then x :: y :: ys else if x = y then y :: ys else y :: insertLane x ys

/-- The bundle of a die that a strand to `c` joins: it has the partner, and fewer than 16 strands. -/
def State.bundleFor (s : State) (fd : Nat) (c : Coord) : Option Nat :=
  ((s.links.find? (fun e => decide (e.1 / 176 = fd ∧ 48 ≤ e.1 % 176 ∧ e.2.partner = c ∧ e.2.lanes.length < 16)
      && !e.2.member && (decide (e.2.state = 2 ∨ e.2.state = 3 ∨ e.2.state = 4)
        || (decide (e.2.state = 7) && e.2.lanes.isEmpty)))).map (·.1 % 176))

/-- The context of a strand's own number as the strand finds it: what stands there for another partner is given up,
and its fence goes with that partner. -/
def State.clearOwn (s : State) (fd k : Nat) (c : Coord) : State :=
  let l := s.link fd k
  if l.member || decide (l.partner = c) then s
  else (s.discardLink fd k).setLink fd k { fenced := (s.fab fd).fenced c }

/-- A strand whose identity check has passed is bundled with the strands that reach the same module; the
bundle takes the number of its lowest strand. -/
def State.joinStrand (s : State) (fd i : Nat) (c : Coord) (digest : Word) (rev : Byte) : State :=
  let own := 48 + i
  let s := s.clearOwn fd own c
  match s.bundleFor fd c with
  | none =>
    (s.setLink fd own { (s.link fd own) with
      lanes := [i], member := false, partner := c, partnerDigest := digest, partnerRev := rev,
      state := if (s.link fd own).state = 2 ∨ (s.link fd own).state = 4 then (s.link fd own).state else 3 }).linkUp fd own
  | some k =>
    let was := s.link fd k
    let l := { was with lanes := insertLane i was.lanes }
    let home := l.home k
    let part : Link := { member := true, fenced := l.fenced, penFence := l.penFence }
    let s1 := if home = k then s.setLink fd k l
      else (s.setLink fd k (if was.lanes.isEmpty then {} else part)).setLink fd home l
    (if own = home then s1 else s1.setLink fd own part).linkUp fd home

end Sys2Proof.Machine
end

