-- ==== Sys2Proof/Machine/Security.lean ====
section
/-! DEFINITION. Firmware, identity and trust (13): slots, trial, measurements, signing, owner, control
messages, distribution, SPDM and IDE. -/

namespace Sys2Proof.Machine

/-! ### Digests and the measurement log -/

/-- The bytes of a digest. -/
def digBytes (d : BitVec 256) : List Byte := leBytes 32 d.toNat

/-- M[i] (R349). -/
def State.meas (s : State) (i : Nat) : BitVec 256 := tabGet (fun _ => (0 : BitVec 256)) s.sec.meas i

/-- A log entry is appended while the log holds fewer than 4 096 (R350). -/
def State.logEntry (s : State) (i : Nat) (type : Byte) (comp : BitVec 16) (d : BitVec 256)
    (info : BitVec 96) : State :=
  if s.sec.entries < 4096 then
    let e : LogEntry := { index := BitVec.ofNat 8 i, type := type, comp := comp,
                          number := BitVec.ofNat 32 s.sec.entries, tb := s.tb, digest := d, info := info }
    { s with sec := { s.sec with log := s.sec.log ++ [e], entries := s.sec.entries + 1 } }
  else { s with sec := { s.sec with truncated := true } }

/-- M[i] ← SHAKE256(M[i] ‖ d), with one log entry (R349). Event type 1 is an extension and 2 is RESET:
the spec gives no codes (log entry 14). -/
def State.measure (s : State) (i : Nat) (d : BitVec 256) (comp : BitVec 16 := 0)
    (info : BitVec 96 := 0) : State :=
  let m := shake256 (digBytes (s.meas i) ++ digBytes d)
  { s with sec := { s.sec with meas := tabSet (fun _ => (0 : BitVec 256)) s.sec.meas i m } }.logEntry
    i 1 comp d info

/-- A partition reset zeroes M[16 + p] and logs RESET (Table 13-4, R350). -/
def State.measReset (s : State) (p : Nat) : State :=
  { s with sec := { s.sec with
      meas := tabSet (fun _ => (0 : BitVec 256)) s.sec.meas (16 + p) 0 } }.logEntry
    (16 + p) 2 (BitVec.ofNat 16 p) 0 0

/-! ### Slots -/

def State.slotOf (s : State) (i : Nat) : Slot := tabGet (fun _ => {}) s.flash.slots i
def State.setSlot (s : State) (i : Nat) (v : Slot) : State :=
  { s with flash := { s.flash with slots := tabSet (fun _ => {}) s.flash.slots i v } }

/-- Table 13-2. -/
abbrev SlotSt := BitVec 3
def slotEmpty : SlotSt := 0
def slotWriting : SlotSt := 1
def slotStaged : SlotSt := 2
def slotTrial : SlotSt := 3
def slotActive : SlotSt := 4
def slotStandby : SlotSt := 5
def slotFrogged : SlotSt := 6
def slotRefused : SlotSt := 7

/-! #### Images as bytes (R331, R332) -/

/-- Bytes of the signature after an image. -/
def sigLen : Nat := 2820
/-- Bytes of a slot; a byte that is not written reads as erased flash does. -/
def slotRead (x : Slot) (off n : Nat) : List Byte := (List.range n).map (fun i => tabGet (fun _ => (0xFF : Byte)) x.bytes (off + i))
/-- The component directory of a header. -/
def slotDir (x : Slot) : List (List Byte) := (List.range (fieldB (slotRead x 6 2) 0 2)).map (fun i => slotRead x (64 + 16 * i) 16)
/-- Offset and length of a component. -/
def dirSpan (e : List Byte) : Nat × Nat := (fieldB e 8 4, fieldB e 12 4)

/-- A directory is as R332 says: one component of each type, within the image, without overlap. -/
def dirOk (len : Nat) (d : List (List Byte)) : Bool :=
  let types := d.map (fun e => fieldB e 0 2)
  let apart := fun (a b : Nat × Nat) => decide (a.1 + a.2 ≤ b.1 ∨ b.1 + b.2 ≤ a.1)
  [1, 2, 3, 4].all (fun t => decide ((types.filter (fun x => decide (x = t))).length = 1)) && decide (d.length = 4)
    && d.all (fun e => decide ((dirSpan e).1 + (dirSpan e).2 ≤ len))
    && (List.range d.length).all (fun i => (List.range i).all (fun j => apart (dirSpan (nth d i [])) (dirSpan (nth d j []))))

/-- The header check: magic, format, CRC, lengths and the directory. -/
def headOk (x : Slot) : Bool :=
  let h := slotRead x 0 64
  decide (fieldB h 0 4 = 0x49465847 ∧ fieldB h 4 2 = 1 ∧ 1 ≤ fieldB h 6 2 ∧ fieldB h 6 2 ≤ 16 ∧ fieldB h 12 4 ≤ 67040508
      ∧ BitVec.ofNat 32 (fieldB h 60 4) = crc32c (h.take 60))
    && dirOk (fieldB h 12 4) (slotDir x)

/-- The directory entry of a type, and the digest of its component. -/
def dirEntry (x : Slot) (t : Nat) : List Byte := ((slotDir x).find? (fun e => decide (fieldB e 0 2 = t))).getD []
def compDigest (x : Slot) (t : Nat) : BitVec 256 :=
  let p := dirSpan (dirEntry x t)
  shake256 (slotRead x p.1 p.2)

/-- What the image in a slot shows; its signature has been verified with the result `sigOk`. -/
def imageIn (x : Slot) (sigOk : Bool) : ImageInfo :=
  let h := slotRead x 0 64
  { headerOk := headOk x, signatureOk := sigOk, hwType := BitVec.ofNat 32 (fieldB h 8 4), unitId := BitVec.ofNat 256 (fieldB h 16 32),
    version := BitVec.ofNat 32 (fieldB h 48 4), securityVersion := BitVec.ofNat 32 (fieldB h 52 4),
    settingsFormat := BitVec.ofNat 16 (fieldB h 56 2), protoRev := nth h 58 0, keyId := (nth h 59 0).setWidth 1,
    gateDigest := compDigest x 1, shepDigest := compDigest x 2, ucodeDigest := compDigest x 3,
    ucodeVersion := BitVec.ofNat 16 (fieldB (dirEntry x 3) 4 4), loopDigest := compDigest x 4,
    headerDigest := shake256 (h ++ slotRead x (fieldB h 12 4) sigLen) }

/-- What slot `n` shows: of the image as shipped, what `i` brings. -/
def State.slotFacts (s : State) (n : Nat) (i : ImageInfo) : ImageInfo :=
  if (s.slotOf n).shipped then i else imageIn (s.slotOf n) i.signatureOk

/-- The reason of R333 for an image: the first check that fails, 0 when all pass. -/
def imageReason (s : State) (i : ImageInfo) : BitVec 3 :=
  if !i.headerOk then 1
  else if !i.signatureOk then 2
  else if i.hwType ≠ 0x00484D01 then 3
  else if i.unitId ≠ 0 ∧ i.unitId ≠ s.sec.unitId then 4
  else if i.securityVersion.toNat < s.flash.svn.toNat then 5
  else 0

/-- A slot written whole is judged: STAGED, or REFUSED with the reason (R333, R334). -/
def State.judgeSlot (s : State) (n : Nat) (sigOk : Bool) : State :=
  let i := imageIn (s.slotOf n) sigOk
  let r := imageReason s i
  s.setSlot n { s.slotOf n with
    state := if r = 0 then slotStaged else slotRefused, reason := r, keyId := i.keyId,
    settingsFormat := i.settingsFormat, version := i.version, svn := i.securityVersion, booted := false,
    headDigest := i.headerDigest }

/-- A slot can be written: neither ACTIVE nor TRIAL (R334). -/
def slotWritable (x : Slot) : Bool := decide (x.state ≠ slotActive ∧ x.state ≠ slotTrial)

/-- Image bytes are written into a slot, which is WRITING from the first of them. -/
def State.slotWrite (s : State) (n off : Nat) (bytes : List Byte) : State :=
  let x := s.slotOf n
  let x := if x.state = slotWriting then x else { x with state := slotWriting, reason := 0, bytes := [], shipped := false }
  let t := (bytes.zipIdx).foldl (fun (t : Tab Byte) p => tabSet (fun _ => (0xFF : Byte)) t (off + p.2) p.1) x.bytes
  s.setSlot n { x with bytes := t }

/-- IMAGE_STAGE (R332 to R334): a part is written; the last part brings the checks of R333. -/
def execImageStage (r : Nat) (dmaOk : Bool) (bytes : List Byte) (sigOk : Bool) (s : State) : Res :=
  hostCmd s r 0x26 true fun b tag s =>
    let n := fieldB b 8 1
    if 2 ≤ n then s.complete r tag stMalformed
    else if !slotWritable (s.slotOf n) then s.complete r tag stSlotBusy
    else if !dmaOk then s.complete r tag stDmaError
    else
      let s := s.slotWrite n (fieldB b 28 4) (sliceB bytes 0 (fieldB b 24 4))
      if (nth b 32 0).getLsbD 0 then
        let s := s.judgeSlot n sigOk
        let reason := (s.slotOf n).reason
        if reason = 0 then s.complete r tag stOk
        else s.complete r tag stBadImage [(24, 2, reason.toNat)]
      else s.complete r tag stOk

/-- A slot is TRIAL. -/
def State.trialSlot (s : State) : Option Nat :=
  [0, 1].find? (fun n => (s.slotOf n).state = slotTrial)

/-- ACTIVATE_IMAGE is allowed: the slot is STAGED or STANDBY, and no trial runs (R337, Table 13-7). -/
def State.canActivate (s : State) (n : Nat) : Bool :=
  decide (n < 2) && (decide ((s.slotOf n).state = slotStaged) || decide ((s.slotOf n).state = slotStandby))
    && s.trialSlot.isNone

/-- ACTIVATE_IMAGE (R337): the slot waits for the next maintenance point. -/
def execActivateImage (r : Nat) (s : State) : Res :=
  hostCmd s r 0x27 true fun b tag s =>
    let n := fieldB b 8 1
    if s.canActivate n then
      ({ s with sec := { s.sec with activate := some n } }).complete r tag stOk
    else s.complete r tag stSlotState

/-! ### Control messages (R356 to R358) -/

/-- Last sequence accepted from a sender. -/
def lastSeq (seqs : List (BitVec 128 × Word)) (who : BitVec 128) : Word :=
  match seqs.find? (fun p => p.1 = who) with
  | some p => p.2
  | none => 0

/-- The sequences with a sender's set. -/
def setSeq (seqs : List (BitVec 128 × Word)) (who : BitVec 128) (v : Word) : List (BitVec 128 × Word) :=
  (who, v) :: seqs.filter (fun p => decide (p.1 ≠ who))

/-- A key epoch is accepted: the one in force, or the previous one within its grace (R358). -/
def State.epochOk (s : State) (e : BitVec 16) : Bool := s.epochs.contains e

/-! ### Control messages as bytes (R356) -/

/-- The header of a control message. -/
def ctlHead (h : CtlHdr) : List Byte :=
  [h.version, h.type] ++ leBytes 2 h.epoch.toNat ++ leBytes 4 h.length.toNat ++ leBytes 8 h.seq.toNat ++ leBytes 16 h.sender.toNat

/-- The tag of a message under the control key of its epoch, byte 0 lowest. -/
def State.ctlTag (s : State) (h : CtlHdr) : BitVec 256 :=
  BitVec.ofNat 256 (leVal (kmac256 (s.podKey h.epoch useCtrl) (ctlHead h ++ h.body) tagCtrl 32))

/-- The length check: the body is as long as the header says, and at most 16 MiB. -/
def ctlLenOk (h : CtlHdr) : Bool := decide (h.length.toNat = h.body.length ∧ h.body.length ≤ 0x1000000)

/-- The tag check. -/
def State.ctlSigned (s : State) (h : CtlHdr) : Bool := decide (h.tag = s.ctlTag h)

/-- A control message of the Gate leaves on the service ports under the control key (R356); an unowned module has none
(R323). Types and bodies are the model's (log entry 56). -/
def State.sendCtl (s : State) (type : Byte) (body : List Nat) : State :=
  if s.flash.owned then
    let h : CtlHdr := {
      type := type, epoch := s.flash.epoch, length := BitVec.ofNat 32 (8 * body.length), seq := s.flash.ctlSeq + 1,
      sender := s.sec.unitId.setWidth 128, body := body.flatMap (leBytes 8) }
    ({ s with flash := { s.flash with ctlSeq := s.flash.ctlSeq + 1 } } : State).emit
      (.ctl (ctlHead h ++ h.body ++ leBytes 32 (s.ctlTag h).toNat))
  else s

/-- A sequence is accepted (R357): above the last one; a sender not heard before has none. -/
def State.seqOk (s : State) (h : CtlHdr) : Bool :=
  match s.sec.seqs.find? (fun p => p.1 = h.sender) with
  | some p => decide (p.2.toNat < h.seq.toNat)
  | none => true

/-- The index of SEC.AUTH_FAIL that a control message counts in, by the first check that fails:
length or version, epoch, tag, sequence (R356). -/
def State.ctlFail (s : State) (h : CtlHdr) : Option Nat :=
  if !ctlLenOk h || decide (h.version ≠ 1) then some 0
  else if !s.epochOk h.epoch then some 1
  else if !s.ctlSigned h then some 2
  else if !s.seqOk h then some 3
  else none

/-- A rejection is counted in SEC.AUTH_FAIL. -/
def State.authFail (s : State) (i : Nat) : State :=
  let x := tabGet (fun _ => (0 : BitVec 32)) s.sec.authFail i
  { s with sec := { s.sec with authFail := tabSet (fun _ => (0 : BitVec 32)) s.sec.authFail i (stickAdd x 1) } }

/-- A sender's sequence is accepted, and with `keep` recorded in the settings store (R357). -/
def State.seqAccept (s : State) (h : CtlHdr) (keep : Bool) : State :=
  let q := setSeq s.sec.seqs h.sender h.seq
  let s := { s with sec := { s.sec with seqs := q } }
  if keep then
    { s with flash := { s.flash with settings := { s.flash.settings with
        seqs := setSeq s.flash.settings.seqs h.sender h.seq } } }
  else s

/-- A control message is checked in order; one that passes has the effect `f`. An unowned module has
no control key and accepts none (R323). -/
def ctlMsg (s : State) (h : CtlHdr) (keep : Bool) (f : State → State) : Res :=
  if !s.pwr.aux || !s.flash.owned || decide (s.cast.hold = 1) then .next s
  else match s.ctlFail h with
    | some i => .next (s.authFail i)
    | none => .next (f (s.seqAccept h keep))

/-- CONTROL_ACTIVATE_IMAGE (R337, R357). -/
def execControlActivateImage (h : CtlHdr) (slot : Nat) (s : State) : Res :=
  ctlMsg s h true fun s =>
    if s.canActivate slot then { s with sec := { s.sec with activate := some slot } } else s

/-- SEQUENCE_RECORD (R357): every 10 minutes the sequences of other types are recorded. -/
def execSequenceRecord (s : State) : Res :=
  doIf (s.pwr.aux && s.passed s.sec.lastSeqRecord 60000000000) s
    { s with flash := { s.flash with settings := { s.flash.settings with seqs := s.sec.seqs } },
             sec := { s.sec with lastSeqRecord := s.tb } }

/-- EPOCH_GRACE_END (R358). -/
def execEpochGraceEnd (s : State) : Res :=
  match s.sec.prevEpoch with
  | some p => doIf (s.pwr.aux && s.passed p.2 60000000000) s { s with sec := { s.sec with prevEpoch := none } }
  | none => .next s

/-! ### Maintenance point, trial and frog (R336 to R339) -/

/-- A maintenance point: no FAB0 job slot is valid, or a bind-off has completed step 2 of R300, which
stops the chains. -/
def State.maintenance (s : State) : Bool :=
  (s.jobs.all (fun p => !p.2.valid)) ||
    (s.twin.bindOff.isSome && s.ctxs.all (fun p => decide (p.2.mode ≠ .running ∧ p.2.mode ≠ .ready ∧ p.2.mode ≠ .waiting)))

/-- The forced reset of R337 begins: SELF_REPORT kind 2, DRAIN, and the reset of every domain once the
drain has ended (MAIN_POWER_REMOVE). -/
def State.forceReset (s : State) : State :=
  let s := (s.selfReport 2 0).drainSend 1
  { s with sec := { s.sec with resetting := true },
           pwr := { s.pwr with drain := some (.maintenance, s.tb) } }

/-- MAINTENANCE_POINT (R337, R339). -/
def execMaintenancePoint (s : State) : Res :=
  if s.pwr.aux && s.maintenance && !s.sec.resetting then
    match s.sec.activate with
    | some n =>
      if !s.canActivate n then .next { s with sec := { s.sec with activate := none } }
      else
      let s1 := s.setSlot n { s.slotOf n with state := slotTrial, booted := false }
      .next { s1 with sec := { s1.sec with activate := none, reject := false } }.forceReset
    | none =>
      if s.sec.reject then .next { s with sec := { s.sec with reject := false } }.forceReset
      else .next s
  else .next s

/-- A trial is rejected (R339): with `now` the forced reset begins at once; else it waits. -/
def State.rejectTrial (s : State) (now : Bool) : State :=
  if s.trialSlot.isNone || s.sec.resetting then s
  else if now then s.forceReset
  else { s with sec := { s.sec with reject := true } }

/-- REJECT_IMAGE. -/
def execRejectImage (r : Nat) (s : State) : Res :=
  hostCmd s r 0x28 true fun b tag s =>
    if s.trialSlot.isNone then s.complete r tag stSlotState
    else (s.rejectTrial ((nth b 8 0).getLsbD 0)).complete r tag stOk

/-- Every slot below the recorded security version becomes REFUSED with reason 5 (R336). -/
def State.refuseLower (s : State) : State :=
  [0, 1].foldl (fun (s : State) n =>
    let x := s.slotOf n
    if x.state ≠ slotEmpty ∧ x.state ≠ slotWriting ∧ x.svn.toNat < s.flash.svn.toNat then
      s.setSlot n { x with state := slotRefused, reason := 5 }
    else s) s

/-- The digest measured under index 4 (Table 13-4). -/
def State.headDigest (s : State) (hd : BitVec 256) : BitVec 256 :=
  shake256 (digBytes hd ++ [s.sec.slot.setWidth 8] ++ leBytes 4 s.flash.svn.toNat
    ++ [(s.slotOf 0).state.setWidth 8, (s.slotOf 1).state.setWidth 8])

/-- FW_CONFIRM (R336, R338, R341): Shepherd firmware of the trial image writes its version before the
deadline; the slot is ACTIVE, the other STANDBY, the security version is raised and lower slots are
refused. Any other value, or a write after the deadline, is ignored. -/
def execFwConfirm (version : BitVec 32) (s : State) : Res :=
  if s.pwr.aux && s.sec.trial && decide (version = s.sec.version) && !s.sec.resetting
      && (decide (s.sec.deadline = 0) || decide (s.tb.toNat < s.sec.deadline.toNat)) then
    let n := s.sec.slot.toNat
    let m := 1 - n
    let s1 := s.setSlot n { s.slotOf n with state := slotActive }
    let s2 := if (s1.slotOf m).state = slotActive then
        s1.setSlot m { s1.slotOf m with state := slotStandby } else s1
    let svn := (s2.slotOf n).svn
    let s3 := if s2.flash.svn.toNat < svn.toNat then { s2 with flash := { s2.flash with svn := svn } } else s2
    let s4 := s3.refuseLower
    let s5 := { s4 with sec := { s4.sec with trial := false, deadline := 0 },
                        flash := { s4.flash with oldSettings := none } }
    .next (s5.measure 4 (s5.headDigest (s5.slotOf n).headDigest))
  else .next s

/-- TRIAL_DEADLINE (R338): no confirmation by the deadline forces a reset. -/
def execTrialDeadline (s : State) : Res :=
  doIf (s.pwr.aux && s.sec.trial && decide (s.sec.deadline ≠ 0) && !s.sec.resetting
      && decide (s.sec.deadline.toNat ≤ s.tb.toNat)) s s.forceReset

/-! ### Owner (R354) -/

/-- The digest of an owner key and key epoch, measured under index 7. -/
def ownerDigest (key : List Byte) (epoch : BitVec 16) : BitVec 256 :=
  shake256 (digBytes (shake256 key) ++ leBytes 2 epoch.toNat)

/-- The owner key and the pod root are stored (R354). -/
def State.enroll (s : State) (key root : List Byte) : State :=
  { s with flash := { s.flash with owned := true, ownerKey := key, podRoot := root } }.measure 7
    (ownerDigest key s.flash.epoch)

/-- OWNER_ENROLL (R354): accepted only while UNOWNED; while owned it is refused and counted. -/
def execOwnerEnroll (r : Nat) (dmaOk : Bool) (key root : List Byte) (s : State) : Res :=
  hostCmd s r 0x29 true fun _ tag s =>
    if s.flash.owned then (s.authFail 5).complete r tag stAuth
    else if !dmaOk then s.complete r tag stDmaError
    else (s.enroll key root).complete r tag stOk

/-- The owner's key and the pod root are erased: the module is UNOWNED (R354). -/
def State.disown (s : State) : State := { s with flash := { s.flash with owned := false, ownerKey := [], podRoot := [] } }

/-- OWNER_RELEASE (R354): accepted only when signed by the enrolled owner key. -/
def execOwnerRelease (r : Nat) (dmaOk sigOk : Bool) (s : State) : Res :=
  hostCmd s r 0x2A true fun _ tag s =>
    if !dmaOk then s.complete r tag stDmaError
    else if s.flash.owned && sigOk then
      s.disown.complete r tag stOk
    else (s.authFail 4).complete r tag stAuth

/-! ### Distribution (R342 to R345) -/

/-- The distribution in progress. -/
def State.setDist (s : State) (d : Option Dist) : State := { s with flash := { s.flash with dist := d } }

/-- DISTRIBUTE (R343): an image reception starts; a slot that is ACTIVE or TRIAL is refused. -/
def execDistribute (h : CtlHdr) (digest : BitVec 256) (total : BitVec 12) (slot : Nat)
    (source parent : Coord) (s : State) : Res :=
  ctlMsg s h true fun s =>
    if decide (slot < 2) && slotWritable (s.slotOf slot) && decide (total ≠ 0)
        && decide (total.toNat ≤ 4092) then
      let s := s.setSlot slot { s.slotOf slot with state := slotWriting, reason := 0, bytes := [], shipped := false }
      { s.setDist (some { digest := digest, total := total, slot := slot, source := source, parent := parent, lastChunk := s.tb }) with
        sec := { s.sec with
          bcImage := digest.setWidth 64, bcTotal := total, bcHeld := 0, bcRepaired := 0, bcBad := 0,
          bcState := 1 } }
    else s

/-- A chunk is dropped and counted (R343). -/
def State.chunkBad (s : State) : State :=
  { s with sec := { s.sec with bcBad := stickAdd s.sec.bcBad 1 } }

/-- A chunk of the distribution in progress that is whole (R342, R343, Table 13-3): magic, image, total, an index not held
yet, a full payload unless it is the last, its offset, and its CRC. -/
def chunkOk (d : Dist) (c : List Byte) : Bool :=
  let i := fieldB c 12 2
  let n := c.length - 32
  decide (fieldB c 0 4 = 0x4B435847 ∧ fieldB c 4 8 = d.digest.toNat % 2 ^ 64 ∧ fieldB c 14 2 = d.total.toNat ∧ i < d.total.toNat
      ∧ 33 ≤ c.length ∧ n ≤ 16384 ∧ fieldB c 16 2 = n ∧ fieldB c 18 2 = 0 ∧ fieldB c 20 8 = 16384 * i
      ∧ (i + 1 = d.total.toNat ∨ n = 16384) ∧ BitVec.ofNat 32 (fieldB c 28 4) = crc32c (c.take 28 ++ c.drop 32))
    && !d.held.contains i

/-- The digest over the whole image with its signature, as its chunks have brought it. -/
def State.distDigest (s : State) (d : Dist) : BitVec 256 :=
  shake256 (slotRead (s.slotOf d.slot) 0 (16384 * (d.total.toNat - 1) + d.lastLen))

/-- Every chunk is held: the image is hashed and judged; STAGED, it is acknowledged to the pod manager (R345). -/
def State.endDist (s : State) (d : Dist) (sigOk : Bool) : State :=
  if s.distDigest d ≠ d.digest then
    let s1 := (s.setSlot d.slot { s.slotOf d.slot with bytes := [] }).setDist (some { d with held := [], lastChunk := s.tb })
    { s1 with sec := { s1.sec with bcHeld := 0, bcState := 5 } }
  else
    let s1 := (s.judgeSlot d.slot sigOk).setDist none
    let ok := decide ((s1.slotOf d.slot).state = slotStaged)
    let s2 := { s1 with sec := { s1.sec with bcState := if ok then 3 else 4 } }
    if ok then s2.sendCtl 0x11 [d.slot] else s2

/-- CHUNK (R342 to R345): a good chunk is written into the slot and relayed to the modules that name this one as parent;
one that another holder than the parent sends, or that comes while a repair is asked for, counts as repaired. -/
def execChunk (sender : Coord) (c : List Byte) (relay : List Coord) (sigOk : Bool) (s : State) : Res :=
  match s.flash.dist with
  | none => .next s
  | some d =>
    if !s.pwr.aux || decide (s.cast.hold = 1) then .next s
    else if !chunkOk d c then .next s.chunkBad
    else
      let i := fieldB c 12 2
      let d1 := { d with
        held := i :: d.held, lastChunk := s.tb, lastLen := if i + 1 = d.total.toNat then c.length - 32 else d.lastLen }
      let s1 := (s.slotWrite d.slot (16384 * i) (c.drop 32)).setDist (some d1)
      let s2 := relay.foldl (fun (s : State) m => s.emit (.relay m c)) s1
      let again := decide (sender ≠ d.parent ∨ s.sec.bcState = 2)
      let s3 := { s2 with sec := { s2.sec with
        bcHeld := BitVec.ofNat 12 d1.held.length, bcRepaired := if again then s2.sec.bcRepaired + 1 else s2.sec.bcRepaired } }
      .next (if d1.held.length < d.total.toNat then s3 else s3.endDist d1 sigOk)

/-- Holders in the order of R344: the twin, the other members of the group in increasing position, the source. -/
def State.holders (s : State) (d : Dist) : List Coord :=
  let twin := if s.twin.paired then [s.twin.coord] else []
  let group := if s.shep.hasCoord then (List.range 16).map (coordAt s.ownGroup) else []
  twin ++ group.filter (fun c => decide (c ≠ s.shep.coord) && !twin.contains c) ++ [d.source]

/-- The missing chunks are asked of holder `i`: its coordinate, the image, and the bitmap of what is missing, 64 chunks a
word (log entry 56). -/
def State.askHolder (s : State) (d : Dist) (i : Nat) : State :=
  let missing := (List.range d.total.toNat).filter (fun c => !d.held.contains c)
  let bitmap := (List.range 64).map (fun w => (missing.filter (fun c => decide (c / 64 = w))).foldl (fun v c => v + 2 ^ (c % 64)) 0)
  let s1 := s.setDist (some { d with holder := i, askedAt := s.tb })
  ({ s1 with sec := { s1.sec with bcState := 2 } }).sendCtl 0x12
    ((nth (s.holders d) i d.source).toNat :: d.digest.toNat % 2 ^ 64 :: bitmap)

/-- CHUNK_REPAIR (R344): after the last index, or 30 s of silence, the missing chunks are requested from the first
holder. -/
def execChunkRepair (s : State) : Res :=
  match s.flash.dist with
  | none => .next s
  | some d =>
    doIf (s.pwr.aux && decide (s.sec.bcState = 1 ∨ s.sec.bcState = 5) && decide (d.held.length < d.total.toNat)
        && (d.held.contains (d.total.toNat - 1) || s.passed d.lastChunk 3000000000)) s (s.askHolder d 0)

/-- REPAIR_HOLDER_TIMEOUT (R344): after 10 s without progress the next holder is asked; the first follows the last (log
entry 56). -/
def execRepairHolderTimeout (s : State) : Res :=
  match s.flash.dist with
  | none => .next s
  | some d =>
    doIf (s.pwr.aux && decide (s.sec.bcState = 2) && s.passed d.askedAt 1000000000 && s.passed d.lastChunk 1000000000) s
      (s.askHolder d ((d.holder + 1) % (s.holders d).length))

/-! ### Signing (R352, R353) -/

/-- The largest index: at 2^40 the key sticks. -/
def signStick : Nat := 2 ^ 40

/-- When the signatures of the last second were made. -/
def State.signsNow (s : State) : List Word := s.sec.signTimes.filter (fun t => !s.passed t 100000000)

/-- The Gate refuses to sign for good, or while a reservation is outstanding. -/
def State.signBarred (s : State) : Bool :=
  s.flash.stuck || s.sec.reserveFail || decide (s.sec.signLimit.toNat ≤ s.sec.signNext.toNat)

/-- One signature: the index used and the state after it; none where R352 or R353 refuses. -/
def State.sign (s : State) : Option (Word × State) :=
  if s.signBarred || decide (16 ≤ s.signsNow.length) then none
  else
    let n := s.sec.signNext
    let next := n + 1
    let s := { s with sec := { s.sec with
      signNext := next, signTimes := s.tb :: s.signsNow,
      reservePending := s.sec.reservePending || decide (next = s.sec.signLimit) } }
    some (n, if next.toNat = signStick then
        { s with flash := { s.flash with stuck := true } }.raise .signStuck 5
      else s)

/-- A request refused by the rate limit is counted (SEC.SIGN_STATUS.busy). -/
def State.signRefused (s : State) : State :=
  if s.signBarred then s else { s with sec := { s.sec with signBusy := stickAdd s.sec.signBusy 1 } }

/-- RESERVATION_RETRY (R352): the reservation write outstanding is made, at once and then every 10 s. -/
def execReservationRetry (ok : Bool) (s : State) : Res :=
  if s.pwr.aux && s.sec.reservePending
      && (!s.sec.reserveFail || s.passed s.sec.reserveTry 1000000000) then
    if ok then
      let limit := s.sec.signLimit + 1024
      .next { s with sec := { s.sec with signLimit := limit, reservePending := false, reserveFail := false },
                     flash := { s.flash with signLimit := limit } }
    else .next { s with sec := { s.sec with reserveFail := true, reserveTry := s.tb } }
  else .next s

/-! ### SPDM (R351, Table 13-5) -/

/-- An SPDM request can arrive: over DOE while a data object is in progress, over MCTP or in a control
message otherwise; none in hold state 1 (R399, R402). -/
def State.spdmOpen (s : State) (via : Nat) : Bool :=
  s.pwr.aux && decide (s.cast.hold ≠ 1) && (decide (via ≠ 0) || s.mgmt.doeBusy)

/-- The answer to a request; over DOE it ends the request (R399). -/
def State.spdmAnswer (s : State) (via : Nat) (code : Byte) (bytes : List Byte) (sig : Option Word) : State :=
  let s := if via = 0 then { s with mgmt := { s.mgmt with doeBusy := false } } else s
  s.emit (.spdm via code bytes sig)

/-- SPDM 1.2 response codes (DSP0274, log entry 15). -/
def execSpdmGetVersion (via : Nat) (s : State) : Res :=
  doIf (s.spdmOpen via) s (s.spdmAnswer via 0x04 [0x00, 0x12] none)
def execGetCapabilities (via : Nat) (s : State) : Res :=
  doIf (s.spdmOpen via) s (s.spdmAnswer via 0x61 (Config.document 2) none)
def execNegotiateAlgorithms (via : Nat) (s : State) : Res :=
  doIf (s.spdmOpen via) s (s.spdmAnswer via 0x63 (Config.document 3) none)
/-- GET_DIGESTS: certificate slot 0 only. -/
def execGetDigests (via : Nat) (s : State) : Res :=
  doIf (s.spdmOpen via) s
    (s.spdmAnswer via 0x01 (1 :: digBytes (shake256 (Config.document 0))) none)
/-- GET_CERTIFICATE of slot 0; another slot is an SPDM error. -/
def execGetCertificate (via : Nat) (slot : Nat) (off len : Nat) (s : State) : Res :=
  doIf (s.spdmOpen via) s
    (if slot = 0 then s.spdmAnswer via 0x02 (((Config.document 0).drop off).take len) none
     else s.spdmAnswer via 0x7F [1] none)

/-- A signed answer: the signature takes an index; without one the answer is Busy, or an error once
the key has stuck (R353, Table 13-7). -/
def State.signedAnswer (s : State) (via : Nat) (code : Byte) (bytes : List Byte) : State :=
  match s.sign with
  | some (i, s) => s.spdmAnswer via code bytes (some i)
  | none => s.signRefused.spdmAnswer via 0x7F [if s.signBarred then 4 else 3] none

/-- The measurement indices of Table 13-4. -/
def measIndices : List Nat := [1, 2, 3, 4, 5, 6, 7, 8, 16, 17, 18, 19, 20, 21, 22, 23]

/-- The measurement values a mask asks for. -/
def State.measVals (s : State) (mask : BitVec 32) : List (BitVec 256) :=
  (measIndices.filter (fun i => mask.getLsbD i)).map s.meas

/-- CHALLENGE (R351 to R353): answered with a signature under the requester's nonce. -/
def execChallenge (via : Nat) (nonce : BitVec 256) (s : State) : Res :=
  doIf (s.spdmOpen via) s (s.signedAnswer via 0x03 (digBytes nonce))
/-- GET_MEASUREMENTS (R351): the measurement blocks asked for, signed. -/
def execGetMeasurements (via : Nat) (nonce : BitVec 256) (mask : BitVec 32) (s : State) : Res :=
  doIf (s.spdmOpen via) s
    (s.signedAnswer via 0x60 (digBytes nonce ++ (s.measVals mask).flatMap digBytes))
/-- PSK_EXCHANGE (R360): a session opens under the session PSK; an unowned module has none. -/
def execPskExchange (via : Nat) (ok : Bool) (s : State) : Res :=
  doIf (s.spdmOpen via) s
    (if ok && s.flash.owned then s.spdmAnswer via 0x66 [] none else s.spdmAnswer via 0x7F [1] none)
/-- PSK_FINISH: the session is open. -/
def execPskFinish (via : Nat) (ok : Bool) (s : State) : Res :=
  doIf (s.spdmOpen via) s
    (if ok && s.flash.owned then
      { s with sec := { s.sec with session := true } }.spdmAnswer via 0x67 [] none
     else s.spdmAnswer via 0x7F [1] none)
/-- HEARTBEAT inside a session. -/
def execSpdmHeartbeat (via : Nat) (s : State) : Res :=
  doIf (s.spdmOpen via) s
    (if s.sec.session then s.spdmAnswer via 0x68 [] none else s.spdmAnswer via 0x7F [1] none)
/-- END_SESSION. -/
def execEndSession (via : Nat) (s : State) : Res :=
  doIf (s.spdmOpen via) s
    (if s.sec.session then { s with sec := { s.sec with session := false } }.spdmAnswer via 0x6C [] none
     else s.spdmAnswer via 0x7F [1] none)
/-- VENDOR_DEFINED_REQUEST for IDE_KM (R360): keys of one stream, set inside a session. -/
def execVendorDefinedRequest (via : Nat) (selective : Bool) (keyOk : Bool) (s : State) : Res :=
  doIf (s.spdmOpen via) s
    (if s.sec.session && keyOk then
      let sec := if selective then { s.sec with ideSel := true } else { s.sec with ideLink := true }
      { s with sec := sec }.spdmAnswer via 0x7E [] none
     else s.spdmAnswer via 0x7F [1] none)

/-- Host traffic is held until both IDE streams are up (R360): SEC.IDE.blocked. -/
def State.ideBlocked (s : State) : Bool :=
  ((s.flash.settings.plan.map (·.ideRequired)).getD false) && !(s.sec.ideLink && s.sec.ideSel)

end Sys2Proof.Machine
end

