-- ==== Sys2Proof/Machine/Host.lean ====
section
/-! DEFINITION. Host and management interfaces (15): rings, completions, interrupts, the mailbox, DOE,
I3C and MCTP, and the PCIe resets. -/

namespace Sys2Proof.Machine

/-! ### Rings -/

/-- A command of Table 15-5: its opcode, whether it may stand on a partition ring and on the module
ring, and the argument bytes that the table names, as (first, last). -/
structure CmdRow where
  op : Nat
  part : Bool
  mod : Bool
  args : List (Nat × Nat)

/-- Table 15-5. -/
def cmdTable : List CmdRow :=
  [ ⟨0x00, true, true, []⟩,
    ⟨0x01, true, false, [(8, 15), (16, 19), (20, 20), (24, 25), (26, 26), (32, 39), (40, 41)]⟩,
    ⟨0x02, true, false, [(8, 9), (10, 11), (12, 12), (13, 13), (16, 23)]⟩,
    ⟨0x03, true, false, [(8, 9)]⟩,
    ⟨0x04, true, false, [(8, 9)]⟩,
    ⟨0x05, true, false, [(10, 11), (12, 12), (16, 23)]⟩,
    ⟨0x06, true, false, [(10, 11), (12, 13), (14, 15), (16, 16), (24, 31), (32, 35)]⟩,
    ⟨0x07, true, false, [(10, 11), (16, 23), (24, 39)]⟩,
    ⟨0x08, true, false, [(8, 9), (10, 11), (12, 12), (14, 15), (16, 23)]⟩,
    ⟨0x09, true, false, [(8, 15), (16, 23), (24, 27), (28, 28)]⟩,
    ⟨0x0A, true, false, []⟩ ] ++
  [ ⟨0x20, false, true, [(8, 8), (9, 9)]⟩,
    ⟨0x21, false, true, [(8, 8)]⟩,
    ⟨0x22, false, true, []⟩,
    ⟨0x23, false, true, []⟩,
    ⟨0x24, false, true, []⟩,
    ⟨0x25, false, true, [(8, 15), (16, 19)]⟩,
    ⟨0x26, false, true, [(8, 8), (16, 23), (24, 27), (28, 31), (32, 32)]⟩,
    ⟨0x27, false, true, [(8, 8)]⟩,
    ⟨0x28, false, true, [(8, 8)]⟩,
    ⟨0x29, false, true, [(8, 15), (16, 19)]⟩,
    ⟨0x2A, false, true, [(8, 15), (16, 19)]⟩ ]

/-- The row of an opcode. -/
def cmdRow (op : Nat) : Option CmdRow := cmdTable.find? (fun x => x.op = op)

/-- Bytes 4-7, the upper flag bits and the argument bytes that the row does not name are zero (R392). -/
def blkClean (row : CmdRow) (b : Block) : Bool :=
  decide ((nth b 1 0).toNat < 4) && decide (fieldB b 4 4 = 0) &&
    (List.range 56).all (fun i => decide (nth b (8 + i) 0 = 0)
      || row.args.any (fun p => decide (p.1 ≤ 8 + i ∧ 8 + i ≤ p.2)))

/-- What a command block is judged by alone: MALFORMED, WRONG_RING, or none (R387, R392). -/
def blkFault (r : Nat) (b : Block) : Option Status :=
  match cmdRow (blkOp b) with
  | none => some stMalformed
  | some row =>
    if !blkClean row b then some stMalformed
    else if (if r = 8 then row.mod else row.part) then none else some stWrongRing

/-- A block as fetched: 64 bytes. -/
def blkOf (l : List Byte) : Block := sliceB l 0 64

/-- One command is fetched into ring `r`; a block at fault completes with its status. -/
def State.fetch (s : State) (r : Nat) (b : Block) : State :=
  let ring := s.ring r
  match blkFault r b with
  | none => s.setRing r { ring with fetched := ring.fetched ++ [{ block := b }] }
  | some st =>
    let c : Cpl := { kind := 0, tag := blkTag b, status := st, opcode := BitVec.ofNat 8 (blkOp b), tbTime := s.tb }
    let n := stickAdd ring.cmds 1
    (s.setRing r { ring with due := ring.due ++ [c], cmds := n }).stuck (0x530 + 0x40 * r) ring.cmds n

/-- A ring stops under R391. -/
def State.ringError (s : State) (r : Nat) (cause : BitVec 2) : State :=
  (s.updRing r fun x => { x with error := true, cause := cause, stopped := true }).misc 1

/-- Commands that a poll may fetch (R389, R394, R397): new ones, while fewer than 32 are in flight and
a completion entry can be reserved for each. -/
def Ring.mayFetch (ring : Ring) (cmdProd : BitVec 32) : Nat :=
  min (cmdProd - ring.cmdCons).toNat (min (32 - ring.fetched.length) ring.free)

/-- RING_POLL (R389 to R392): cmd_prod is read and new commands are fetched, every poll_us, and again at once while
reads find new ones. -/
def execRingPoll (r : Nat) (cmdProd cplCons : BitVec 32) (blocks : List (List Byte)) (dmaOk : Bool)
    (s : State) : Res :=
  let ring := s.ring r
  let due := match ring.polledAt with | none => true | some t => s.passed t (100 * ring.pollUs.toNat)
  if !s.pwr.aux || decide (8 < r) || !ring.enable || ring.stopped || s.ideBlocked || decide (s.cast.hold = 1)
      || !s.gate.sig.perstN || !due then .next s
  else if !dmaOk then .next (s.ringError r 2)
  else if ring.cmdN < (cmdProd - ring.cmdCons).toNat then .next (s.ringError r 1)
  else
    let ring1 := if ring.free < 8 then { ring with cplCons := cplCons } else ring
    let n := min (ring1.mayFetch cmdProd) blocks.length
    let cons := ring1.cmdCons + BitVec.ofNat 32 n
    let s1 := s.setRing r { ring1 with cmdCons := cons, polledAt := if cmdProd = ring.cmdCons then some s.tb else none }
    let s2 := (blocks.take n).foldl (fun (s : State) b => s.fetch r (blkOf b)) s1
    .next (if n = 0 then s2 else s2.emit (.cmdCons r cons))

/-- RING_ENABLE (R391, R396): the counts restart from the indices read, and the phase at 1. -/
def execRingEnable (r : Nat) (dmaOk : Bool) (cmdProd cmdCons cplProd cplCons : BitVec 32) (s : State) : Res :=
  let ring := s.ring r
  if !s.pwr.aux || decide (8 < r) || ring.enable || !s.gate.sig.perstN || s.ideBlocked then .next s
  else
    let s1 := s.setRing r { ring with
      enable := true, stopped := false, parked := false, polledAt := none, phase := true, cause := 0,
      cmdCons := cmdCons, cplProd := cplProd, cplCons := cplCons, unsignalled := none }
    if !dmaOk then .next (s1.ringError r 2)
    else if (s1.ring r).cmdN < (cmdProd - cmdCons).toNat then .next (s1.ringError r 1)
    else .next s1

/-- RING_DISABLE (Table 15-10): fetching stops; commands fetched complete and their entries are
written. -/
def execRingDisable (r : Nat) (s : State) : Res :=
  doIf (s.pwr.aux && decide (r < 9) && (s.ring r).enable) s (s.updRing r fun x => { x with enable := false })

/-- A detail field, at its offset, in the bytes of an entry. -/
def putDetail (l : List Byte) (d : Nat × Nat × Nat) : List Byte :=
  l.take d.1 ++ leBytes d.2.1 d.2.2 ++ l.drop (d.1 + d.2.1)

/-- The 64 bytes of a completion entry (Table 15-7). -/
def cplBytes (c : Cpl) (phase : Bool) : List Byte :=
  let head := [c.kind, if phase then 1 else 0] ++ leBytes 2 c.tag.toNat ++ leBytes 2 c.status.toNat ++ [c.opcode, 0]
    ++ leBytes 8 c.tbTime.toNat
  c.detail.foldl putDetail (head ++ List.replicate 48 0)

/-- One entry is written at the producer index, with the phase of the pass (R396), and the producer index after it. -/
def State.writeEntry (s : State) (r : Nat) (c : Cpl) : State :=
  let ring := s.ring r
  let slot := ring.cplProd.toNat % ring.cplN
  let s1 := s.setRing r { ring with
    cplProd := ring.cplProd + 1, phase := if slot + 1 = ring.cplN then !ring.phase else ring.phase }
  let s2 := (s1.emit (.entry r slot (cplBytes c ring.phase))).emit (.cplProd r (ring.cplProd + 1))
  if ring.coalesceUs = 0 then s2.msix ring.vector
  else if ring.unsignalled.isNone then s2.updRing r fun x => { x with unsignalled := some s.tb }
  else s2

/-- COMPLETION_WRITE (R389, R396 to R398): the next entry with a reserved place is written; else, with
an entry free, EVENTS_LOST after drops, and then the events held in order. -/
def execCompletionWrite (r : Nat) (cplCons : BitVec 32) (s : State) : Res :=
  let ring0 := s.ring r
  let ring := if ring0.free < 8 then { ring0 with cplCons := cplCons } else ring0
  if !s.pwr.aux || decide (8 < r) || ring0.parked || !s.gate.sig.perstN then .next s
  else
    match ring.due with
    | c :: cs =>
      if ring.used < ring.cplN then .next ((s.setRing r { ring with due := cs }).writeEntry r c) else .next s
    | [] =>
      if !ring.enable || decide (ring.free = 0) then .next s
      else if ring.lostSince ≠ 0 then
        let c : Cpl := { kind := 0x0C, tag := ring.eventSeq, tbTime := s.tb,
                         detail := [(16, 4, ring.lostSince.toNat)] }
        .next ((s.setRing r { ring with lostSince := 0, eventSeq := ring.eventSeq + 1 }).writeEntry r c)
      else match ring.held with
        | c :: cs => .next ((s.setRing r { ring with held := cs }).writeEntry r c)
        | [] => .next s

/-- COALESCE_TIMER (R398): coalesce_us after the first entry not signalled the message is sent. -/
def execCoalesceTimer (r : Nat) (s : State) : Res :=
  let ring := s.ring r
  match ring.unsignalled with
  | none => .next s
  | some t =>
    doIf (s.pwr.aux && decide (r < 9) && s.passed t (100 * ring.coalesceUs.toNat)) s
      ((s.setRing r { ring with unsignalled := none }).msix ring.vector)

/-- NOP (Table 15-5). -/
def execNop (r : Nat) (s : State) : Res :=
  hostCmd s r 0x00 true fun _ tag s => s.complete r tag stOk

/-- Every command in flight on a ring but `keep` completes with ABORTED (R394). -/
def State.abortRing (s : State) (r : Nat) (keep : Option (BitVec 16)) : State :=
  let ring := s.ring r
  let stays (c : Cmd) : Bool := c.started && decide (some (blkTag c.block) = keep)
  let gone := ring.fetched.filter (fun c => !stays c)
  let cpl (c : Cmd) : Cpl := { kind := 0, tag := blkTag c.block, status := stAborted,
                               opcode := BitVec.ofNat 8 (blkOp c.block), tbTime := s.tb }
  let n := stickAdd ring.cmds gone.length
  (s.setRing r { ring with fetched := ring.fetched.filter stays, due := ring.due ++ gone.map cpl, cmds := n }).stuck
    (0x530 + 0x40 * r) ring.cmds n

/-- Commands in flight on rings 0-7 complete with ABORTED (R394). -/
def State.abortPartitions (s : State) : State :=
  (List.range 8).foldl (fun (s : State) r => s.abortRing r none) s

/-! ### PCIe resets (R384, R413) -/

/-- What a ring keeps through an FLR: the commands fetched, their completions and the events held. -/
def Ring.flr (r : Ring) (n : Nat) : Ring :=
  { ringDef n with parked := true, fetched := r.fetched, due := r.due, held := r.held,
                   eventSeq := r.eventSeq, lostSince := r.lostSince }

/-- The PCIe core, the ring and interrupt registers, BAR2_CTL, BAR2_BASE and the mailbox return to
their Reset values, and no other block is reset (R384). -/
def State.flr (s : State) : State :=
  let s := (List.range 9).foldl (fun (s : State) n => s.setRing n ((s.ring n).flr n)) s
  { s with
    gate := { s.gate with
      miscVector := 63, irqEnable := 0xF, irqMailbox := false, irqRing := false, irqHold := false,
      irqFatal := false, bar2Mask := 0, bar2Slices := false, bar2Base := 0, mbox := {}, merge := [],
      pcieRate := 0, pcieFlit := false, pcieWidth := 0, pcieRetrains := 0, bar2Log := 0,
      msixTable := [], msixPending := 0 }
    sec := { s.sec with ideLink := false, ideSel := false }
    mgmt := { s.mgmt with doeBusy := false } }

/-- The PCIe link trains, to the rate and width that the partner and the traces allow (Table 15-1; log entry 61); 64 GT/s
runs in flit mode only. -/
def State.pcieUp (s : State) : State :=
  let w := Config.freeWord s.free
  let rate := w.toNat % 8 % 6
  if s.pwr.aux && s.gate.sig.perstN && !s.gate.holdover then
    { s with
      free := s.free + 1,
      gate := { s.gate with
        pcieRate := BitVec.ofNat 3 rate, pcieFlit := w.getLsbD 8 || decide (rate = 5),
        pcieWidth := nth [1, 2, 4, 8] (w.toNat / 16 % 4) 8 } }
  else s

/-- FUNCTION_LEVEL_RESET (R384, Table 15-10): the PCIe core starts again. -/
def execFunctionLevelReset (s : State) : Res := doIf s.pwr.aux s s.flr.pcieUp

/-- PERST (R384, R413): PERST_N low resets the Gate's PCIe core and nothing else; as it goes high the link trains. -/
def execPerst (low : Bool) (s : State) : Res :=
  let s1 := { s with gate := { s.gate with sig := { s.gate.sig with perstN := !low } } }
  .next (if !s.pwr.aux || decide (low ≠ s.gate.sig.perstN) then s1 else if low then s1.flr else s1.pcieUp)

/-! ### DOE (R399) -/

/-- DOE_REQUEST (R399): Discovery is answered at once; an SPDM object keeps Busy until its answer. In
hold state 1 only Discovery is answered. A request over 16 KiB, or while Busy, is not taken. -/
def execDoeRequest (proto : Byte) (req : List Byte) (s : State) : Res :=
  if !s.pwr.aux || !s.gate.sig.perstN || s.mgmt.doeBusy || decide (16384 < req.length) then .next s
  else if proto = 0 then
    let i := (nth req 0 0).toNat
    let next := if i + 1 < 3 then i + 1 else 0
    .next (s.emit (.doe 0 [Config.freeByte 0 0, Config.freeByte 0 1, BitVec.ofNat 8 (min i 2), BitVec.ofNat 8 next]))
  else if proto = 1 ∨ proto = 2 then
    doIf (decide (s.cast.hold ≠ 1)) s { s with mgmt := { s.mgmt with doeBusy := true } }
  else .next s

/-- DOE_ABORT (R399): the request in progress and any partial answer are discarded. -/
def execDoeAbort (s : State) : Res := doIf (s.pwr.aux && s.gate.sig.perstN) s { s with mgmt := { s.mgmt with doeBusy := false } }

/-! ### The mailbox (R400, Table 15-9) -/

/-- An operation that is not served, or ends with a status alone. -/
def Mbox.reply (m : Mbox) (op : Byte) (status : Byte) (resp : List Byte) : Mbox :=
  { m with op := op, busy := false, done := true, status := status,
           data := if status = 0 then resp else m.data,
           rlen := if status = 0 then BitVec.ofNat 15 resp.length else 0 }

/-- A mailbox operation runs whole: go with busy 1 is discarded and counted (R400). `rom` and `fw` say
who serves it; an operation not served in this state has status 2. -/
def mboxOp (s : State) (op : Byte) (rom fw : Bool) (f : List Byte → State → State × Byte × List Byte) : Res :=
  if !s.pwr.aux then .next s
  else if s.gate.mbox.busy then
    .next { s with gate := { s.gate with badAccess := stickAdd s.gate.badAccess 1 } }
  else
    let req := sliceB s.gate.mbox.data 0 s.gate.mbox.length.toNat
    let (s1, st, resp) :=
      if (if s.cast.hold = 1 then rom else fw) then f req s else (s, (2 : Byte), [])
    .next ({ s1 with gate := { s1.gate with mbox := s1.gate.mbox.reply op st resp } }.misc 0)

/-- The bytes of a report record (Table 12-3). -/
def reportBytes (r : Report) : List Byte :=
  let flags : Nat := (if r.valid then 1 else 0) + (if r.fast then 2 else 0)
    + (match r.island with | some p => 4 + 8 * p.toNat | none => 0) + (if r.retried then 64 else 0)
  let body := [r.stage, r.result] ++ leBytes 2 r.fault.toNat ++ leBytes 2 flags ++ leBytes 2 r.run.toNat
    ++ leBytes 8 r.start.toNat ++ leBytes 8 r.duration.toNat ++ leBytes 4 r.hold.toNat
    ++ (List.range 7).flatMap (fun i => leBytes 4 (nth r.d i (0 : BitVec 32)).toNat) ++ leBytes 4 0
  body ++ leBytes 4 (crc32c body).toNat

/-- The report record of a stage. -/
def State.report (s : State) (st : Nat) : Report := tabGet (fun _ => {}) s.cast.reports st

/-- CAST.STATUS as a word. -/
def State.castStatus (s : State) : BitVec 32 :=
  let b (x : Bool) (n : Nat) : BitVec 32 := if x then BitVec.ofNat 32 (2 ^ n) else 0
  s.cast.stage.setWidth 32 ||| b s.cast.running 4 ||| b s.cast.ready 5 ||| b s.cast.degraded 6
    ||| b s.cast.held 7 ||| ((s.cast.hold.setWidth 32) <<< 8) ||| ((s.pwr.islands.setWidth 32) <<< 16)

/-- SEC.SLOT_STATE of a slot as a word. -/
def slotWord (x : Slot) : BitVec 32 :=
  x.state.setWidth 32 ||| ((x.reason.setWidth 32) <<< 4) ||| ((x.keyId.setWidth 32) <<< 7)
    ||| ((x.settingsFormat.setWidth 32) <<< 16)

/-- GET_STATUS (Table 15-9). -/
def execGetStatus (s : State) : Res :=
  mboxOp s 0x01 true true fun _ s =>
    (s, 0, leBytes 4 s.castStatus.toNat ++ reportBytes (s.report 0) ++ reportBytes (s.report 1)
      ++ leBytes 4 (slotWord (s.slotOf 0)).toNat ++ leBytes 4 (slotWord (s.slotOf 1)).toNat)

/-- GET_MEASUREMENTS (Table 15-9): 32-byte nonce, 4-byte mask; the values asked for, then the
signature, which is refused with status 4 under R352 and R353. -/
def execMboxGetMeasurements (s : State) : Res :=
  mboxOp s 0x02 false true fun req s =>
    if req.length ≠ 36 then (s, 3, [])
    else match s.sign with
      | none => (s.signRefused, 4, [])
      | some (i, s) =>
        let mask := BitVec.ofNat 32 (fieldB req 32 4)
        (s.emit (.measurements 9 mask (s.measVals mask) (some i)), 0, (s.measVals mask).flatMap digBytes)

/-- The 64 bytes of a log entry (R350). -/
def logBytes (e : LogEntry) : List Byte :=
  let b := [e.index, e.type] ++ leBytes 2 e.comp.toNat ++ leBytes 4 e.number.toNat ++ leBytes 8 e.tb.toNat
    ++ digBytes e.digest ++ leBytes 12 e.info.toNat
  b ++ leBytes 4 (crc32c b).toNat

/-- GET_LOG (Table 15-9): first entry and count, 1-256, as two words. -/
def execGetLog (s : State) : Res :=
  mboxOp s 0x03 false true fun req s =>
    let n := fieldB req 4 4
    if n = 0 ∨ 256 < n ∨ req.length ≠ 8 then (s, 3, [])
    else (s, 0, ((s.sec.log.drop (fieldB req 0 4)).take n).flatMap logBytes)

/-- GET_CERT (Table 15-9): up to 16 KiB of the certificate chain from an offset. -/
def execGetCert (s : State) : Res :=
  mboxOp s 0x04 false true fun req s =>
    (s, 0, ((Config.document 0).drop (fieldB req 0 4)).take 16384)

/-- RECOVERY_WRITE (Table 15-9, R334): slot, offset and image bytes; the 16 bytes before the image bytes
are taken as two 8-byte fields (log entry 17). -/
def execRecoveryWrite (s : State) : Res :=
  mboxOp s 0x10 true false fun req s =>
    let n := fieldB req 0 8
    if 2 ≤ n ∨ req.length < 16 ∨ 16384 < req.length then (s, 3, [])
    else if slotWritable (s.slotOf n) then (s.slotWrite n (fieldB req 8 8) (req.drop 16), 0, [])
    else (s, 3, [])

/-- RECOVERY_CHECK (Table 15-9): the R333 reason; the slot becomes STAGED on success. -/
def execRecoveryCheck (sigOk : Bool) (s : State) : Res :=
  mboxOp s 0x11 true false fun req s =>
    let n := fieldB req 0 4
    if 2 ≤ n ∨ (s.slotOf n).state ≠ slotWriting then (s, 3, [])
    else
      let s := s.judgeSlot n sigOk
      (s, 0, [(s.slotOf n).reason.setWidth 8])

/-- The owner key's bytes before the 32-byte pod root of a request. -/
def enrollSplit (req : List Byte) : List Byte × List Byte := (req.take (req.length - 32), req.drop (req.length - 32))

/-- OWNER_ENROLL through the mailbox (Table 15-9, R354); over MCTP on I3C the firmware serves it too. -/
def execMboxOwnerEnroll (s : State) : Res :=
  mboxOp s 0x12 true true fun req s =>
    if req.length < 33 then (s, 3, [])
    else if s.flash.owned then (s.authFail 5, 3, [])
    else (s.enroll (enrollSplit req).1 (enrollSplit req).2, 0, [])

/-! ### I3C (R401) -/

/-- A common command is answered by a target with a dynamic address. -/
def i3cReply (s : State) (bytes : List Byte) : Res :=
  doIf (s.pwr.aux && s.mgmt.dynAddr.isSome) s (s.emit (.i3c bytes))

/-- The provisioned ID (R401), most significant byte first on the bus: [47:33] 0x5A4D, [32] 0, [31:0]
the first 4 bytes of the unit identity digest. -/
def State.pid (s : State) : List Byte :=
  (leBytes 6 (0x5A4D * 2 ^ 33 + s.sec.unitId.toNat % 2 ^ 32)).reverse

/-- ENTDAA: the target sends its ID, BCR and DCR and takes the address. -/
def execEntdaa (addr : BitVec 7) (s : State) : Res :=
  doIf (s.pwr.aux && s.mgmt.dynAddr.isNone) s
    ({ s with mgmt := { s.mgmt with dynAddr := some addr } }.emit (.i3c (s.pid ++ [0x06, 0x00])))
/-- RSTDAA: the dynamic address is dropped. -/
def execRstdaa (s : State) : Res := doIf s.pwr.aux s { s with mgmt := { s.mgmt with dynAddr := none } }
/-- ENEC: bit 0 enables IBIs (I3C Basic, log entry 16). -/
def execEnec (mask : Byte) (s : State) : Res :=
  doIf s.pwr.aux s { s with mgmt := { s.mgmt with ibiEn := s.mgmt.ibiEn || mask.getLsbD 0 } }
/-- DISEC: bit 0 disables IBIs. -/
def execDisec (mask : Byte) (s : State) : Res :=
  doIf s.pwr.aux s { s with mgmt := { s.mgmt with ibiEn := s.mgmt.ibiEn && !mask.getLsbD 0 } }
def execGetpid (s : State) : Res := i3cReply s s.pid
def execGetbcr (s : State) : Res := i3cReply s [0x06]
def execGetdcr (s : State) : Res := i3cReply s [0x00]
/-- GETSTATUS: two bytes that the spec does not give (log entry 5). -/
def execGetstatus (s : State) : Res :=
  match s.pwr.aux && s.mgmt.dynAddr.isSome with
  | true => .next ({ s with free := s.free + 1 }.emit (.i3c [Config.freeByte s.free 0, Config.freeByte s.free 1]))
  | false => .next s
/-- The lengths are at most 256 bytes (R401). -/
def clampLen (n : BitVec 16) : BitVec 16 := if 256 < n.toNat then 256 else n
def execSetmwl (n : BitVec 16) (s : State) : Res :=
  doIf s.pwr.aux s { s with mgmt := { s.mgmt with mwl := clampLen n } }
def execSetmrl (n : BitVec 16) (s : State) : Res :=
  doIf s.pwr.aux s { s with mgmt := { s.mgmt with mrl := clampLen n } }
def execGetmwl (s : State) : Res := i3cReply s (leBytes 2 s.mgmt.mwl.toNat).reverse
def execGetmrl (s : State) : Res := i3cReply s ((leBytes 2 s.mgmt.mrl.toNat).reverse ++ [1])
/-- RSTACT: the reset action is kept for the next target reset pattern. -/
def execRstact (action : Byte) (s : State) : Res :=
  doIf s.pwr.aux s { s with mgmt := { s.mgmt with rstact := action } }

/-! ### MCTP control (R402) -/

/-- An MCTP answer; waiting over I3C it brings an IBI of 0x01 (R401). -/
def mctpReply (s : State) (cmd : Byte) (bytes : List Byte) : State :=
  let s := s.emit (.mctp cmd bytes)
  if s.mgmt.ibiEn && s.mgmt.dynAddr.isSome then s.emit (.ibi 1) else s

/-- Message types carried (R402): in hold state 1 only 0 and 0x7F. -/
def State.mctpTypes (s : State) : List Byte := if s.cast.hold = 1 then [0, 0x7F] else [0, 5, 6, 0x7F]

/-- Set Endpoint ID: 0 and 0xFF are no endpoint IDs (DSP0236, log entry 16). -/
def execSetEndpointId (eid : Byte) (s : State) : Res :=
  doIf s.pwr.aux s
    (if eid = 0 ∨ eid = 0xFF then mctpReply s 1 [2]
     else mctpReply { s with mgmt := { s.mgmt with eid := eid } } 1 [0, 0, eid, 0])
def execGetEndpointId (s : State) : Res := doIf s.pwr.aux s (mctpReply s 2 [0, s.mgmt.eid, 0, 0])
/-- Get Endpoint UUID: 16 bytes that the spec does not give (log entry 9). -/
def execGetEndpointUuid (s : State) : Res := doIf s.pwr.aux s (mctpReply s 3 (0 :: Config.document 1))
/-- Get MCTP Version Support: 1.3 for a type carried. -/
def execGetMctpVersionSupport (type : Byte) (s : State) : Res :=
  doIf s.pwr.aux s
    (if s.mctpTypes.contains type then mctpReply s 4 [0, 1, 0xF1, 0xF3, 0xFF, 0] else mctpReply s 4 [0x80])
def execGetMessageTypeSupport (s : State) : Res :=
  doIf s.pwr.aux s (mctpReply s 5 (0 :: BitVec.ofNat 8 s.mctpTypes.length :: s.mctpTypes))

end Sys2Proof.Machine
end

