-- ==== Sys2Proof/Machine/Aes.lean ====
section
/-! DEFINITION. AES-256 (FIPS 197) in the XTS mode (SP 800-38E), which Table 0-7 names: the cipher of storage exports
(11, R296). -/

namespace Sys2Proof.Machine

/-! ### The field of the cipher: GF(2^8) with x^8 + x^4 + x^3 + x + 1 -/

/-- A field element times x. -/
def aesDouble (a : Byte) : Byte := if a.getLsbD 7 then (a <<< 1) ^^^ 0x1B else a <<< 1
/-- A product of field elements. -/
def aesMul (a b : Byte) : Byte :=
  ((List.range 8).foldl (fun (p : Byte × Byte) i => (if b.getLsbD i then p.1 ^^^ p.2 else p.1, aesDouble p.2)) ((0 : Byte), a)).1
/-- The powers x^2, x^4, ..., x^128 of an element multiplied together: its inverse, and 0 of 0. -/
def aesInv (a : Byte) : Byte :=
  ((List.range 7).foldl (fun (p : Byte × Byte) _ => let q := aesMul p.2 p.2; (aesMul p.1 q, q)) ((1 : Byte), a)).1
/-- The substitution of a byte, and its inverse. -/
def aesSub (a : Byte) : Byte :=
  let b := aesInv a
  b ^^^ b.rotateLeft 1 ^^^ b.rotateLeft 2 ^^^ b.rotateLeft 3 ^^^ b.rotateLeft 4 ^^^ 0x63
def aesUnsub (a : Byte) : Byte := aesInv (a.rotateLeft 1 ^^^ a.rotateLeft 3 ^^^ a.rotateLeft 6 ^^^ 0x05)

/-! ### The cipher on blocks of 16 bytes, byte 4c + r in column c and row r -/

/-- Byte by byte. -/
def xorBytes (a b : List Byte) : List Byte := List.zipWith (· ^^^ ·) a b
/-- The rows turn left by their number, and right. -/
def aesShift (a : List Byte) : List Byte := (List.range 16).map (fun i => nth a ((i + 4 * (i % 4)) % 16) 0)
def aesUnshift (a : List Byte) : List Byte := (List.range 16).map (fun i => nth a ((i + 16 - 4 * (i % 4)) % 16) 0)
/-- The columns times a circulant matrix with the given first row. -/
def aesMix (row : List Byte) (a : List Byte) : List Byte :=
  (List.range 16).map (fun i => (List.range 4).foldl (fun (acc : Byte) k =>
    acc ^^^ aesMul (nth row ((k + 4 - i % 4) % 4) 0) (nth a (4 * (i / 4) + k) 0)) 0)

/-- `n` more words of the key schedule, the words so far newest first. -/
def aesExpand : Nat → List (List Byte) → List (List Byte)
  | 0, ws => ws
  | n + 1, ws =>
    let i := ws.length
    let t := nth ws 0 []
    let u :=
      if i % 8 = 0 then xorBytes ((t.drop 1 ++ t.take 1).map aesSub) [(1 : Byte) <<< (i / 8 - 1), 0, 0, 0]
      else if i % 8 = 4 then t.map aesSub else t
    aesExpand n (xorBytes (nth ws 7 []) u :: ws)

/-- The 15 round keys of a key of 32 bytes. -/
def aesKeys (key : List Byte) : List (List Byte) :=
  let ws := (aesExpand 52 ((List.range 8).map (fun i => sliceB key (4 * i) 4)).reverse).reverse
  (List.range 15).map (fun r => ((ws.drop (4 * r)).take 4).flatten)

/-- A block is enciphered: 13 rounds, and one without the mixing. -/
def aesEnc (ks : List (List Byte)) (block : List Byte) : List Byte :=
  let a := (List.range 13).foldl (fun (a : List Byte) r =>
    xorBytes (aesMix [2, 3, 1, 1] (aesShift (a.map aesSub))) (nth ks (r + 1) [])) (xorBytes block (nth ks 0 []))
  xorBytes (aesShift (a.map aesSub)) (nth ks 14 [])
/-- A block is deciphered. -/
def aesDec (ks : List (List Byte)) (block : List Byte) : List Byte :=
  let a := (List.range 13).foldl (fun (a : List Byte) r =>
    aesMix [14, 11, 13, 9] (xorBytes ((aesUnshift a).map aesUnsub) (nth ks (13 - r) []))) (xorBytes block (nth ks 14 []))
  xorBytes ((aesUnshift a).map aesUnsub) (nth ks 0 [])

/-! ### XTS -/

/-- The tweak of the next block: times α in GF(2^128), byte 0 lowest. -/
def xtsNext (t : BitVec 128) : BitVec 128 := if t.getLsbD 127 then (t <<< 1) ^^^ 0x87 else t <<< 1

/-- Whole blocks of a data unit pass through `f` under their tweaks. -/
def xtsBlocks (f : List Byte → List Byte) : Nat → BitVec 128 → List Byte → List Byte
  | 0, _, _ => []
  | n + 1, t, m =>
    let w := leBytes 16 t.toNat
    xorBytes (f (xorBytes (sliceB m 0 16) w)) w ++ xtsBlocks f n (xtsNext t) (m.drop 16)

/-- A data unit of whole blocks under a key pair of 64 bytes and a tweak, enciphered or deciphered. -/
def xts (pair : List Byte) (tweak : Nat) (decipher : Bool) (m : List Byte) : List Byte :=
  let ks := aesKeys (sliceB pair 0 32)
  let t := BitVec.ofNat 128 (leVal (aesEnc (aesKeys (sliceB pair 32 32)) (leBytes 16 tweak)))
  xtsBlocks (if decipher then aesDec ks else aesEnc ks) (m.length / 16) t m

end Sys2Proof.Machine
end

