-- ==== Sys2Proof/Machine/Memory.lean ====
section
/-! DEFINITION. The store, the stacks and the BAR2 window (06): line accesses, scrubbing, band ownership
and the host's window. -/

namespace Sys2Proof.Machine

/-! ### Lines and stack protection (R133 to R137) -/

/-- One unit is read: true where its data are good; an uncorrectable one is recorded and reported. -/
def State.readUnit (s : State) (u : Nat) (source : Byte) : State × Bool :=
  if s.unitBad u then (s.reportUe u source, false) else (s.fixUnit u, true)

/-- Corrections that the link ECC of LPDDR5X made on the way count on the line's stack (06,
MEMn.LINK_ECC, class E). -/
def State.linkFixed (s : State) (l n : Nat) : State :=
  if n = 0 then s
  else
    let (m, ks) := lineStacks l
    s.updStack m (ks.headD 0) fun x => { x with linkEcc := stickAdd x.linkEcc n }

/-- LINE_ACCESS (R132 to R136): one read, full write or read-modify-write, whole; `link` is the number of
corrections that link ECC made on the way. -/
def execLineAccess (addr : Nat) (data : Option (Nat × List Byte)) (link : Nat) (s : State) : Res :=
  match bandOf addr with
  | none => .next s
  | some b =>
    let l := unitOf addr
    if !(s.pwr.memory && decide ((s.band b).owner.toNat ≤ 8) && !(s.band b).busy && !(s.md (b / 20)).selfRefresh) then .next s
    else match data with
      | none => .next ((s.linkFixed l link).readUnit l 0).1
      | some (off, bytes) =>
        let d := sliceB bytes 0 (min bytes.length (lineSize - off % lineSize))
        .next ((s.linkFixed l link).writeRange (l + off % lineSize) d 1).1

/-- Lines of a memory die. -/
def linesOfDie : Nat := 20 * bandSize / lineSize

/-- MEMORY_SCRUB (R137): the next line is read and decoded; the last of a pass counts the pass. -/
def execMemoryScrub (md : Nat) (link : Nat) (s : State) : Res :=
  let m := s.md md
  if !(s.pwr.memory && decide (md < 8) && m.scrubEnable && !m.selfRefresh) then .next s
  else
    let l := md * (20 * bandSize) + m.scrubLine * lineSize
    let s1 := ((s.linkFixed l link).readUnit l 2).1
    if m.scrubLine + 1 < linesOfDie then .next (s1.updMd md fun x => { x with scrubLine := m.scrubLine + 1 })
    else
      let n := stickAdd m.scrubPass 1
      let s2 := s1.updMd md fun x => { x with
        scrubLine := 0, scrubPass := n, ovf := x.ovf || decide (n = stickMax 64), passInForce := x.passHours,
        stk := x.stk.map (fun p => (p.1, { p.2 with passCorr := [] })) }
      .next (s2.stuck (0x1000000 + 0x200000 * md + 0x408) m.scrubPass n)

/-- SELF_REFRESH_RETURN (R131): 1 ms after twin traffic ends in P3. -/
def execSelfRefreshReturn (md : Nat) (s : State) : Res :=
  match (s.md md).twinTraffic with
  | none => .next s
  | some t =>
    doIf (s.pwr.memory && decide (md < 8) && decide (s.pwr.mode = 3) && s.passed t 100000) s
      (s.updMd md fun x => { x with selfRefresh := true, twinTraffic := none })

/-! ### The store scrubber (R127) -/

/-- STORE_SCRUB (R127, R128): a word is visited, in a new pass where the scrubber comes round; one bit in error is
corrected and counted, more are uncorrectable. -/
def execStoreScrub (t : Nat) (word : Nat) (s : State) : Res :=
  let n := dieOfTile t
  if !(s.dieOn n && decide (t < 9600) && decide (word < 131072)) then .next s
  else
    let pos := t % 240 * 131072 + word
    let s1 := s.updDie n fun d =>
      { d with scrubRow := if pos ≤ d.scrubPos then [] else d.scrubRow, scrubPos := pos }
    .next (s1.readUnit (sliceAddr t + word * wordSize) 2).1

/-- SCRUB_ROW_REPORT (R127): a row with 8 corrected words in a pass goes on the field repair list. -/
def execScrubRowReport (die : Nat) (trow : Nat) (tcol : Nat) (sub : Nat) (row : Nat) (s : State) : Res :=
  let r := Repair.storeRow die trow tcol sub row
  let k := storeRowKey trow tcol sub row
  let list := s.flash.settings.fieldRepair
  doIf (s.pwr.aux && decide (8 ≤ tabGet (fun _ => 0) (s.die die).scrubRow k) && !list.contains r) s
    (({ s with flash := { s.flash with settings := { s.flash.settings with fieldRepair := list ++ [r] } } }).updDie die
      fun d => { d with repairPending := stickAdd d.repairPending 1 })

/-! ### Bands (R139) -/

/-- Every context of partition `p` is EMPTY. -/
def State.partEmpty (s : State) (p : Nat) : Bool :=
  s.ctxs.all (fun e => decide (partOfTile (e.1 / 4) ≠ p) || decide (e.2.mode = .empty))
/-- A transfer of partition `p` is in flight: of a context, or a MOVE. -/
def State.partBusy (s : State) (p : Nat) : Bool :=
  s.ctxs.any (fun e => decide (partOfTile (e.1 / 4) = p)
    && (e.2.mems.any (fun t => t.2.xfer.isSome) || e.2.fabs.any (fun t => t.2.xfer.isSome)))
    || (s.ring p).fetched.any (fun c => c.started && decide (blkOp c.block = 0x09))

/-- The owner of a band is written, here and in the flash record. A band is busy while its owner is under a
partition reset (R145). -/
def State.giveBand (s : State) (b : Nat) (o : BitVec 4) : State :=
  let off := decide (o.toNat < 8) && (s.part o.toNat).protOffActive
  let s1 := s.setBand b { s.band b with owner := o, protOff := off, busy := decide (o.toNat < 8) && (s.part o.toNat).resetting }
  { s1 with flash := { s1.flash with bands := tabSet (fun _ => (15 : BitVec 4)) s1.flash.bands b o } }

/-- Is a write of a band's owner accepted (R139)? -/
def State.bandAccept (s : State) (firmware : Bool) (b : Nat) (o : BitVec 4) : Bool :=
  let cur := (s.band b).owner
  if firmware then decide (cur = 15 ∧ o = 8 ∨ cur = 8 ∧ o = 15)
  else decide (cur = 15 ∧ o.toNat < 8)
    || (decide (cur.toNat < 8 ∧ o = 15) && s.partEmpty cur.toNat && !s.partBusy cur.toNat)

/-- A write of GATE.BAND.owner. -/
def State.writeBand (s : State) (firmware : Bool) (b : Nat) (o : BitVec 4) : State :=
  if o = (s.band b).owner then s
  else if s.bandAccept firmware b o then s.giveBand b o
  else { s with gate := { s.gate with bandRefused := stickAdd s.gate.bandRefused 1 } }

/-- BAND_OWNER_WRITE (R139). -/
def execBandOwnerWrite (firmware : Bool) (band : Nat) (owner : BitVec 4) (s : State) : Res :=
  doIf (s.pwr.aux && decide (band < 160)) s (s.writeBand firmware band owner)

/-! ### The BAR2 window (R149 to R151) -/

/-- Bytes of the window. -/
def State.bar2Size (s : State) : Nat := 2 ^ (30 + s.gate.bar2Log)
/-- The module address of a window offset: base bits below the window size are ignored. -/
def State.bar2Addr (s : State) (off : Nat) : Nat :=
  (s.gate.bar2Base.toNat / s.bar2Size * s.bar2Size + off) % 2 ^ 48
/-- The Gate answers the host's accesses to BAR2. -/
def State.hostUp (s : State) : Bool :=
  s.pwr.aux && s.gate.sig.perstN && decide (s.cast.hold ≠ 1)
/-- The host can reach BAR2 (R360). -/
def State.hostOpen (s : State) : Bool := s.hostUp && !s.ideBlocked
/-- A refusal, or a read ended by an error, is counted. -/
def State.bar2Count (s : State) : State :=
  { s with gate := { s.gate with bar2Err := stickAdd s.gate.bar2Err 1 } }

/-- Writes that wait for their line go to the memory die, each as a read-modify-write (R151). -/
def State.flushMerge (s : State) (m : Merge) : State :=
  m.writes.foldl (fun (s : State) w =>
    match s.writeRange (m.line + w.1) w.2 3 with
    | (s1, true) => s1
    | (s1, false) => s1.bar2Count) s

/-- Those of the waiting writes that `p` names go on, the others stay. -/
def State.flushWhere (s : State) (p : Merge → Bool) : State :=
  (s.gate.merge.filter p).foldl State.flushMerge
    { s with gate := { s.gate with merge := s.gate.merge.filter (fun m => !p m) } }

/-- BAR2_READ (R149, R150): the bytes, or Completer Abort, as for every read while IDE is required and not
up (R360). Writes posted before it go ahead of it. -/
def execBar2Read (off : Nat) (len : Nat) (s : State) : Res :=
  if !s.hostUp || decide (s.bar2Size < off + len) || decide (len = 0) then .next s
  else if s.ideBlocked then .next (s.emit .bar2Abort)
  else
    let s := s.flushWhere fun _ => true
    let a := s.bar2Addr off
    if !reachAll s.bar2Byte a len then .next (s.bar2Count.emit .bar2Abort)
    else match s.readRange a len 3 with
      | (s1, bytes, none) => .next (s1.emit (.bar2Data bytes))
      | (s1, _, some _) => .next (s1.bar2Count.emit .bar2Abort)

/-- Offsets of a line that a list of writes covers. -/
def mergeCovers (ws : List (Nat × List Byte)) (i : Nat) : Bool :=
  ws.any (fun w => decide (w.1 ≤ i ∧ i < w.1 + w.2.length))
/-- The byte that a list of writes leaves at an offset; later writes win. -/
def mergeByte (ws : List (Nat × List Byte)) (i : Nat) : Byte :=
  ws.foldl (fun b w => if w.1 ≤ i ∧ i < w.1 + w.2.length then nth w.2 (i - w.1) 0 else b) 0

/-- The part of a write that falls into one line (R151): a whole line is written at once, over what waits for that
line; a part waits 1 µs for the rest of its line. -/
def State.bar2Part (s : State) (a : Nat) (l : List Byte) : State :=
  let u := unitOf a
  if l.length = lineSize then
    (({ s with gate := { s.gate with merge := s.gate.merge.filter (fun m => decide (m.line ≠ u)) } } : State).writeRange a l 3).1
  else
    let s := s.flushWhere fun m => decide (m.line = u) && s.passed m.first 101
    let old := s.gate.merge.find? (fun m => decide (m.line = u))
    let ws := (old.map (·.writes)).getD [] ++ [(a - u, l)]
    let first := (old.map (·.first)).getD s.tb
    let rest := s.gate.merge.filter (fun m => decide (m.line ≠ u))
    if (List.range lineSize).all (mergeCovers ws) then
      (({ s with gate := { s.gate with merge := rest } }).writeRange u
        ((List.range lineSize).map (mergeByte ws)) 3).1
    else { s with gate := { s.gate with merge := rest ++ [{ line := u, writes := ws, first := first }] } }

/-- BAR2_WRITE (R149 to R151, R128): refused writes, and store writes that a bad word stops, are
discarded and counted. -/
def execBar2Write (off : Nat) (bytes : List Byte) (s : State) : Res :=
  if !s.hostOpen || decide (s.bar2Size < off + bytes.length) || bytes.isEmpty then .next s
  else
    let a := s.bar2Addr off
    if !reachAll s.bar2Byte a bytes.length then .next s.bar2Count
    else if sliceBase ≤ a then
      match s.writeRange a bytes 3 with
      | (s1, true) => .next s1
      | (s1, false) => .next s1.bar2Count
    else
      .next ((unitsOf a bytes.length).foldl (fun (s : State) u =>
        s.bar2Part (unitPart a bytes u).1 (unitPart a bytes u).2) s)

/-- BAR2_MERGE_TIMEOUT (R151): 1 µs after the first write to a line. -/
def execBar2MergeTimeout (s : State) : Res :=
  doIf s.pwr.aux s (s.flushWhere fun m => s.passed m.first 100)

end Sys2Proof.Machine
end

