-- ==== Sys2Proof/Machine/Flags.lean ====
section
/-! DEFINITION. The sticky flags of a context (R121, Table 5-7). -/

namespace Sys2Proof.Machine

/-- invalid, overflow, underflow, inexact and ht2_reserved, bit 0 first. -/
abbrev FlagSet := BitVec 5
def flNone : FlagSet := 0
def flInvalid : FlagSet := 1
def flOverflow : FlagSet := 2
def flUnderflow : FlagSet := 4
def flInexact : FlagSet := 8
def flHt2 : FlagSet := 16

/-- A flag where a condition holds. -/
def flIf (c : Bool) (f : FlagSet) : FlagSet := if c then f else 0

/-- The flags that a list of results raise together. -/
def flAll (l : List FlagSet) : FlagSet := l.foldl (· ||| ·) 0

/-- Flags are only ever set by an operation (R121). -/
def Ctx.raise (x : Ctx) (f : FlagSet) : Ctx := { x with flags := x.flags ||| f }

/-- `sys.clrflags` clears the flags that the mask names. -/
def Ctx.clearFlags (x : Ctx) (mask : FlagSet) : Ctx := { x with flags := x.flags &&& ~~~ mask }

end Sys2Proof.Machine
end

