-- ==== Sys2Proof/Machine/Float.lean ====
section
/-! DEFINITION. Number formats, rounding, the stochastic generator and the exact arithmetic of the tiles
(05). Magnitudes are exact: `m × 2^e` with natural `m`. -/

namespace Sys2Proof.Machine

/-- The value of a float operand. -/
inductive FVal where
  | nan (signalling : Bool)
  | inf (neg : Bool)
  | fin (neg : Bool) (m : Nat) (e : Int)
  deriving DecidableEq, Repr

/-- What the all-ones exponent means: infinities and NaNs as in IEEE 754, the one NaN of E4M3, or
nothing special. -/
inductive FKind where
  | ieee | e4m3 | plain
  deriving DecidableEq, Repr

/-- A floating format of Table 5-1: widths, bias, largest finite value as `maxM × 2^(emax − fb)`. -/
structure Fmt where
  eb : Nat
  fb : Nat
  bias : Nat
  kind : FKind
  emax : Int
  maxM : Nat
  /-- an MX element: NaNs are quiet, results saturate, FTZ does not apply (R107, R108, R118) -/
  mx : Bool
  deriving DecidableEq, Repr

def f32 : Fmt := ⟨8, 23, 127, .ieee, 127, 2 ^ 24 - 1, false⟩
def bf16 : Fmt := ⟨8, 7, 127, .ieee, 127, 2 ^ 8 - 1, false⟩
def f16 : Fmt := ⟨5, 10, 15, .ieee, 15, 2 ^ 11 - 1, false⟩
def e2m1 : Fmt := ⟨2, 1, 1, .plain, 2, 3, true⟩
def e4m3 : Fmt := ⟨4, 3, 7, .e4m3, 8, 14, true⟩
def e5m2 : Fmt := ⟨5, 2, 15, .ieee, 15, 7, true⟩

/-- Bits of the format less the sign. -/
def Fmt.signAt (f : Fmt) : Nat := f.eb + f.fb
/-- Smallest normal exponent. -/
def Fmt.emin (f : Fmt) : Int := 1 - (f.bias : Int)
/-- The canonical quiet NaN (R107). -/
def Fmt.qnan (f : Fmt) : Nat := (2 ^ f.eb - 1) * 2 ^ f.fb + 2 ^ (f.fb - 1)
def Fmt.infBits (f : Fmt) : Nat := (2 ^ f.eb - 1) * 2 ^ f.fb
/-- Magnitude bits of the largest finite value. -/
def Fmt.maxBits (f : Fmt) : Nat := (f.emax - f.emin).toNat * 2 ^ f.fb + f.maxM

/-- The value of a bit pattern (R104); subnormals read at their value (R108). -/
def Fmt.decode (f : Fmt) (x : Nat) : FVal :=
  let neg := x / 2 ^ f.signAt % 2 = 1
  let e := x / 2 ^ f.fb % 2 ^ f.eb
  let m := x % 2 ^ f.fb
  if f.kind = .ieee ∧ e = 2 ^ f.eb - 1 then
    if m = 0 then .inf neg else .nan (!f.mx && decide (m / 2 ^ (f.fb - 1) = 0))
  else if f.kind = .e4m3 ∧ e = 2 ^ f.eb - 1 ∧ m = 2 ^ f.fb - 1 then .nan false
  else if e = 0 then .fin neg m (f.emin - f.fb)
  else .fin neg (2 ^ f.fb + m) ((e : Int) - f.bias - f.fb)

/-- Rounding modes, Table 5-4. -/
inductive RMode where
  | nearest | zero | stochastic
  deriving DecidableEq, Repr

/-- The mode of a context's rm field (R62 init, sys.setrm). -/
def rmodeOf (n : Nat) : RMode := if n = 0 then .nearest else if n = 1 then .zero else .stochastic
/-- The mode that an rnd field and the context's mode give (R87). -/
def rmodeRnd (rnd : Nat) (ctx : BitVec 2) : RMode := if rnd = 0 then rmodeOf ctx.toNat else rmodeOf (rnd - 1)

/-- `m × 2^e` rounded to a multiple of `2^q` (R110, R113): the multiple, whether it is inexact, and
whether it moved away from zero. -/
def roundUnit (mode : RMode) (r : Nat) (m : Nat) (e q : Int) : Nat × Bool × Bool :=
  if q ≤ e then (m * 2 ^ (e - q).toNat, false, false)
  else
    let k := 2 ^ (q - e).toNat
    let t := m / k
    let rem := m % k
    let up : Bool := match mode with
      | .nearest => decide (k < 2 * rem) || (decide (2 * rem = k) && decide (t % 2 = 1))
      | .zero => false
      | .stochastic => decide (r < rem * 65536 / k)
    (if up then t + 1 else t, decide (rem ≠ 0), up)

/-- `m × 2^e` exceeds `n × 2^q`. -/
def gtAt (m : Nat) (e : Int) (n : Nat) (q : Int) : Bool :=
  if q ≤ e then decide (n < m * 2 ^ (e - q).toNat) else decide (n * 2 ^ (q - e).toNat < m)

/-- Floor of the base-2 logarithm of a non-zero `m × 2^e`. -/
def ilog2 (m : Nat) (e : Int) : Int := (Nat.log2 m : Int) + e

/-- Sign bit of a format. -/
def Fmt.sign (f : Fmt) (neg : Bool) : Nat := if neg then 2 ^ f.signAt else 0

/-- A finite non-zero magnitude rounded once into a format (R108, R110, Table 5-4), with the flags it
raises. -/
def Fmt.roundFin (f : Fmt) (mode : RMode) (ftz : Bool) (r : Nat) (neg : Bool) (m : Nat) (e : Int) :
    Nat × FlagSet :=
  let l := ilog2 m e
  let q := max l f.emin - f.fb
  let (n, inexact, away) := roundUnit mode r m e q
  let qmax := f.emax - f.fb
  if gtAt n q f.maxM qmax || (decide (mode = .stochastic) && gtAt m e f.maxM qmax) then
    let sat := f.mx || decide (f.kind ≠ .ieee) || decide (mode = .zero)
      || (decide (mode = .stochastic) && !away && decide (l ≤ f.emax))
    (f.sign neg + (if sat then f.maxBits else f.infBits), flOverflow ||| flInexact)
  else
    let tiny : Bool := inexact && decide (ilog2 (roundUnit mode r m e (l - f.fb)).1 (l - f.fb) < f.emin)
    let fl := flIf inexact flInexact ||| flIf tiny flUnderflow
    if ftz && !f.mx && decide (n ≠ 0) && decide (ilog2 n q < f.emin) then
      (f.sign neg, fl ||| flUnderflow ||| flInexact)
    else (f.sign neg + ((q - (f.emin - f.fb)).toNat * 2 ^ f.fb + n), fl)

/-- A value rounded once into a format (R107, R110). -/
def Fmt.round (f : Fmt) (mode : RMode) (ftz : Bool) (r : Nat) : FVal → Nat × FlagSet
  | .nan sig => (f.qnan, flIf sig flInvalid)
  | .inf neg => (f.sign neg + (if f.mx then f.maxBits else f.infBits), 0)
  | .fin neg m e => if m = 0 then (f.sign neg, 0) else f.roundFin mode ftz r neg m e

/-- A value rounded to an integer of `w` bits, saturating with invalid (R88, R120). -/
def FVal.toInt (v : FVal) (w : Nat) (signed : Bool) (mode : RMode) (r : Nat) : Nat × FlagSet :=
  let lo : Int := if signed then -(2 ^ (w - 1) : Int) else 0
  let hi : Int := if signed then 2 ^ (w - 1) - 1 else 2 ^ w - 1
  let put (n : Int) : Nat := (BitVec.ofInt w n).toNat
  match v with
  | .nan _ => (0, flInvalid)
  | .inf neg => (put (if neg then lo else hi), flInvalid)
  | .fin neg m e =>
    let (n, inexact, _) := roundUnit mode r m e 0
    let i : Int := if neg then -(n : Int) else n
    if i < lo then (put lo, flInvalid) else if hi < i then (put hi, flInvalid)
    else (put i, flIf inexact flInexact)

/-- An integer as an exact value. -/
def FVal.ofInt (i : Int) : FVal := .fin (decide (i < 0)) i.natAbs 0

/-! ### Exact operations (R120) -/

/-- An exact dyadic number `n × 2^e`. -/
structure Dyad where
  n : Int
  e : Int
  deriving DecidableEq, Repr

def Dyad.add (a b : Dyad) : Dyad :=
  let e := min a.e b.e
  ⟨a.n * 2 ^ (a.e - e).toNat + b.n * 2 ^ (b.e - e).toNat, e⟩
def Dyad.of (neg : Bool) (m : Nat) (e : Int) : Dyad := ⟨if neg then -(m : Int) else m, e⟩
/-- A non-zero dyadic number, or the zero of the sign given. -/
def Dyad.val (d : Dyad) (negZero : Bool) : FVal :=
  if d.n = 0 then .fin negZero 0 d.e else .fin (decide (d.n < 0)) d.n.natAbs d.e

def FVal.isNan : FVal → Bool
  | .nan _ => true
  | _ => false
def FVal.isSig : FVal → Bool
  | .nan s => s
  | _ => false
def FVal.isZero : FVal → Bool
  | .fin _ m _ => decide (m = 0)
  | _ => false
def FVal.isInf : FVal → Bool
  | .inf _ => true
  | _ => false
def FVal.neg? : FVal → Bool
  | .nan _ => false
  | .inf n => n
  | .fin n _ _ => n
def FVal.negate : FVal → FVal
  | .nan s => .nan s
  | .inf n => .inf !n
  | .fin n m e => .fin (!n) m e

/-- Exact sum, and invalid where IEEE 754 raises it. -/
def fadd (a b : FVal) : FVal × FlagSet :=
  match a, b with
  | .nan s, y => (.nan false, flIf (s || y.isSig) flInvalid)
  | x, .nan s => (.nan false, flIf (s || x.isSig) flInvalid)
  | .inf m, .inf n => if m = n then (.inf m, 0) else (.nan false, flInvalid)
  | .inf m, .fin _ _ _ => (.inf m, 0)
  | .fin _ _ _, .inf n => (.inf n, 0)
  | .fin s m e, .fin s' m' e' =>
    (((Dyad.of s m e).add (Dyad.of s' m' e')).val (decide (m = 0) && decide (m' = 0) && s && s'), 0)

/-- Exact product. -/
def fmul (a b : FVal) : FVal × FlagSet :=
  if a.isNan || b.isNan then (.nan false, flIf (a.isSig || b.isSig) flInvalid)
  else
    let neg := a.neg? != b.neg?
    match a, b with
    | .fin _ m e, .fin _ m' e' => (.fin neg (m * m') (e + e'), 0)
    | x, y => if x.isZero || y.isZero then (.nan false, flInvalid) else (.inf neg, 0)

/-- Exact `a × b + c`; infinity times zero is invalid whatever the addend (R120). -/
def ffma (a b c : FVal) : FVal × FlagSet :=
  let (p, f) := fmul a b
  let (v, g) := fadd p c
  (v, f ||| g)

/-- Order of two values that are not NaN: `a` below `b`. -/
def flt (a b : FVal) : Bool :=
  match a, b with
  | .inf m, .inf n => m && !n
  | .inf m, _ => m
  | _, .inf n => !n
  | .fin s m e, .fin s' m' e' => decide (((Dyad.of s m e).add (Dyad.of (!s') m' e')).n < 0)
  | _, _ => false
/-- Equality of two values that are not NaN; zeros of both signs are equal. -/
def feq (a b : FVal) : Bool := !flt a b && !flt b a

/-- Minimum and maximum (R120): NaN where either is NaN, −0 below +0. -/
def fminmax (isMax : Bool) (a b : FVal) : FVal × FlagSet :=
  if a.isNan || b.isNan then (.nan false, flIf (a.isSig || b.isSig) flInvalid)
  else
    let below := flt a b || (feq a b && a.neg? && !b.neg?)
    (if below != isMax then a else b, 0)

/-- The compares of Table 4-8: eq, ne, lt, le, gt, ge, unordered (R120). -/
def fcmp (op : Nat) (a b : FVal) : Bool × FlagSet :=
  if a.isNan || b.isNan then
    if op = 0 ∨ op = 1 ∨ op = 6 then (decide (op ≠ 0), flIf (a.isSig || b.isSig) flInvalid)
    else (false, flInvalid)
  else
    (match op with
      | 0 => feq a b
      | 1 => !feq a b
      | 2 => flt a b
      | 3 => flt a b || feq a b
      | 4 => flt b a
      | 5 => flt b a || feq a b
      | _ => false, 0)

/-! ### The generator (R112 to R114) -/

/-- One step of the Galois register. -/
def genStep (s : Word) : Word := if s.getLsbD 0 then (s >>> 1) ^^^ 0xD800000000000000 else s >>> 1
/-- One draw: 64 steps. -/
def genDraw (s : Word) : Word := (List.range 64).foldl (fun x _ => genStep x) s
/-- The words of `n` draws, in order. -/
def genDraws : Nat → Word → List Word
  | 0, _ => []
  | n + 1, s => genDraw s :: genDraws n (genDraw s)
/-- The draws that `n` rounded results take (R113). -/
def drawsFor (n : Nat) : Nat := (n + 3) / 4
/-- The 16 bits that result `i` takes of the draws. -/
def drawBits (ds : List Word) (i : Nat) : Nat := (nth ds (i / 4) 0).toNat / 2 ^ (16 * (i % 4)) % 65536
/-- The generator after `n` draws. -/
def genAfter (n : Nat) (s : Word) : Word := (List.range n).foldl (fun x _ => genDraw x) s

/-! ### Elements of MX blocks (R105, R106, R118, R119) -/

/-- The value of an element, less its block's scale, by the codes of Table 4-9. -/
def elemVal (code : Nat) (bits : Nat) : FVal :=
  match code with
  | 0 => e2m1.decode bits
  | 1 => e4m3.decode bits
  | 2 => e5m2.decode bits
  | 3 => let n := (BitVec.ofNat 8 bits).toInt
         .fin (decide (n < 0)) n.natAbs (-6)
  | 4 => if bits % 4 = 1 then .fin false 1 0 else if bits % 4 = 3 then .fin true 1 0 else .fin false 0 0
  | 5 => bf16.decode bits
  | _ => f16.decode bits

/-- Bits of an element. -/
def elemBits (code : Nat) : Nat :=
  match code with
  | 0 => 4
  | 1 => 8
  | 2 => 8
  | 3 => 8
  | 4 => 2
  | _ => 16

/-- A block sum of R115 and R117 in the making. -/
structure BlockSum where
  nan : Bool := false
  pinf : Bool := false
  ninf : Bool := false
  sum : Dyad := ⟨0, 0⟩
  fl : FlagSet := 0
  deriving DecidableEq, Repr

/-- One product of a weight and an activation enters a block (R115, R117). -/
def BlockSum.step (b : BlockSum) (w a : FVal) : BlockSum :=
  let (p, f) := fmul w a
  match p with
  | .nan _ => { b with nan := true, fl := b.fl ||| f }
  | .inf neg => { b with pinf := b.pinf || !neg, ninf := b.ninf || neg, fl := b.fl ||| f }
  | .fin neg m e => { b with sum := b.sum.add (Dyad.of neg m e), fl := b.fl ||| f }

/-- The value of a block under its two scales (0 for none): a 0xFF scale makes it NaN, and infinities of
both signs make it NaN and set invalid. -/
def BlockSum.value (b : BlockSum) (nanScale : Bool) (scale : Int) : FVal × FlagSet :=
  if nanScale then (.nan false, b.fl)
  else if b.pinf && b.ninf then (.nan false, b.fl ||| flInvalid)
  else if b.nan then (.nan false, b.fl)
  else if b.pinf then (.inf false, b.fl)
  else if b.ninf then (.inf true, b.fl)
  else (({ b.sum with e := b.sum.e + scale } : Dyad).val false, b.fl)

/-- A block of 32 products. -/
def blockOf (ws as : List FVal) : BlockSum := (ws.zip as).foldl (fun b p => b.step p.1 p.2) {}

/-- A finite value that rounds to nearest even beyond binary32 range (R117). -/
def FVal.beyond : FVal → Bool
  | .fin neg m e => decide (m ≠ 0) && decide ((f32.roundFin .nearest false 0 neg m e).1 = f32.sign neg + f32.infBits)
  | _ => false
def FVal.finite : FVal → Bool
  | .fin _ _ _ => true
  | _ => false

/-- One addition of a block value into an accumulator (R111, R116, R117): nearest even whatever the
modes; a zero block leaves a number unchanged. A block value beyond binary32 range overflows whatever finite
number it is added to (R117); to an infinity it adds as any finite value does. -/
def accAdd (ftz : Bool) (acc : Nat) (v : FVal) : Nat × FlagSet :=
  let a := f32.decode acc
  if v.isZero && !a.isNan then (acc, 0)
  else if v.beyond && a.finite then f32.round .nearest ftz 0 v
  else
    let (x, f) := fadd a v
    let (n, g) := f32.round .nearest ftz 0 x
    (n, f ||| g)

/-! ### Quantising (R118, R119) -/

/-- The largest exponent E of R118 and the element format; 3 is MXINT8. -/
def mxE (code : Nat) : Int := match code with | 0 => 2 | 1 => 8 | 2 => 15 | _ => 0
def mxFmt (code : Nat) : Fmt := match code with | 0 => e2m1 | 1 => e4m3 | _ => e5m2

/-- The magnitude `m × 2^e` of a finite value. -/
def FVal.mag : FVal → Nat × Int
  | .fin _ m e => (m, e)
  | _ => (0, 0)

/-- One element at scale exponent `x`: its bits, its flags (inexact, and underflow where a non-zero lane
becomes a zero element), and whether it was limited to the largest magnitude. -/
def quantElem (code : Nat) (x : Int) (mode : RMode) (r : Nat) (v : FVal) : Nat × FlagSet × Bool :=
  let (m, e) := v.mag
  let neg := v.neg?
  if m = 0 then (if code = 3 then 0 else (mxFmt code).sign neg, 0, false)
  else if code = 3 then
    let (n, inexact, _) := roundUnit mode r m (e + 6 - x) 0
    let big : Bool := 127 ≤ n
    let n' := min n 127
    ((BitVec.ofInt 8 (if neg then -(n' : Int) else n')).toNat,
      flIf (inexact || decide (127 < n)) flInexact ||| flIf (decide (n' = 0)) flUnderflow, big)
  else
    let f := mxFmt code
    let (b, fl) := f.round mode false r (.fin neg m (e - x))
    let zero : Bool := b % 2 ^ f.signAt = 0
    (b, (fl &&& flInexact) ||| flIf zero flUnderflow, decide (b % 2 ^ f.signAt = f.maxBits))

/-- A block of 32 lanes quantised (R118): the scale byte, the elements and the flags; `r i` is what
rounded result `i` takes of the draws. -/
def quantBlock (code : Nat) (mode : RMode) (r : Nat → Nat) (vs : List FVal) : Nat × List Nat × FlagSet :=
  if vs.any (fun v => v.isNan || v.isInf) then (255, vs.map (fun _ => 0), flInvalid)
  else if vs.all FVal.isZero then
    (0, vs.map (fun v => if code = 3 then 0 else (mxFmt code).sign v.neg?), 0)
  else
    let top : Int := (vs.filter (fun v => !v.isZero)).foldl
      (fun (a : Int) v => max a (ilog2 v.mag.1 v.mag.2)) (-1000)
    let x0 := top - mxE code
    let x := max (-127) (min 127 x0)
    let es := (vs.zipIdx).map (fun p => quantElem code x mode (r p.2) p.1)
    ((x + 127).toNat, es.map (·.1),
      flAll (es.map (·.2.1)) ||| flIf (decide (127 < x0) && es.any (·.2.2)) flOverflow)

/-- An element under its scale byte as binary32 (R119). -/
def dequant (code scale bits : Nat) (ftz : Bool) : Nat × FlagSet :=
  if scale = 255 then (f32.qnan, 0)
  else match elemVal code bits with
    | .fin neg m e => f32.round .nearest ftz 0 (.fin neg m (e + scale - 127))
    | v => ((f32.round .nearest ftz 0 v).1, 0)

end Sys2Proof.Machine
end

