-- ==== Sys2Proof/Machine/Vfn.lean ====
section
/-! DEFINITION. Elementary functions of the vector unit (04, R89; 05, R120): the correctly rounded value,
and what `vfn` delivers within 2 units in the last place of it. -/

namespace Sys2Proof.Machine

/-! ### Values in fixed point, far finer than binary32 -/

/-- Fraction bits of the fixed-point values. -/
def vfnQ : Nat := 200
/-- One. -/
def vfnOne : Nat := 2 ^ vfnQ
/-- The natural logarithm of 2. -/
def vfnLn2 : Nat := (List.range (vfnQ + 4)).foldl (fun a i => a + vfnOne / ((i + 1) * 2 ^ (i + 1))) 0

/-- The exponential of `y` between 0 and 1. -/
def vfnExp (y : Nat) : Nat :=
  ((List.range 60).foldl (fun (p : Nat × Nat) i =>
    let t := p.2 * y / ((i + 1) * vfnOne)
    (p.1 + t, t)) (vfnOne, vfnOne)).1

/-- `m × 2^e` in fixed point, cut off below. -/
def vfnFix (m : Nat) (e : Int) : Nat :=
  if 0 ≤ e + vfnQ then m * 2 ^ (e + vfnQ).toNat else m / 2 ^ (-(e + vfnQ)).toNat

/-- The exponential of a magnitude `a` below 512: a mantissa and the power of two it is times. -/
def vfnExpBig (a : Nat) : Nat × Nat := (vfnExp (a % vfnLn2), a / vfnLn2)

/-- Integer square root by its bits, from bit `n` down. -/
def vfnSqrt (v : Nat) : Nat → Nat → Nat
  | 0, r => r
  | n + 1, r =>
    let c := r + 2 ^ n
    vfnSqrt v n (if c * c ≤ v then c else r)

/-- A quotient or root with a last bit that says that something was cut off. -/
def vfnSticky (q : Nat) (exact : Bool) : Nat := 2 * q + (if exact then 0 else 1)

/-- 2 to the power of `±m × 2^e`; beyond 2^±1000 the power is 2^±1000. -/
def vfnExp2 (neg : Bool) (m : Nat) (e : Int) : FVal :=
  if 10 ≤ ilog2 m e then .fin false 1 (if neg then -1000 else 1000)
  else
    let x : Int := if neg then -(vfnFix m e : Int) else vfnFix m e
    let f := (x % (vfnOne : Int)).toNat
    .fin false (vfnExp (f * vfnLn2 / vfnOne)) (x / (vfnOne : Int) - vfnQ)

/-- The base-2 logarithm of `m × 2^e`: the exponent, and the series of the area hyperbolic tangent for the
fraction. -/
def vfnLog2 (m : Nat) (e : Int) : FVal :=
  let k := 2 ^ Nat.log2 m
  let z := (m - k) * vfnOne / (m + k)
  let ln := 2 * ((List.range 70).foldl (fun (p : Nat × Nat) i =>
    (p.1 + p.2 / (2 * i + 1), p.2 * z / vfnOne * z / vfnOne)) (0, z)).1
  let v : Int := ilog2 m e * (vfnOne : Int) + ((ln * vfnOne / vfnLn2 : Nat) : Int)
  .fin (decide (v < 0)) v.natAbs (-(vfnQ : Int))

/-- The reciprocal of `m × 2^e`. -/
def vfnRcp (neg : Bool) (m : Nat) (e : Int) : FVal :=
  .fin neg (vfnSticky (vfnOne / m) (decide (vfnOne % m = 0))) (-(vfnQ : Int) - e - 1)

/-- `m × 2^e` as a mantissa with an even exponent. -/
def vfnEven (m : Nat) (e : Int) : Nat × Int := if e % 2 = 0 then (m, e) else (2 * m, e - 1)

/-- The square root of `m × 2^e`. -/
def vfnRoot (m : Nat) (e : Int) : FVal :=
  let (m, e) := vfnEven m e
  let r := vfnSqrt (m * vfnOne) 120 0
  .fin false (vfnSticky r (decide (r * r = m * vfnOne))) (e / 2 - (vfnQ / 2 : Nat) - 1)

/-- The reciprocal square root of `m × 2^e`. -/
def vfnRsqrt (m : Nat) (e : Int) : FVal :=
  let (m, e) := vfnEven m e
  let q := vfnOne / m
  let r := vfnSqrt q 120 0
  .fin false (vfnSticky r (decide (r * r = q ∧ vfnOne % m = 0))) (-(e / 2) - (vfnQ / 2 : Nat) - 1)

/-- The hyperbolic tangent: a series near 0, 1 far out, else by the exponential of twice the operand. -/
def vfnTanh (neg : Bool) (m : Nat) (e : Int) : FVal :=
  if ilog2 m e < -12 then
    let y := vfnFix (m * m) (2 * e)
    let c := 315 * vfnOne + 42 * (y * y / vfnOne) - 105 * y - 17 * (y * y / vfnOne * y / vfnOne)
    .fin neg (m * c * 2 ^ 16 / 315) (e - vfnQ - 16)
  else if 5 ≤ ilog2 m e then .fin neg 1 0
  else
    let (x, n) := vfnExpBig (2 * vfnFix m e)
    let x := x * 2 ^ n
    .fin neg ((x - vfnOne) * vfnOne / (x + vfnOne)) (-(vfnQ : Int))

/-- The logistic sigmoid: 1 or next to nothing far out, else by the exponential of the magnitude. -/
def vfnSigmoid (neg : Bool) (m : Nat) (e : Int) : FVal :=
  if 8 ≤ ilog2 m e then (if neg then .fin false 1 (-1000) else .fin false 1 0)
  else
    let (x, n) := vfnExpBig (vfnFix m e)
    let x := x * 2 ^ n
    if neg then .fin false (vfnOne * 2 ^ 400 / (x + vfnOne)) (-400)
    else .fin false (x * vfnOne / (x + vfnOne)) (-(vfnQ : Int))

/-- The value of function `f` at a finite operand other than those of `vfnFixed`. -/
def vfnValue (f : Nat) (neg : Bool) (m : Nat) (e : Int) : FVal :=
  if m = 0 then (if f = 0 then .fin false 1 0 else .fin false 1 (-1))
  else match f with
    | 0 => vfnExp2 neg m e
    | 1 => vfnLog2 m e
    | 2 => vfnRcp neg m e
    | 3 => vfnRsqrt m e
    | 4 => vfnRoot m e
    | 5 => vfnTanh neg m e
    | _ => vfnSigmoid neg m e

/-! ### What is delivered -/

/-- The cases of `vfn` that R120 fixes or that are exact limits; none where the value is only bounded
to 2 ulp. -/
def vfnFixed (f : Nat) (v : FVal) : Option (Nat × FlagSet) :=
  match v with
  | .nan s => some (f32.qnan, flIf s flInvalid)
  | .inf neg =>
    match f with
    | 0 => some (if neg then 0 else f32.infBits, 0)
    | 1 => some (if neg then (f32.qnan, flInvalid) else (f32.infBits, 0))
    | 2 => some (f32.sign neg, 0)
    | 3 => some (if neg then (f32.qnan, flInvalid) else (0, 0))
    | 4 => some (if neg then (f32.qnan, flInvalid) else (f32.infBits, 0))
    | 5 => some (f32.sign neg + 0x3F800000, 0)
    | _ => some (if neg then 0 else 0x3F800000, 0)
  | .fin neg m _ =>
    if m = 0 then
      match f with
      | 1 => some (f32.sign true + f32.infBits, 0)
      | 2 => some (f32.sign neg + f32.infBits, 0)
      | 3 => some (f32.sign neg + f32.infBits, 0)
      | 4 => some (f32.sign neg, 0)
      | 5 => some (f32.sign neg, 0)
      | _ => none
    else if neg ∧ (f = 1 ∨ f = 3 ∨ f = 4) then some (f32.qnan, flInvalid)
    else none

/-- The binary32 magnitudes and signs in order: the bits as a number on a line, -0 and +0 at 0. -/
def vfnPlace (x : Nat) : Int := if 2 ^ 31 ≤ x then -((x - 2 ^ 31 : Nat) : Int) else x
/-- The bits at a place on the line, no further out than the infinities; at 0 the sign given. -/
def vfnBits (p : Int) (negZero : Bool) : Nat :=
  let m := min p.natAbs f32.infBits
  f32.sign (if p = 0 then negZero else decide (p < 0)) + m

/-- The correctly rounded value at a finite operand. -/
def vfnBest (f : Nat) (neg : Bool) (m : Nat) (e : Int) : Nat :=
  (f32.round .nearest false 0 (vfnValue f neg m e)).1

/-- The result for a finite operand that R120 does not fix: within 2 units in the last place of the
correctly rounded value (R89). Which of the values in reach is free (log entry 7). -/
def vfnNear (f : Nat) (x : Nat) (neg : Bool) (m : Nat) (e : Int) : Nat :=
  let free := Config.vfn (BitVec.ofNat 6 f) (BitVec.ofNat 32 x)
  vfnBits (vfnPlace (vfnBest f neg m e) + max (-2) (min 2 free.1)) free.2

/-- The operands whose value a subnormal can hold exactly: an integer power of two, and the reciprocal of
a power of two. -/
def vfnExact (f : Nat) (m : Nat) (e : Int) : Bool :=
  match f with
  | 0 => decide (0 ≤ e) || decide (m % 2 ^ (-e).toNat = 0)
  | 2 => decide (m = 2 ^ m.log2)
  | _ => false

/-- `vfn` on one lane: overflow and underflow go by the delivered value, underflow where it is tiny and
not exact, and a flush under R108 sets underflow and inexact (R120). -/
def vfnLane (f : Nat) (ftz : Bool) (x : Nat) : Nat × FlagSet :=
  match vfnFixed f (f32.decode x), f32.decode x with
  | some r, _ => r
  | none, .fin neg m e =>
    let y := vfnNear f x neg m e
    let mag := y % 2 ^ 31
    let sub : Bool := decide (0 < mag ∧ mag < 2 ^ 23)
    let exact : Bool := vfnExact f m e && decide (y = vfnBest f neg m e)
    let lost : Bool := decide (mag = 0) && decide ((vfnValue f neg m e).isZero = false)
    if sub && ftz then (f32.sign (decide (2 ^ 31 ≤ y)), flUnderflow ||| flInexact)
    else (y, flIf (decide (mag = f32.infBits)) flOverflow ||| flIf (sub && !exact || lost) flUnderflow)
  | none, _ => (f32.qnan, 0)

end Sys2Proof.Machine
end

