-- ==== Sys2Proof/Machine/Vec.lean ====
section
/-! DEFINITION. Vector instructions (04, Table 4-8; 05). -/

namespace Sys2Proof.Machine

/-! ### Lanes -/

/-- Lane `i` of width `w`. -/
def laneGet (w : Nat) (v : Vec) (i : Nat) : Nat := v.toNat / 2 ^ (w * i) % 2 ^ w
/-- The lanes of a register. -/
def lanesOf (w : Nat) (v : Vec) : List Nat := (List.range (2048 / w)).map (laneGet w v)
/-- Lanes packed from the lowest bits. -/
def packNat (w : Nat) (l : List Nat) : Nat := l.foldr (fun x acc => x % 2 ^ w + 2 ^ w * acc) 0
def packLanes (w : Nat) (l : List Nat) : Vec := BitVec.ofNat 2048 (packNat w l)
/-- `n` bits of a register at `lo` replaced. -/
def putBits (v : Vec) (lo n val : Nat) : Vec :=
  (v &&& ~~~ (BitVec.ofNat 2048 ((2 ^ n - 1) * 2 ^ lo))) ||| BitVec.ofNat 2048 (val % 2 ^ n * 2 ^ lo)

/-- The float format of a lane type. -/
def fmtOf (t : Nat) : Fmt := if t = 8 then bf16 else if t = 9 then f16 else f32
/-- The integer value of a lane of type `t`. -/
def laneInt (t n : Nat) : Int :=
  if typeSigned t then (BitVec.ofNat (typeWidth t) n).toInt else (n : Int)
/-- An integer as a lane of width `w`, wrapped. -/
def intLane (w : Nat) (i : Int) : Nat := (i % (2 ^ w : Int)).toNat

/-! ### Rounding in a context (R87, R101, R113, R114) -/

/-- The mode of an instruction with `n` rounded results, what each takes of the draws, and the context
with its generator advanced where the mode is stochastic. -/
def Ctx.rounding (x : Ctx) (rnd n : Nat) : RMode × (Nat → Nat) × Ctx :=
  let mode := rmodeRnd rnd x.rm
  if mode = .stochastic then
    let k := drawsFor n
    (mode, drawBits (genDraws k x.gen), { x with gen := genAfter k x.gen })
  else (mode, fun _ => 0, x)

/-- The results of lanes written to vd, with the flags they raise. -/
def Ctx.putLanes (x : Ctx) (d w : Nat) (rs : List (Nat × FlagSet)) : Ctx :=
  (x.setV d (packLanes w (rs.map (·.1)))).raise (flAll (rs.map (·.2)))

/-- A lane-wise operation on va and vb: integer lanes by `fi`, float lanes by the exact `ff` and one
rounding, which draws where `draw` holds. -/
def vecBin (fn : Nat) (draw : Bool) (fi : Nat → Int → Int → Int) (ff : FVal → FVal → FVal × FlagSet)
    (t : Nat) (o : Op) (s : State) : Res :=
  stageReg 0x10 fn t o s fun _ x =>
    let b := o.body
    let ty := xT (fX b)
    let w := typeWidth ty
    let ls := (lanesOf w (x.getV (fA b))).zip (lanesOf w (x.getV (fB b)))
    if typeFloat ty then
      let f := fmtOf ty
      let (mode, r, x1) := if draw then x.rounding (xRnd (fX b)) (typeLanes ty) else (.nearest, fun _ => 0, x)
      x1.putLanes (fD b) w ((ls.zipIdx).map fun p =>
        let (v, fl) := ff (f.decode p.1.1) (f.decode p.1.2)
        let (n, g) := f.round mode x.ftz (r p.2) v
        (n, fl ||| g))
    else x.putLanes (fD b) w (ls.map fun p => (intLane w (fi w (laneInt ty p.1) (laneInt ty p.2)), 0))


/-- VEC_VADD (R87, R120). -/
def execVecVadd (t : Nat) (o : Op) (s : State) : Res :=
  vecBin 0x00 true (fun _ a b => a + b) fadd t o s

/-- VEC_VSUB (R87, R120). -/
def execVecVsub (t : Nat) (o : Op) (s : State) : Res :=
  vecBin 0x01 true (fun _ a b => a - b) (fun a b => fadd a b.negate) t o s

/-- VEC_VMUL (R87, R120). -/
def execVecVmul (t : Nat) (o : Op) (s : State) : Res :=
  vecBin 0x02 true (fun _ a b => a * b) fmul t o s

/-- VEC_VMIN (R120); never draws. -/
def execVecVmin (t : Nat) (o : Op) (s : State) : Res :=
  vecBin 0x04 false (fun _ a b => min a b) (fminmax false) t o s

/-- VEC_VMAX (R120); never draws. -/
def execVecVmax (t : Nat) (o : Op) (s : State) : Res :=
  vecBin 0x05 false (fun _ a b => max a b) (fminmax true) t o s


/-- VEC_VFMA (R120): one rounding. -/
def execVecVfma (t : Nat) (o : Op) (s : State) : Res :=
  stageReg 0x10 0x03 t o s fun _ x =>
    let b := o.body
    let ty := xT (fX b)
    let w := typeWidth ty
    let f := fmtOf ty
    let (mode, r, x1) := x.rounding (xRnd (fX b)) (typeLanes ty)
    x1.putLanes (fD b) w ((List.range (typeLanes ty)).map fun i =>
      let (v, fl) := ffma (f.decode (laneGet w (x.getV (fA b)) i)) (f.decode (laneGet w (x.getV (fB b)) i))
        (f.decode (laneGet w (x.getV (fC b)) i))
      let (n, g) := f.round mode x.ftz (r i) v
      (n, fl ||| g))

/-- A bitwise operation on whole registers (R109). -/
def vecBits (fn : Nat) (op : Vec → Vec → Vec) (t : Nat) (o : Op) (s : State) : Res :=
  stageReg 0x10 fn t o s fun _ x => x.setV (fD o.body) (op (x.getV (fA o.body)) (x.getV (fB o.body)))

/-- VEC_VAND. -/
def execVecVand (t : Nat) (o : Op) (s : State) : Res := vecBits 0x06 (fun a b => a &&& b) t o s
/-- VEC_VOR. -/
def execVecVor (t : Nat) (o : Op) (s : State) : Res := vecBits 0x07 (fun a b => a ||| b) t o s
/-- VEC_VXOR. -/
def execVecVxor (t : Nat) (o : Op) (s : State) : Res := vecBits 0x08 (fun a b => a ^^^ b) t o s

/-- VEC_VSHL: by the lane of vb modulo the lane width. -/
def execVecVshl (t : Nat) (o : Op) (s : State) : Res :=
  vecBin 0x09 false (fun w a n => a * 2 ^ (n % (w : Int)).toNat) (fun a _ => (a, 0)) t o s

/-- VEC_VSHR: logical for unsigned types, arithmetic for signed. -/
def execVecVshr (t : Nat) (o : Op) (s : State) : Res :=
  vecBin 0x0A false (fun w a n => a / 2 ^ (n % (w : Int)).toNat) (fun a _ => (a, 0)) t o s

/-- An integer compare of Table 4-8. -/
def icmp (op : Nat) (a b : Int) : Bool :=
  match op with
  | 0 => decide (a = b)
  | 1 => decide (a ≠ b)
  | 2 => decide (a < b)
  | 3 => decide (a ≤ b)
  | 4 => decide (b < a)
  | _ => decide (b ≤ a)

/-- VEC_VCMP (R120): all ones where true, else 0. -/
def execVecVcmp (t : Nat) (o : Op) (s : State) : Res :=
  stageReg 0x10 0x0B t o s fun _ x =>
    let b := o.body
    let ty := xT (fX b)
    let w := typeWidth ty
    let op := xOp (fX b)
    x.putLanes (fD b) w ((List.range (typeLanes ty)).map fun i =>
      let p := laneGet w (x.getV (fA b)) i
      let q := laneGet w (x.getV (fB b)) i
      let (r, fl) := if typeFloat ty then fcmp op ((fmtOf ty).decode p) ((fmtOf ty).decode q)
        else (icmp op (laneInt ty p) (laneInt ty q), 0)
      (if r then 2 ^ w - 1 else 0, fl))

/-- VEC_VSEL: the lane of va where the lane of vc is non-zero, else that of vb; a bit string (R109). -/
def execVecVsel (t : Nat) (o : Op) (s : State) : Res :=
  stageReg 0x10 0x0C t o s fun _ x =>
    let b := o.body
    let w := typeWidth (xT (fX b))
    x.setV (fD b) (packLanes w ((List.range (2048 / w)).map fun i =>
      if laneGet w (x.getV (fC b)) i ≠ 0 then laneGet w (x.getV (fA b)) i else laneGet w (x.getV (fB b)) i))

/-- Range of an integer type. -/
def typeLo (t : Nat) : Int := if typeSigned t then -(2 ^ (typeWidth t - 1) : Int) else 0
def typeHi (t : Nat) : Int := if typeSigned t then 2 ^ (typeWidth t - 1) - 1 else 2 ^ typeWidth t - 1

/-- One lane of a conversion (R88, R120). -/
def cvtLane (t t2 : Nat) (mode : RMode) (ftz : Bool) (r : Nat) (n : Nat) : Nat × FlagSet :=
  if typeFloat t2 then
    (fmtOf t2).round mode ftz r (if typeFloat t then (fmtOf t).decode n else FVal.ofInt (laneInt t n))
  else if typeFloat t then ((fmtOf t).decode n).toInt (typeWidth t2) (typeSigned t2) mode r
  else (intLane (typeWidth t2) (max (typeLo t2) (min (typeHi t2) (laneInt t n))), 0)

/-- VEC_VCVT (R88): a narrowing conversion writes part of vd, a widening one reads part of va. -/
def execVecVcvt (t : Nat) (o : Op) (s : State) : Res :=
  stageReg 0x10 0x0D t o s fun _ x =>
    let b := o.body
    let ty := xT (fX b)
    let t2 := xT2 (fX b)
    let part := xPart (fX b)
    let w := typeWidth ty
    let w2 := typeWidth t2
    let n := 2048 / max w w2
    let (mode, r, x1) := if typeFloat ty || typeFloat t2 then x.rounding (xRnd (fX b)) n else (.nearest, fun _ => 0, x)
    let rs := (List.range n).map fun i =>
      cvtLane ty t2 mode x.ftz (r i) (laneGet w (x.getV (fA b)) (if w < w2 then part * n + i else i))
    let v := putBits (x.getV (fD b)) (if w2 < w then part * n * w2 else 0) (n * w2) (packNat w2 (rs.map (·.1)))
    (x1.setV (fD b) v).raise (flAll (rs.map (·.2)))

/-- VEC_VFN (R89, R120) on binary32 lanes. -/
def execVecVfn (t : Nat) (o : Op) (s : State) : Res :=
  stageReg 0x10 0x0E t o s fun _ x =>
    let b := o.body
    x.putLanes (fD b) 32 ((lanesOf 32 (x.getV (fA b))).map (vfnLane (xT2 (fX b)) x.ftz))

/-- One level of a sum: lane i and lane i + n/2, result numbers from `k`. -/
def redLevel (f : Fmt) (mode : RMode) (ftz : Bool) (r : Nat → Nat) (k : Nat) (l : List Nat) : List (Nat × FlagSet) :=
  let h := l.length / 2
  (List.range h).map fun i =>
    let (v, fl) := fadd (f.decode (nth l i 0)) (f.decode (nth l (i + h) 0))
    let (n, g) := f.round mode ftz (r (k + i)) v
    (n, fl ||| g)
/-- `steps` levels of a sum (R89). -/
def redSum (f : Fmt) (mode : RMode) (ftz : Bool) (r : Nat → Nat) : Nat → Nat → List Nat → Nat × FlagSet
  | 0, _, l => (nth l 0 0, 0)
  | n + 1, k, l =>
    let rs := redLevel f mode ftz r k l
    let (v, fl) := redSum f mode ftz r n (k + rs.length) (rs.map (·.1))
    (v, fl ||| flAll (rs.map (·.2)))
/-- The greatest or least of float lanes, with the flags of the comparisons. -/
def redMax (f : Fmt) (isMax : Bool) (ftz : Bool) (l : List Nat) : Nat × FlagSet :=
  let vs := l.map f.decode
  match vs with
  | [] => (0, 0)
  | v :: vs =>
    let (m, fl) := vs.foldl (fun a y => let (z, g) := fminmax isMax a.1 y; (z, a.2 ||| g)) (v, (0 : FlagSet))
    let (n, g) := f.round .nearest ftz 0 m
    (n, fl ||| g)

/-- VEC_VRED (R89, R120): into lane 0, the other lanes 0. -/
def execVecVred (t : Nat) (o : Op) (s : State) : Res :=
  stageReg 0x10 0x0F t o s fun _ x =>
    let b := o.body
    let ty := xT (fX b)
    let w := typeWidth ty
    let op := xOp (fX b)
    let ls := lanesOf w (x.getV (fA b))
    if typeFloat ty then
      if op = 0 then
        let (mode, r, x1) := x.rounding (xRnd (fX b)) (typeLanes ty - 1)
        x1.putLanes (fD b) w [redSum (fmtOf ty) mode x.ftz r (Nat.log2 (typeLanes ty)) 0 ls]
      else x.putLanes (fD b) w [redMax (fmtOf ty) (decide (op = 1)) x.ftz ls]
    else
      let is := ls.map (laneInt ty)
      let h := is.headD 0
      let v : Int := if op = 0 then is.foldl (· + ·) 0 else if op = 1 then is.foldl max h else is.foldl min h
      x.putLanes (fD b) w [(intLane w v, 0)]

/-- VEC_VBCAST: every lane ← low bits of sa. -/
def execVecVbcast (t : Nat) (o : Op) (s : State) : Res :=
  stageReg 0x10 0x10 t o s fun _ x =>
    let w := typeWidth (xT (fX o.body))
    x.setV (fD o.body) (packLanes w (List.replicate (2048 / w) (x.getS (fA o.body)).toNat))

/-- VEC_VEXT: sign-extended for a signed integer type, else zero-extended (R109). -/
def execVecVext (t : Nat) (o : Op) (s : State) : Res :=
  stageReg 0x10 0x11 t o s fun _ x =>
    let ty := xT (fX o.body)
    x.setS (fD o.body) (BitVec.ofInt 64 (laneInt ty (laneGet (typeWidth ty) (x.getV (fA o.body)) (xLane (fX o.body)))))

/-- VEC_VINS: the other lanes unchanged. -/
def execVecVins (t : Nat) (o : Op) (s : State) : Res :=
  stageReg 0x10 0x12 t o s fun _ x =>
    let w := typeWidth (xT (fX o.body))
    x.setV (fD o.body) (putBits (x.getV (fD o.body)) (w * xLane (fX o.body)) w (x.getS (fA o.body)).toNat)

/-- VEC_VPERM: lane i ← lane (vb lane i modulo lanes) of va. -/
def execVecVperm (t : Nat) (o : Op) (s : State) : Res :=
  stageReg 0x10 0x13 t o s fun _ x =>
    let b := o.body
    let w := typeWidth (xT (fX b))
    x.setV (fD b) (packLanes w ((lanesOf w (x.getV (fB b))).map fun k => laneGet w (x.getV (fA b)) (k % (2048 / w))))

/-- Byte `i` of a scalar. -/
def byteOf (v : Word) (i : Nat) : Nat := v.toNat / 2 ^ (8 * i) % 256
/-- A scalar with bytes 2h and 2h + 1 replaced. -/
def putScales (v : Word) (h s0 s1 : Nat) : Word :=
  (v &&& ~~~ (BitVec.ofNat 64 (0xFFFF * 2 ^ (16 * h)))) ||| BitVec.ofNat 64 ((s0 + 256 * s1) * 2 ^ (16 * h))

/-- VEC_VMXQ (R90, R118): two blocks of 32 lanes into part `part` of vd, the scales into sb. -/
def execVecVmxq (t : Nat) (o : Op) (s : State) : Res :=
  stageReg 0x10 0x14 t o s fun _ x =>
    let b := o.body
    let code := xT2 (fX b)
    let w := elemBits code
    let (mode, r, x1) := x.rounding (xRnd (fX b)) 64
    let vs := (lanesOf 32 (x.getV (fA b))).map f32.decode
    let (s0, e0, fl0) := quantBlock code mode r (vs.take 32)
    let (s1, e1, fl1) := quantBlock code mode (fun i => r (32 + i)) (vs.drop 32)
    let v := putBits (x.getV (fD b)) (64 * w * xPart (fX b)) (64 * w) (packNat w (e0 ++ e1))
    ((x1.setV (fD b) v).setS (fB b) (putScales (x.getS (fB b)) (xH (fX b)) s0 s1)).raise (fl0 ||| fl1)

/-- VEC_VMXD (R90, R119). -/
def execVecVmxd (t : Nat) (o : Op) (s : State) : Res :=
  stageReg 0x10 0x15 t o s fun _ x =>
    let b := o.body
    let code := xT2 (fX b)
    let w := elemBits code
    let src := (x.getV (fA b)).toNat / 2 ^ (64 * w * xPart (fX b))
    x.putLanes (fD b) 32 ((List.range 64).map fun k =>
      dequant code (byteOf (x.getS (fB b)) (2 * xH (fX b) + k / 32)) (src / 2 ^ (w * k) % 2 ^ w) x.ftz)

/-- VEC_VMOV. -/
def execVecVmov (t : Nat) (o : Op) (s : State) : Res :=
  stageReg 0x10 0x16 t o s fun _ x => x.setV (fD o.body) (x.getV (fA o.body))
/-- VEC_VZERO. -/
def execVecVzero (t : Nat) (o : Op) (s : State) : Res :=
  stageReg 0x10 0x17 t o s fun _ x => x.setV (fD o.body) 0

/-- A lane-wise operation on va alone; no flag. -/
def vecUn (fn : Nat) (fi : Int → Int) (ff : Nat → Nat → Nat) (t : Nat) (o : Op) (s : State) : Res :=
  stageReg 0x10 fn t o s fun _ x =>
    let ty := xT (fX o.body)
    let w := typeWidth ty
    x.setV (fD o.body) (packLanes w ((lanesOf w (x.getV (fA o.body))).map fun n =>
      if typeFloat ty then ff w n else intLane w (fi (laneInt ty n))))

/-- VEC_VNEG: integers wrap; a float lane's sign bit flips (R109). -/
def execVecVneg (t : Nat) (o : Op) (s : State) : Res :=
  vecUn 0x18 (fun i => -i) (fun w n => (n + 2 ^ (w - 1)) % 2 ^ w) t o s
/-- VEC_VABS: integers wrap; a float lane's sign bit clears (R109). -/
def execVecVabs (t : Nat) (o : Op) (s : State) : Res :=
  vecUn 0x19 (fun i => (i.natAbs : Int)) (fun w n => n % 2 ^ (w - 1)) t o s

end Sys2Proof.Machine
end

