-- ==== Sys2Proof/Machine/Sto.lean ====
section
/-! DEFINITION. The store slice as stage instructions reach it (04, Table 4-13; 06, R128). -/

namespace Sys2Proof.Machine

/-! ### The window (R95) -/

/-- `aa + off` modulo 2^48, with the low bits below `align` ignored. -/
def effAddr (x : Ctx) (a off align : Nat) : Nat :=
  ((x.getA a).toNat + off) % 2 ^ 48 / align * align

/-- `n` bytes at window offset `ea` lie in the window and in the slice. -/
def Ctx.winOk (x : Ctx) (ea n : Nat) : Bool :=
  decide (ea + n ≤ x.windowLen ∧ x.windowBase + ea + n ≤ sliceSize)

/-- The module address of a window offset. -/
def winAddr (t : Nat) (x : Ctx) (ea : Nat) : Nat := sliceAddr t + x.windowBase + ea

/-- A read by a context: out of the window is fault 2, an uncorrectable word fault 5 (R73, R95, R128). -/
def ctxRead (s : State) (t c ea n : Nat) (k : State → List Byte → Fx) : Fx :=
  let x := s.ctx t c
  if !x.winOk ea n then .fault s 2
  else match s.readRange (winAddr t x ea) n 0 with
    | (s1, bytes, none) => k s1 bytes
    | (s1, _, some _) => .fault s1 5

/-- A part of a word whose word is uncorrectable stands among these writes of a context. -/
def State.mergeBad (s : State) (ws : List (Nat × List Byte)) : Option Nat :=
  (ws.find? (fun w => (unitsOf w.1 w.2.length).any (fun u =>
    decide ((unitPart w.1 w.2 u).2.length < wordSize) && s.unitBad u))).bind
      (fun w => (unitsOf w.1 w.2.length).find? s.unitBad)

/-- Stores by a context, in order: window offsets and bytes. One out of the window is fault 2, and a
merge with an uncorrectable word fault 5; then nothing is stored (R73, R95, R128). -/
def ctxWrite (s : State) (t c : Nat) (ws : List (Nat × List Byte)) (k : State → Fx) : Fx :=
  let x := s.ctx t c
  if ws.any (fun w => !x.winOk w.1 w.2.length) then .fault s 2
  else
    let ws := ws.map (fun w => (winAddr t x w.1, w.2))
    match s.mergeBad ws with
    | some u => .fault (s.reportUe u 0) 5
    | none => k (ws.foldl (fun (s : State) w => (s.writeRange w.1 w.2 0).1) s)

/-- A vector register from its bytes, and back. -/
def vecOfBytes (l : List Byte) : Vec := BitVec.ofNat 2048 (leVal l)
def vecBytes (v : Vec) : List Byte := leBytes 256 v.toNat

/-! ### Vector accesses -/

/-- STO_LDV. -/
def execStoLdv (t : Nat) (o : Op) (s : State) : Res :=
  stage 0x28 0x00 t o s fun s c =>
    ctxRead s t c (effAddr (s.ctx t c) (fA o.body) (fImm o.body) 32) 256 fun s bs =>
      .done (s.updCtx t c fun x => x.setV (fD o.body) (vecOfBytes bs))

/-- STO_STV: d names the source. -/
def execStoStv (t : Nat) (o : Op) (s : State) : Res :=
  stage 0x28 0x01 t o s fun s c =>
    let x := s.ctx t c
    ctxWrite s t c [(effAddr x (fA o.body) (fImm o.body) 32, vecBytes (x.getV (fD o.body)))] fun s => .done s

/-- aa ← aa + inc, modulo 2^48. -/
def Ctx.bump (x : Ctx) (b : BitVec 47) : Ctx := x.setA (fA b) (x.getA (fA b) + BitVec.ofNat 48 (fImm b))

/-- STO_LDVI: the access is at aa. -/
def execStoLdvi (t : Nat) (o : Op) (s : State) : Res :=
  stage 0x28 0x02 t o s fun s c =>
    ctxRead s t c (effAddr (s.ctx t c) (fA o.body) 0 32) 256 fun s bs =>
      .done (s.updCtx t c fun x => (x.setV (fD o.body) (vecOfBytes bs)).bump o.body)

/-- STO_STVI. -/
def execStoStvi (t : Nat) (o : Op) (s : State) : Res :=
  stage 0x28 0x03 t o s fun s c =>
    let x := s.ctx t c
    ctxWrite s t c [(effAddr x (fA o.body) 0 32, vecBytes (x.getV (fD o.body)))] fun s =>
      .done (s.updCtx t c fun x => x.bump o.body)

/-- The lanes of a masked store as writes: a word all of whose lanes are stored is one write. -/
def maskedWrites (ea : Nat) (v m : Vec) : List (Nat × List Byte) :=
  (List.range 8).flatMap fun wd =>
    let ls := (List.range 8).filter (fun i => decide (laneGet 32 m (8 * wd + i) ≠ 0))
    if ls.length = 8 then [(ea + 32 * wd, sliceB (vecBytes v) (32 * wd) 32)]
    else ls.map fun i => (ea + 32 * wd + 4 * i, leBytes 4 (laneGet 32 v (8 * wd + i)))

/-- STO_STVM: the 32-bit lanes of vd whose lane in vb is non-zero; the whole access is checked. -/
def execStoStvm (t : Nat) (o : Op) (s : State) : Res :=
  stage 0x28 0x04 t o s fun s c =>
    let x := s.ctx t c
    let ea := effAddr x (fA o.body) (fX o.body) 32
    if !x.winOk ea 256 then .fault s 2
    else ctxWrite s t c (maskedWrites ea (x.getV (fD o.body)) (x.getV (fB o.body))) fun s => .done s

/-- The address of lane `i` of a gather or scatter: aa + vb lane i, its two lowest bits ignored. -/
def laneAddr (x : Ctx) (b : BitVec 47) (i : Nat) : Nat :=
  ((x.getA (fA b)).toNat + laneGet 32 (x.getV (fB b)) i) % 2 ^ 48 / 4 * 4

/-- STO_GATH. -/
def execStoGath (t : Nat) (o : Op) (s : State) : Res :=
  stage 0x28 0x05 t o s fun s c =>
    let x := s.ctx t c
    let as := (List.range 64).map (laneAddr x o.body)
    if as.any (fun a => !x.winOk a 4) then .fault s 2
    else match (as.map fun a => unitOf (winAddr t x a)).find? s.unitBad with
      | some u => .fault (s.reportUe u 0) 5
      | none =>
        let s := as.foldl (fun (s : State) a => s.fixRange (winAddr t x a) 4) s
        .done (s.updCtx t c fun x =>
          x.setV (fD o.body) (packLanes 32 (as.map fun a => leVal (s.readBytes (winAddr t x a) 4))))

/-- STO_SCAT: lanes in increasing order. -/
def execStoScat (t : Nat) (o : Op) (s : State) : Res :=
  stage 0x28 0x06 t o s fun s c =>
    let x := s.ctx t c
    ctxWrite s t c ((List.range 64).map fun i =>
      (laneAddr x o.body i, leBytes 4 (laneGet 32 (x.getV (fD o.body)) i))) fun s => .done s

/-! ### Scalar accesses -/

/-- A scalar load of `n` bytes. -/
def stoLoad (fn n : Nat) (signed : Bool) (t : Nat) (o : Op) (s : State) : Res :=
  stage 0x28 fn t o s fun s c =>
    ctxRead s t c (effAddr (s.ctx t c) (fA o.body) (fImm o.body) n) n fun s bs =>
      let v := BitVec.ofNat (8 * n) (leVal bs)
      .done (s.updCtx t c fun x => x.setS (fD o.body) (if signed then v.signExtend 64 else v.setWidth 64))

/-- A scalar store of the low `n` bytes of sd. -/
def stoStore (fn n : Nat) (t : Nat) (o : Op) (s : State) : Res :=
  stage 0x28 fn t o s fun s c =>
    let x := s.ctx t c
    ctxWrite s t c [(effAddr x (fA o.body) (fImm o.body) n, leBytes n (x.getS (fD o.body)).toNat)] fun s => .done s

/-- STO_LD8. -/
def execStoLd8 (t : Nat) (o : Op) (s : State) : Res := stoLoad 0x08 1 true t o s
/-- STO_LD8U. -/
def execStoLd8u (t : Nat) (o : Op) (s : State) : Res := stoLoad 0x09 1 false t o s
/-- STO_LD16. -/
def execStoLd16 (t : Nat) (o : Op) (s : State) : Res := stoLoad 0x0A 2 true t o s
/-- STO_LD16U. -/
def execStoLd16u (t : Nat) (o : Op) (s : State) : Res := stoLoad 0x0B 2 false t o s
/-- STO_LD32. -/
def execStoLd32 (t : Nat) (o : Op) (s : State) : Res := stoLoad 0x0C 4 true t o s
/-- STO_LD32U. -/
def execStoLd32u (t : Nat) (o : Op) (s : State) : Res := stoLoad 0x0D 4 false t o s
/-- STO_LD64. -/
def execStoLd64 (t : Nat) (o : Op) (s : State) : Res := stoLoad 0x0E 8 false t o s
/-- STO_ST8. -/
def execStoSt8 (t : Nat) (o : Op) (s : State) : Res := stoStore 0x10 1 t o s
/-- STO_ST16. -/
def execStoSt16 (t : Nat) (o : Op) (s : State) : Res := stoStore 0x11 2 t o s
/-- STO_ST32. -/
def execStoSt32 (t : Nat) (o : Op) (s : State) : Res := stoStore 0x12 4 t o s
/-- STO_ST64. -/
def execStoSt64 (t : Nat) (o : Op) (s : State) : Res := stoStore 0x13 8 t o s

end Sys2Proof.Machine
end

