-- ==== Sys2Proof/Machine/Desc.lean ====
section
/-! DEFINITION. MEM descriptors, their completion, and the SYS class (04, Tables 4-14 and 4-19; 06, R146
and R147). -/

namespace Sys2Proof.Machine

/-! ### Transfers -/

/-- A transfer length: sl[31:0] with its low 5 bits ignored (R97). -/
def xferLen (v : Word) : Nat := v.toNat % 2 ^ 32 / 32 * 32
/-- The longest transfer. -/
def xferMax : Nat := 0x400000
/-- An address register with its low 5 bits ignored. -/
def Ctx.getA32 (x : Ctx) (i : Nat) : Nat := (x.getA i).toNat / 32 * 32

/-- A tag of a context ends with a status. -/
def Tag.finish (g : Tag) (status : BitVec 8) : Tag := { g with xfer := none, status := status }

/-- `n` bytes whose values the spec leaves undefined (log entry 5). -/
def State.freeBytes (s : State) (n : Nat) : State × List Byte :=
  ({ s with free := s.free + 1 }, (List.range n).map (Config.freeByte s.free))

/-- The module addresses of the rows of a transfer. -/
def Xfer.rowAddrs (x : Xfer) : List Nat := (List.range x.rows).map (fun i => x.am + i * x.stride)

/-- A transfer writes to a window or to memory: what an arrival and an event wait for (R71). -/
def XferKind.writes (k : XferKind) : Bool := k = .put || k = .puts || k = .fabPut || k = .fabRed

/-- Tags of a context whose transfer in flight writes memory. -/
def writeTags (l : Tab Tag) : List Nat :=
  (l.filter (fun p => (p.2.xfer.map (fun x => x.kind.writes)).getD false)).map (·.1)

/-- Events whose earlier writes are all complete are posted, oldest first (R71, Table 15-8). -/
def State.stageEvent (s : State) (t c : Nat) (code : BitVec 16) (v : Word) : State :=
  let x := s.ctx t c
  s.event (partOfTile t) evStage [(16, 2, t), (18, 1, c), (20, 2, code.toNat), (24, 8, v.toNat),
    (32, 2, x.jobId.toNat), (34, 1, x.jobGen.toNat)]

def State.postEvents (s : State) (t c : Nat) : State :=
  let go := (s.ctx t c).heldEvents.filter (fun e => e.2.2.1.isEmpty && e.2.2.2.isEmpty)
  go.foldl (fun (s : State) e => s.stageEvent t c e.1 e.2.1)
    (s.updCtx t c fun x =>
      { x with heldEvents := x.heldEvents.filter (fun e => !(e.2.2.1.isEmpty && e.2.2.2.isEmpty)) })

/-- A MEM tag completes: what waited for it no longer does. -/
def State.memDone (s : State) (t c tag : Nat) (status : BitVec 8) : State :=
  (s.updCtx t c fun x =>
    { x.setMem tag ((x.mem tag).finish status) with
      memOrder := x.memOrder.filter (· ≠ tag),
      heldArr := x.heldArr.map (fun a => (a.1, a.2.1, a.2.2.1.filter (· ≠ tag), a.2.2.2)),
      heldEvents := x.heldEvents.map (fun e => (e.1, e.2.1, e.2.2.1.filter (· ≠ tag), e.2.2.2)) }).postEvents t c

/-- The same for a FAB tag; status 4 starts the hold of Table 7-6. -/
def State.fabDone (s : State) (t c tag : Nat) (status : BitVec 8) : State :=
  (s.updCtx t c fun x =>
    { x.setFab tag { (x.fab tag).finish status with holdFrom := if status = 4 then some s.tb else (x.fab tag).holdFrom } with
      heldArr := x.heldArr.map (fun a => (a.1, a.2.1, a.2.2.1, a.2.2.2.filter (· ≠ tag))),
      heldEvents := x.heldEvents.map (fun e => (e.1, e.2.1, e.2.2.1, e.2.2.2.filter (· ≠ tag))) }).postEvents t c

/-- A range read for a transfer: its bytes, those from the first uncorrectable unit on being undefined,
and whether it was whole. -/
def State.readXfer (s : State) (a n : Nat) : State × List Byte × Bool :=
  match s.readRange a n 0 with
  | (s1, bs, none) => (s1, bs, true)
  | (s1, bs, some _) =>
    let (s2, fs) := s1.freeBytes (n - bs.length)
    (s2, bs ++ fs, false)

/-- The rows of a transfer read one after the other. -/
def State.readRows (s : State) (len : Nat) : List Nat → State × List Byte × Bool
  | [] => (s, [], true)
  | a :: as =>
    match s.readXfer a len with
    | (s1, bs, true) =>
      let (s2, rest, ok) := State.readRows s1 len as
      (s2, bs ++ rest, ok)
    | (s1, bs, false) =>
      let (s2, fs) := s1.freeBytes (len * as.length)
      (s2, bs ++ fs, false)

/-- After a unit that could not be merged, what a transfer leaves in its later units is undefined
(Table 4-16). -/
def State.scrambleAfter (s : State) (a : Nat) (l : List Byte) : State :=
  let us := (unitsOf a l.length).dropWhile (fun u => !(s.unitBad u && decide ((unitPart a l u).2.length < unitSize a)))
  us.foldl (fun (s : State) u =>
    if s.unitBad u then s
    else
      let (s1, fs) := s.freeBytes (unitPart a l u).2.length
      s1.setCells (unitPart a l u).1 fs) s

/-- A range written for a transfer (R147). -/
def State.writeXfer (s : State) (a : Nat) (l : List Byte) : State × Bool :=
  match s.writeRange a l 1 with
  | (s1, true) => (s1, true)
  | (s1, false) => (s1.scrambleAfter a l, false)

/-- Rows written one after the other, `len` bytes each. -/
def State.writeRows (s : State) (len : Nat) : List Byte → List Nat → State × Bool
  | _, [] => (s, true)
  | l, a :: as =>
    match s.writeXfer a (l.take len) with
    | (s1, true) => State.writeRows s1 len (l.drop len) as
    | (s1, false) =>
      (as.foldl (fun (s : State) a => let (s1, fs) := s.freeBytes len; s1.setCells a fs) s1, false)

/-! ### Issue (R97, R146) -/

/-- A MEM transfer is issued. -/
def memIssue (kind : XferKind) (strided : Bool) (t : Nat) (o : Op) (s : State) (c : Nat) : Fx :=
  let x := s.ctx t c
  let tag := fD o.body
  let sl := x.getS (fC o.body)
  let len := xferLen sl
  let xf : Xfer := {
    kind := kind, aw := x.getA32 (fA o.body), am := x.getA32 (fB o.body), len := len,
    rows := if strided then fX o.body else 1,
    stride := if strided then sl.toNat / 2 ^ 32 / 32 * 32 else 0 }
  if (x.mem tag).xfer.isSome then .starve s 4
  else if xferMax < len then .done (s.memDone t c tag 1)
  else if len = 0 then .done (s.memDone t c tag 0)
  else if !x.winOk xf.aw (len * xf.rows) then .fault s 2
  else if !xf.rowAddrs.all (fun a => s.reach (partOfTile t) a len) then .done (s.memDone t c tag 1)
  else
    let (s1, xf1) :=
      if kind.writes then
        let (s1, bs, ok) := s.readXfer (winAddr t x xf.aw) (len * xf.rows)
        (s1, { xf with bytes := bs, worst := if ok then 0 else 2 })
      else (s, xf)
    .done (s1.updCtx t c fun x =>
      { x.setMem tag { x.mem tag with xfer := some xf1, status := 0 } with memOrder := x.memOrder ++ [tag] })

/-- MEM_GET. -/
def execMemGet (t : Nat) (o : Op) (s : State) : Res := stage 0x2C 0x00 t o s (memIssue .get false t o)
/-- MEM_PUT. -/
def execMemPut (t : Nat) (o : Op) (s : State) : Res := stage 0x2C 0x01 t o s (memIssue .put false t o)
/-- MEM_GETS. -/
def execMemGets (t : Nat) (o : Op) (s : State) : Res := stage 0x2C 0x02 t o s (memIssue .gets true t o)
/-- MEM_PUTS. -/
def execMemPuts (t : Nat) (o : Op) (s : State) : Res := stage 0x2C 0x03 t o s (memIssue .puts true t o)

/-- Status of a tag as MEM.STAT and FAB.STAT give it (Table 4-16). -/
def Tag.stat (g : Tag) : Word := if g.xfer.isSome then 256 else g.status.setWidth 64

/-- MEM_WAIT (R50). -/
def execMemWait (t : Nat) (o : Op) (s : State) : Res :=
  stage 0x2C 0x04 t o s fun s c =>
    if ((s.ctx t c).mem (fD o.body)).xfer.isSome then .starve s 4 else .done s

/-- MEM_TEST. -/
def execMemTest (t : Nat) (o : Op) (s : State) : Res :=
  stageReg 0x2C 0x05 t o s fun _ x => x.setP (fD o.body) (!(x.mem (fA o.body)).xfer.isSome)

/-- MEM_STAT. -/
def execMemStat (t : Nat) (o : Op) (s : State) : Res :=
  stageReg 0x2C 0x06 t o s fun _ x => x.setS (fD o.body) (x.mem (fA o.body)).stat

/-! ### Completion (R71, R147) -/

/-- Two ranges share a line. -/
def shareLine (a n b m : Nat) : Bool :=
  decide (a / lineSize ≤ (b + m - 1) / lineSize ∧ b / lineSize ≤ (a + n - 1) / lineSize)

/-- Two transfers touch the same line of module memory. -/
def Xfer.shares (x y : Xfer) : Bool :=
  x.rowAddrs.any (fun a => y.rowAddrs.any (fun b => shareLine a x.len b y.len))

/-- An earlier transfer of the context that shares a line is still in flight (R71). -/
def Ctx.mustWait (x : Ctx) (tag : Nat) (xf : Xfer) : Bool :=
  (x.memOrder.takeWhile (· ≠ tag)).any (fun g =>
    match (x.mem g).xfer with
    | some y => xf.shares y
    | none => false)

/-- A transfer in flight is for LPDDR5X that P3 has put into self-refresh (R131). -/
def State.xferAsleep (s : State) (xf : Xfer) : Bool :=
  xf.rowAddrs.any (fun a => !reachAll (fun b => match bandOf b with | some k => s.mdOpen k | none => true) a xf.len)

/-- MEM_TRANSFER_COMPLETE: the bytes move and the tag completes with its status; one that finds its stacks in
self-refresh is refused (R131). -/
def execMemTransferComplete (t : Nat) (c : Nat) (tag : Nat) (s : State) : Res :=
  let x := s.ctx t c
  match (x.mem tag).xfer with
  | none => .next s
  | some xf =>
    if !(s.dieOn (dieOfTile t) && decide (c < 4)) || x.mustWait tag xf then .next s
    else if s.xferAsleep xf then .next (s.memDone t c tag 1)
    else if xf.kind.writes then
      let (s1, ok) := s.writeRows xf.len xf.bytes xf.rowAddrs
      .next (s1.memDone t c tag (if ok then xf.worst else 2))
    else
      let (s1, bs, ok) := s.readRows xf.len xf.rowAddrs
      .next ((s1.writeRange (winAddr t x xf.aw) bs 0).1.memDone t c tag (if ok then 0 else 2))

/-! ### SYS (Table 4-19) -/

/-- SYS_ROW: the row counter of the context's job (R69). -/
def execSysRow (t : Nat) (o : Op) (s : State) : Res :=
  stageReg 0x3C 0x00 t o s fun s x =>
    x.setS (fD o.body) (match s.slotOfJob x.jobId with | some j => (s.job j).row | none => 0)

/-- SYS_GETFLAGS. -/
def execSysGetflags (t : Nat) (o : Op) (s : State) : Res :=
  stageReg 0x3C 0x01 t o s fun _ x => x.setS (fD o.body) (x.flags.setWidth 64)

/-- SYS_CLRFLAGS. -/
def execSysClrflags (t : Nat) (o : Op) (s : State) : Res :=
  stageReg 0x3C 0x02 t o s fun _ x => { x with flags := x.flags &&& ~~~ (BitVec.ofNat 5 (fImm o.body)) }

/-- SYS_SETRM. -/
def execSysSetrm (t : Nat) (o : Op) (s : State) : Res :=
  stageReg 0x3C 0x03 t o s fun _ x => { x with rm := BitVec.ofNat 2 (fImm o.body) }

/-- SYS_SETFTZ. -/
def execSysSetftz (t : Nat) (o : Op) (s : State) : Res :=
  stageReg 0x3C 0x04 t o s fun _ x => { x with ftz := decide (fImm o.body % 2 = 1) }

/-- SYS_SEED: a seed of 0 changes nothing and sets invalid. -/
def execSysSeed (t : Nat) (o : Op) (s : State) : Res :=
  stageReg 0x3C 0x05 t o s fun _ x =>
    let v := x.getS (fA o.body)
    if v = 0 then { x with flags := x.flags ||| 1 } else { x with gen := v }

/-- SYS_GETSEED. -/
def execSysGetseed (t : Nat) (o : Op) (s : State) : Res :=
  stageReg 0x3C 0x06 t o s fun _ x => x.setS (fD o.body) x.gen

/-- SYS_EVENT (R71, R102): posted at once, or held until the context's earlier writes are complete. -/
def execSysEvent (t : Nat) (o : Op) (s : State) : Res :=
  stage 0x3C 0x07 t o s fun s c =>
    .done ((s.updCtx t c fun x =>
      { x with heldEvents := x.heldEvents ++ [(BitVec.ofNat 16 (fImm o.body), x.getS (fA o.body),
          writeTags x.mems, writeTags x.fabs)] }).postEvents t c)

/-- SYS_TILE. -/
def execSysTile (t : Nat) (o : Op) (s : State) : Res :=
  stage 0x3C 0x08 t o s fun s c =>
    .done (s.updCtx t c fun x => x.setS (fD o.body) (BitVec.ofNat 64 (t + 65536 * c)))

/-- SYS_JOB. -/
def execSysJob (t : Nat) (o : Op) (s : State) : Res :=
  stageReg 0x3C 0x09 t o s fun _ x =>
    x.setS (fD o.body) (BitVec.ofNat 64 (x.jobId.toNat + 65536 * x.jobGen.toNat))

/-- SYS_TIME (R40). The tile reads the Gate's count itself, where R35 lets a die's copy differ from it by up to 4 ticks
(DESIGN CHOICE, log entry 62). -/
def execSysTime (t : Nat) (o : Op) (s : State) : Res :=
  stageReg 0x3C 0x0A t o s fun s x => x.setS (fD o.body) s.tb

/-- SYS_BEATS (R40). -/
def execSysBeats (t : Nat) (o : Op) (s : State) : Res :=
  stageReg 0x3C 0x0B t o s fun _ x => x.setS (fD o.body) x.beats

/-- SYS_GETRM. -/
def execSysGetrm (t : Nat) (o : Op) (s : State) : Res :=
  stageReg 0x3C 0x0C t o s fun _ x =>
    x.setS (fD o.body) (BitVec.ofNat 64 (x.rm.toNat + (if x.ftz then 4 else 0)))

end Sys2Proof.Machine
end

