-- ==== Sys2Proof/Machine/Chan.lean ====
section
/-! DEFINITION. Stream channels: the STR class and the network interfaces that carry entries and credits
(03, R45 to R48; 04, Table 4-15). -/

namespace Sys2Proof.Machine

/-- An entry or credit dropped by the network interface of tile `t` (R48). -/
def State.chDropped (s : State) (t : Nat) : State :=
  let n := stickAdd (s.die (dieOfTile t)).chDrop 1
  (s.updDie (dieOfTile t) fun d => { d with chDrop := n, countOvf := d.countOvf || decide (n = stickMax 64) }).stuck
    (0x2000000 + 0x400000 * dieOfTile t + 0x208) (s.die (dieOfTile t)).chDrop n

/-- The context takes what is sent in the name of this job and generation (R48). -/
def Ctx.sameJob (x : Ctx) (job : BitVec 16) (gen : Byte) : Bool :=
  decide (x.mode ≠ .empty ∧ x.jobId = job ∧ x.jobGen = gen)

/-! ### Entries -/

/-- The slice address of entry `i` of an inbound endpoint's buffer. -/
def InEp.addr (e : InEp) (t i : Nat) : Nat := sliceAddr t + e.buf + i % e.depth * 256

/-- An entry is written into the receive buffer. -/
def State.chWrite (s : State) (t c ep : Nat) (v : Vec) (last : Bool) : State :=
  let e := (s.ctx t c).inEp ep
  let s1 := (s.writeRange (e.addr t (e.head + e.lasts.length)) (vecBytes v) 0).1
  s1.updCtx t c fun x => x.setIn ep { e with lasts := e.lasts ++ [last], nextSeq := e.nextSeq + 1 }

/-- An entry finds no free buffer entry: the receiving context stops with code 3, and the record names
the source (Table 3-13). -/
def State.chOverrun (s : State) (t c : Nat) (src : Coord × Nat × Nat × Nat) : State :=
  let x := s.ctx t c
  if x.live then
    let s1 := s.faultCtx t c 3 x.pc (s.istoreWord t x.pc.toNat)
    { s1 with faultRecs := (s1.faultRecs.dropLast) ++ (s1.faultRecs.getLast?.map (fun r => { r with source := some src })).toList }
  else s

/-- An entry of this job reaches an inbound endpoint in its turn. -/
def State.chDeliver (s : State) (t c ep : Nat) (job : BitVec 16) (gen : Byte) (v : Vec) (last : Bool)
    (src : Coord × Nat × Nat × Nat) : State :=
  let x := s.ctx t c
  let e := x.inEp ep
  if !(x.sameJob job gen) || e.far.isNone then s.chDropped t
  else if e.depth ≤ e.lasts.length then s.chOverrun t c src
  else s.chWrite t c ep v last

/-- Entries that came early are written once their turn has come (R46). -/
def State.chDrain (s : State) (t c ep : Nat) : Nat → State
  | 0 => s
  | n + 1 =>
    let e := (s.ctx t c).inEp ep
    match e.early.find? (fun a => decide (a.1 = e.nextSeq)) with
    | none => s
    | some a =>
      State.chDrain
        ((s.updCtx t c fun x => x.setIn ep { e with early := e.early.filter (fun b => decide (b.1 ≠ a.1)) }).chWrite
          t c ep a.2.1 a.2.2) t c ep n

/-! ### Credits -/

/-- `n` credits reach an outbound endpoint (R45, R48). An EMPTY context carries no job, so a credit addressed to
it is dropped and counted as one of another job (DEDUCED, log entry 53). -/
def State.chCredit (s : State) (t c ep n : Nat) (job : BitVec 16) (gen : Byte) : State :=
  let x := s.ctx t c
  let e := x.outEp ep
  if !(x.sameJob job gen) || e.far.isNone then s.chDropped t
  else s.updCtx t c fun x => x.setOut ep { e with credits := e.credits + n }

/-- `n` credits of an inbound endpoint are freed: within the module they return at once, across the
fabric they wait to be sent together (R45). -/
def State.freeCredits (s : State) (t c ep n : Nat) : State :=
  let x := s.ctx t c
  let e := x.inEp ep
  match e.far with
  | some (.here t1 c1 ep1) => s.chCredit t1 c1 ep1 n x.jobId x.jobGen
  | some (.away _ _ _ _) =>
    s.updCtx t c fun x => x.setIn ep { e with owed := e.owed ++ List.replicate n s.tb }
  | none => s

/-- Byte 23 of a channel packet: the source's context and endpoint. -/
def chB23 (c ep : Nat) : Byte := BitVec.ofNat 8 (ep % 2 + 16 * c + 64 * (ep / 2))
/-- The source context and endpoint of a channel packet. -/
def b23Ctx (b : Byte) : Nat := b.toNat / 16 % 4
def b23Ep (b : Byte) : Nat := b.toNat % 2 + 2 * (b.toNat / 64)

/-- CH_CREDIT_SEND (R45): one CH_CREDIT, when 8 are pending or the oldest has waited 20 ticks. -/
def execChCreditSend (t : Nat) (c : Nat) (ep : Nat) (s : State) : Res :=
  let x := s.ctx t c
  let e := x.inEp ep
  match e.far with
  | some (.away co t1 c1 ep1) =>
    if s.dieOn (dieOfTile t) && (decide (8 ≤ e.owed.length) || e.owed.head?.any (fun f => s.passed f 20)) then
      let n := min 8 e.owed.length
      .next ((s.updCtx t c fun x => x.setIn ep { e with owed := e.owed.drop n }).sendPacket (fdOfTile t) {
        dst := co, src := 0, kind := kChCredit, vc := 1, det := s.jobDet x.jobId, jobId := x.jobId, jobGen := x.jobGen,
        dstTile := BitVec.ofNat 16 t1, srcTile := BitVec.ofNat 16 t, ep := BitVec.ofNat 3 ep1, ctx := BitVec.ofNat 2 c1,
        b23 := chB23 c ep, arg := BitVec.ofNat 64 n })
    else .next s
  | _ => .next s

/-! ### STR (Table 4-15, R98) -/

/-- An entry leaves by an outbound endpoint that holds a credit: the credit is spent, a last entry closes
the endpoint (R45, R47). -/
def State.chSend (s : State) (t c ep : Nat) (v : Vec) (last : Bool) : State :=
  let x := s.ctx t c
  let e := x.outEp ep
  let s1 := s.updCtx t c fun x =>
    x.setOut ep { e with credits := e.credits - 1, seq := e.seq + 1, closed := e.closed || last }
  match e.far with
  | some (.here t1 c1 ep1) => s1.chDeliver t1 c1 ep1 x.jobId x.jobGen v last (s.shep.coord, t, c, ep)
  | some (.away co t1 c1 ep1) => s1.sendPacket (fdOfTile t) {
      dst := co, src := 0, kind := kChEntry, vc := 0, det := s.jobDet x.jobId, jobId := x.jobId, jobGen := x.jobGen,
      len := 256, dstTile := BitVec.ofNat 16 t1, srcTile := BitVec.ofNat 16 t, ident := e.seq,
      ep := BitVec.ofNat 3 ep1, ctx := BitVec.ofNat 2 c1, b23 := chB23 c ep, arg := if last then 1 else 0,
      payload := vecBytes v }
  | none => s1

/-- The oldest entry of an inbound endpoint is taken and its credit freed; after the last entry the
endpoint reports end of stream (R45, R47). -/
def State.chTake (s : State) (t c ep : Nat) : State :=
  let e := (s.ctx t c).inEp ep
  (s.updCtx t c fun x => x.setIn ep
    { e with head := (e.head + 1) % e.depth, lasts := e.lasts.drop 1, ended := e.ended || nth e.lasts 0 false }).freeCredits
    t c ep 1

/-- SEND cannot be used: no channel, or the context has closed it. -/
def OutEp.bad (e : OutEp) : Bool := e.far.isNone || e.closed
/-- RECV cannot be used: no channel, or the stream has ended. -/
def InEp.bad (e : InEp) : Bool := e.far.isNone || (e.ended && e.lasts.isEmpty)

/-- The bytes of the oldest entry; an uncorrectable word is fault 5 (R73). -/
def chRead (s : State) (t c ep : Nat) (k : State → Vec → Fx) : Fx :=
  let e := (s.ctx t c).inEp ep
  match s.readRange (e.addr t e.head) 256 0 with
  | (s1, bs, none) => k s1 (vecOfBytes bs)
  | (s1, _, some _) => .fault s1 5

/-- STR_SEND: d is the endpoint, a the vector register, x[0] last. -/
def execStrSend (t : Nat) (o : Op) (s : State) : Res :=
  stage 0x30 0x00 t o s fun s c =>
    let x := s.ctx t c
    let e := x.outEp (fD o.body)
    if e.bad then .fault s 3
    else if e.credits = 0 then .starve s 2
    else .done (s.chSend t c (fD o.body) (x.getV (fA o.body)) (decide (fX o.body % 2 = 1)))

/-- STR_RECV: d is the vector register, a the endpoint. -/
def execStrRecv (t : Nat) (o : Op) (s : State) : Res :=
  stage 0x30 0x01 t o s fun s c =>
    let e := (s.ctx t c).inEp (fA o.body)
    if e.bad then .fault s 3
    else if e.lasts.isEmpty then .starve s 1
    else chRead s t c (fA o.body) fun s v =>
      .done ((s.updCtx t c fun x => x.setV (fD o.body) v).chTake t c (fA o.body))

/-- STR_FWD (R98): an entry and a credit are taken together. With neither there, the cause shown is 1, RECV
empty (DESIGN CHOICE, log entry 53). -/
def execStrFwd (t : Nat) (o : Op) (s : State) : Res :=
  stage 0x30 0x02 t o s fun s c =>
    let x := s.ctx t c
    let i := x.inEp (fA o.body)
    let u := x.outEp (fD o.body)
    if i.bad || u.bad then .fault s 3
    else if i.lasts.isEmpty then .starve s 1
    else if u.credits = 0 then .starve s 2
    else chRead s t c (fA o.body) fun s v =>
      .done ((s.chTake t c (fA o.body)).chSend t c (fD o.body) v (nth i.lasts 0 false))

/-- A test of an inbound endpoint into a predicate; an unbound one is fault 3. -/
def chTestIn (fn t : Nat) (o : Op) (s : State) (f : InEp → Bool) : Res :=
  stage 0x30 fn t o s fun s c =>
    let e := (s.ctx t c).inEp (fA o.body)
    if e.far.isNone then .fault s 3 else .done (s.updCtx t c fun x => x.setP (fD o.body) (f e))

/-- STR_EOS (R47). -/
def execStrEos (t : Nat) (o : Op) (s : State) : Res := chTestIn 0x03 t o s (·.ended)

/-- STR_AVAIL. -/
def execStrAvail (t : Nat) (o : Op) (s : State) : Res := chTestIn 0x04 t o s fun e => !e.lasts.isEmpty

/-- STR_CRED. -/
def execStrCred (t : Nat) (o : Op) (s : State) : Res :=
  stage 0x30 0x05 t o s fun s c =>
    let e := (s.ctx t c).outEp (fA o.body)
    if e.far.isNone then .fault s 3
    else .done (s.updCtx t c fun x => x.setP (fD o.body) (decide (0 < e.credits)))

/-! ### Channel packets (R45, R46, R48) -/

/-- CH_ENTRY: an entry from another module is written in the order of its sequence number, one that came
early waiting for those before it. -/
def execChEntry (fd : Nat) (p : Packet) (s : State) : Res :=
  let t := p.dstTile.toNat
  let c := p.ctx.toNat
  let ep := p.ep.toNat
  rxPacket kChEntry fd p (some (partOfTile t)) s fun s =>
    let x := s.ctx t c
    let e := x.inEp ep
    let v := vecOfBytes p.payload
    let last := p.arg.getLsbD 0
    if !(x.sameJob p.jobId p.jobGen) || e.far.isNone then s.chDropped t
    else if e.depth ≤ e.lasts.length + e.early.length then
      s.chOverrun t c (p.src, p.srcTile.toNat, b23Ctx p.b23, b23Ep p.b23)
    else if p.ident = e.nextSeq then (s.chWrite t c ep v last).chDrain t c ep 64
    else if e.early.any (fun a => decide (a.1 = p.ident)) then s
    else s.updCtx t c fun x => x.setIn ep { e with early := e.early ++ [(p.ident, v, last)] }

/-- CH_CREDIT: returned credits arrive at the sender's endpoint. -/
def execChCredit (fd : Nat) (p : Packet) (s : State) : Res :=
  let t := p.dstTile.toNat
  rxPacket kChCredit fd p (some (partOfTile t)) s fun s =>
    s.chCredit t p.ctx.toNat p.ep.toNat (p.arg.toNat % 16) p.jobId p.jobGen

end Sys2Proof.Machine
end

