-- ==== Sys2Proof/Machine/FabX.lean ====
section
/-! DEFINITION. FAB transfers between modules: PUT, GET, their packets and their tags (04, Table 4-17; 07,
R173, R174, R181, R182). -/

namespace Sys2Proof.Machine

/-! ### Images -/

/-- The image that a context was loaded from. -/
def State.imageOf (s : State) (t : Nat) (x : Ctx) : Option Image :=
  s.images.find? (fun i => decide (i.part = partOfTile t ∧ i.chainId = x.chainId))

/-- The coordinate of a peer index (R58). -/
def State.peerOf (s : State) (t : Nat) (x : Ctx) (i : Nat) : Option Coord :=
  (s.imageOf t x).bind (fun im => im.peers[i]?)

/-! ### Issue -/

/-- Ticks of the reuse hold (R174). -/
def holdTicks : Nat := 400000
/-- A tag under the reuse hold of Table 7-6. -/
def State.tagHeld (s : State) (g : Tag) : Bool :=
  match g.holdFrom with
  | some h => !s.passed h holdTicks
  | none => false

/-- The implied wait on a tag also waits for the hurdle of its last reduction (R66, R99). -/
def Ctx.redWaited (x : Ctx) (tag : Nat) : Ctx :=
  match (x.fab tag).redHur with
  | none => x
  | some h =>
    { x.setFab tag { x.fab tag with redHur := none } with arrived := x.arrived.filter (fun a => decide (a.1 ≠ h.toNat)) }

/-- A FAB descriptor names a tag: in flight or held, it blocks with cause 5 (R99, R174). -/
def fabTag (s : State) (t c tag : Nat) (k : State → Fx) : Fx :=
  let g := (s.ctx t c).fab tag
  if g.xfer.isSome then .starve s 5
  else if s.tagHeld g then .starve (s.countHold (fdOfTile t) 2) 5
  else k (s.updCtx t c fun x =>
    let y := x.redWaited tag
    y.setFab tag { y.fab tag with holdFrom := none })

/-- Bytes of one packet of a transfer. -/
def pktBytes : Nat := 4096
/-- Packets of a transfer of `n` bytes. -/
def pktCount (n : Nat) : Nat := (n + pktBytes - 1) / pktBytes
/-- Bytes of packet `i` of a transfer of `n` bytes. -/
def pktLen (n i : Nat) : Nat := min pktBytes (n - i * pktBytes)

/-- The tile that an address lies in; 0 for memory. -/
def tileOfAddr (a : Nat) : Nat := match placeOf a with | .slice t => t | _ => 0

/-- The partition that an address belongs to, as a packet for it is judged (R170). -/
def State.partOfAddr (s : State) (a : Nat) : Option Nat :=
  if s.ownerOf a < 8 then some (s.ownerOf a) else none

/-- The packets of a transfer leave one after the other. -/
def State.sendXfer (s : State) (t c tag : Nat) (x : Ctx) (xf : Xfer) (kind : Byte) : State :=
  (List.range (pktCount xf.len)).foldl (fun (s : State) i =>
    s.sendPacket (fdOfTile t) {
      dst := xf.peer, src := 0, kind := kind, vc := 0, det := s.jobDet x.jobId, jobId := x.jobId, jobGen := x.jobGen,
      len := BitVec.ofNat 13 (pktLen xf.len i), dstTile := BitVec.ofNat 16 (tileOfAddr xf.am),
      srcTile := BitVec.ofNat 16 t, ident := BitVec.ofNat 16 i, b23 := BitVec.ofNat 8 (tag + 16 * c),
      arg := BitVec.ofNat 64 ((xf.am + i * pktBytes) % 2 ^ 48),
      payload := sliceB (xf.bytes.drop (i * pktBytes)) 0 (if kind = kPut then pktLen xf.len i else 0) }) s

/-- FAB_PUT and FAB_GET (R99): peer index sl[47:32], length sl[31:0]. -/
def fabIssue (kind : XferKind) (t : Nat) (o : Op) (s : State) (c : Nat) : Fx :=
  let tag := fD o.body
  fabTag s t c tag fun s =>
    let x := s.ctx t c
    let sl := x.getS (fC o.body)
    let len := xferLen sl
    let aw := x.getA32 (fA o.body)
    if xferMax < len then .done (s.fabDone t c tag 1)
    else if len = 0 then .done (s.fabDone t c tag 0)
    else if !x.winOk aw len then .fault s 2
    else match s.peerOf t x (sl.toNat / 2 ^ 32 % 65536) with
      | none => .done (s.fabDone t c tag 1)
      | some co =>
        let (s1, bs, ok) := if kind = .fabPut then s.readXfer (winAddr t x aw) len else (s, [], true)
        let xf : Xfer := {
          kind := kind, aw := aw, am := x.getA32 (fB o.body), len := len, peer := co, bytes := bs,
          open_ := List.range (pktCount len), worst := if ok then 0 else 2 }
        let s2 := s1.updCtx t c fun x => x.setFab tag { x.fab tag with xfer := some { xf with bytes := [] }, status := 0 }
        .done (s2.sendXfer t c tag x xf (if kind = .fabPut then kPut else kGetReq))

/-- FAB_PUT. -/
def execFabPut (t : Nat) (o : Op) (s : State) : Res := stage 0x34 0x00 t o s (fabIssue .fabPut t o)
/-- FAB_GET. -/
def execFabGet (t : Nat) (o : Op) (s : State) : Res := stage 0x34 0x01 t o s (fabIssue .fabGet t o)

/-- FAB_WAIT (R50). -/
def execFabWait (t : Nat) (o : Op) (s : State) : Res :=
  stage 0x34 0x04 t o s fun s c =>
    if ((s.ctx t c).fab (fD o.body)).xfer.isSome then .starve s 5
    else .done (s.updCtx t c fun x => x.redWaited (fD o.body))

/-- FAB_TEST. -/
def execFabTest (t : Nat) (o : Op) (s : State) : Res :=
  stageReg 0x34 0x05 t o s fun _ x => x.setP (fD o.body) (!(x.fab (fA o.body)).xfer.isSome)

/-- FAB_STAT. -/
def execFabStat (t : Nat) (o : Op) (s : State) : Res :=
  stageReg 0x34 0x06 t o s fun _ x => x.setS (fD o.body) (x.fab (fA o.body)).stat

/-! ### At the destination (R181) -/

/-- The address filter for the partition that runs a job. -/
def State.jobReach (s : State) (j : BitVec 16) (a n : Nat) : Bool :=
  (List.range 8).any (fun p => decide (s.jobOfPart p = j) && s.reach p a n)

/-- The address of a packet, its low 5 bits ignored (R146). -/
def pktAddr (p : Packet) : Nat := p.arg.toNat % 2 ^ 48 / 32 * 32

/-- The answer to a packet: it goes back to the requester's tag. -/
def answerTo (p : Packet) (kind : Byte) (status : Nat) (bytes : List Byte) : Packet :=
  { dst := p.src, src := 0, kind := kind, vc := 1, det := p.det, jobId := p.jobId, jobGen := p.jobGen,
    len := BitVec.ofNat 13 bytes.length, dstTile := p.srcTile, srcTile := p.dstTile, ident := p.ident,
    ctx := BitVec.ofNat 2 (b23Ctx p.b23), b23 := p.b23,
    arg := BitVec.ofNat 64 (p.arg.toNat % 2 ^ 48 + status * 2 ^ 48), payload := bytes }

/-- PUT: checked, written and acknowledged. -/
def execPut (fd : Nat) (p : Packet) (s : State) : Res :=
  let a := pktAddr p
  rxPacket kPut fd p (s.partOfAddr a) s fun s =>
    if !s.jobReach p.jobId a p.payload.length then s.sendPacket fd (answerTo p kPutAck 1 [])
    else
      let (s1, ok) := s.writeXfer a p.payload
      s1.sendPacket fd (answerTo p kPutAck (if ok then 0 else 2) [])

/-- GET_REQ: checked and answered with the bytes, or with none and a status. -/
def execGetReq (fd : Nat) (p : Packet) (s : State) : Res :=
  let a := pktAddr p
  let n := p.len.toNat
  rxPacket kGetReq fd p (s.partOfAddr a) s fun s =>
    if !s.jobReach p.jobId a n then s.sendPacket fd (answerTo p kGetData 1 [])
    else
      let (s1, bs, ok) := s.readRange a n 0
      match ok with
      | none => s1.sendPacket fd (answerTo p kGetData 0 bs)
      | some _ => s1.sendPacket fd (answerTo p kGetData 2 [])

/-! ### At the source (R173, R182) -/

/-- A packet of a transfer is answered or dropped with a status. -/
def Ctx.answered (x : Ctx) (tag i : Nat) (status : BitVec 8) : Ctx :=
  match (x.fab tag).xfer with
  | none => x
  | some xf => x.setFab tag { x.fab tag with xfer := some { xf with
      open_ := xf.open_.filter (· ≠ i), worst := if xf.worst.toNat < status.toNat then status else xf.worst } }

/-- Packet `i` of the transfer of this kind under a tag is waited for by this job. -/
def State.awaited (s : State) (t c tag i : Nat) (kind : XferKind) (job : BitVec 16) (gen : Byte) : Bool :=
  let x := s.ctx t c
  x.sameJob job gen && (match (x.fab tag).xfer with
    | some xf => decide (xf.kind = kind) && xf.open_.contains i
    | none => false)

/-- The status in the header of an answer. -/
def pktStatus (p : Packet) : BitVec 8 := p.arg.extractLsb' 48 8

/-- PUT_ACK; one that no tag waits for is late (R173). -/
def execPutAck (fd : Nat) (p : Packet) (s : State) : Res :=
  let t := p.dstTile.toNat
  let c := p.ctx.toNat
  let tag := p.b23.toNat % 16
  rxPacket kPutAck fd p (some (partOfTile t)) s fun s =>
    if s.awaited t c tag p.ident.toNat .fabPut p.jobId p.jobGen then
      s.updCtx t c fun x => x.answered tag p.ident.toNat (pktStatus p)
    else s.countDrop fd dLate

/-- GET_DATA: the bytes land in the window; where the far end met an uncorrectable error they are
undefined (R147). -/
def execGetData (fd : Nat) (p : Packet) (s : State) : Res :=
  let t := p.dstTile.toNat
  let c := p.ctx.toNat
  let tag := p.b23.toNat % 16
  let i := p.ident.toNat
  rxPacket kGetData fd p (some (partOfTile t)) s fun s =>
    match ((s.ctx t c).fab tag).xfer with
    | none => s.countDrop fd dLate
    | some xf =>
      if !s.awaited t c tag i .fabGet p.jobId p.jobGen then s.countDrop fd dLate
      else
        let a := winAddr t (s.ctx t c) (xf.aw + i * pktBytes)
        let n := pktLen xf.len i
        let s1 :=
          if pktStatus p = 0 then (s.writeRange a (sliceB p.payload 0 n) 0).1
          else if pktStatus p = 2 then
            let (s1, fs) := s.freeBytes n
            (s1.writeRange a fs 0).1
          else s
        s1.updCtx t c fun x => x.answered tag i (pktStatus p)

/-- The generation of a job's hurdle on this module (R64). -/
def State.hurGenOf (s : State) (j : BitVec 16) (h : BitVec 12) : Byte :=
  match s.slotOfJob j with
  | some i => (tabGet (fun _ => ({} : Hur)) (s.job i).hurs h.toNat).gen
  | none => 0

/-- FAB_TRANSFER_COMPLETE (R182): every packet is answered; a reduction also waits for its hurdle's
release, unless it ended with status 3 or 4 (R100). -/
def execFabTransferComplete (t : Nat) (c : Nat) (tag : Nat) (s : State) : Res :=
  let x := s.ctx t c
  match (x.fab tag).xfer with
  | none => .next s
  | some xf =>
    let released := decide (xf.kind ≠ .fabRed ∨ 3 ≤ xf.worst.toNat ∨ s.hurGenOf x.jobId xf.hur ≠ xf.gen)
    doIf (s.dieOn (dieOfTile t) && decide (c < 4) && xf.open_.isEmpty && released) s (s.fabDone t c tag xf.worst)

end Sys2Proof.Machine
end

