-- ==== Sys2Proof/Machine/Red.lean ====
section
/-! DEFINITION. The hurdle plan of a job on this module, and the reduction engines (03, R65 and R67; 07,
R183 to R185). -/

namespace Sys2Proof.Machine

/-! ### The plan -/

/-- The images of a job's current generation that name hurdle `h`, each with its record. -/
def State.hurRecs (s : State) (job : BitVec 16) (gen : Byte) (h : BitVec 12) : List (Image × HurRec) :=
  (s.images.filter (fun i => decide (i.jobId = job ∧ i.jobGen = gen))).filterMap
    (fun i => (i.hurs.find? (fun r => decide (r.id = h))).map (fun r => (i, r)))

/-- The records of hurdle `h` for the job in slot `j`. -/
def State.slotRecs (s : State) (j : Nat) (h : BitVec 12) : List (Image × HurRec) :=
  s.hurRecs (s.job j).jobId (s.job j).jobGen h

/-- Members on this module, child modules, and the parent's coordinate (none at the root). Where images that name
one hurdle differ, which the spec does not foresee, the largest number of children and the first image's parent
are taken (DESIGN CHOICE, log entry 53). -/
def hurMembers (l : List (Image × HurRec)) : Nat := (l.map (fun x => x.2.members)).foldl (· + ·) 0
def hurChildren (l : List (Image × HurRec)) : Nat := (l.map (fun x => x.2.children)).foldl max 0
def hurParent (l : List (Image × HurRec)) : Option Coord :=
  l.head?.bind (fun x => if x.2.parent = 0xFFFF then none else x.1.peers[x.2.parent]?)

/-- The peer index of a module in the first image that names the hurdle. -/
def peerIndex (l : List (Image × HurRec)) (co : Coord) : Nat :=
  match l.head? with
  | some x => x.1.peers.findIdx (fun c => decide (c = co))
  | none => 0

/-- The partitions that belong to a job. -/
def State.jobParts (s : State) (job : BitVec 16) : List Nat :=
  (List.range 8).filter (fun p => decide (s.jobOfPart p = job))

/-- An event on the rings of a job's partitions. -/
def State.jobEvent (s : State) (job : BitVec 16) (kind : Byte) (detail : List (Nat × Nat × Nat)) : State :=
  (s.jobParts job).foldl (fun (s : State) p => s.event p kind detail) s

/-- Hurdle messages dropped under R67. -/
def State.stale_ (s : State) (j n : Nat) : State :=
  let old := (s.job j).stale
  let v := stickAdd old n
  (s.updJob j fun x => { x with stale := v }).stuck (fabOff 0 0x1E0018 + 0x40 * j) old v

/-! ### Elements (R184) -/

/-- Bytes of an element of a contribution: binary32, or bfloat16. -/
def redWidth (f : BitVec 1) : Nat := if f = 1 then 2 else 4
/-- A bfloat16 sum is carried as binary32. -/
def redWide (op : BitVec 2) (f : BitVec 1) : Bool := decide (op = 0 ∧ f = 1)

/-- Little-endian elements of `w` bytes. -/
def elemsOf (w : Nat) : Nat → List Byte → List Nat
  | 0, _ => []
  | n + 1, l => leVal (l.take w) :: elemsOf w n (l.drop w)

/-- Elements of a local contribution as the engine folds them. -/
def widen (op : BitVec 2) (f : BitVec 1) (l : List Byte) : List Nat :=
  let es := elemsOf (redWidth f) (l.length / redWidth f) l
  if redWide op f then es.map (· * 65536) else es

/-- One element combined with another. -/
def redCombine (op : BitVec 2) (f : BitVec 1) (a b : Nat) : Nat :=
  if op = 0 then (f32.round .nearest false 0 (fadd (f32.decode a) (f32.decode b)).1).1
  else
    let m := if f = 1 then bf16 else f32
    (m.round .nearest false 0 (fminmax (decide (op = 1)) (m.decode a) (m.decode b)).1).1

/-- A partial folded with the next, element by element; none is the empty partial. -/
def redFold (op : BitVec 2) (f : BitVec 1) (acc : Option (List Nat)) (x : List Nat) : Option (List Nat) :=
  match acc with
  | none => some x
  | some a => some ((a.zip x).map (fun p => redCombine op f p.1 p.2))

/-- The result as the members see it: a bfloat16 sum is rounded once. -/
def redFinal (op : BitVec 2) (f : BitVec 1) (es : List Nat) : List Byte :=
  if redWide op f then es.flatMap (fun e => leBytes 2 (bf16.round .nearest false 0 (f32.decode e)).1)
  else es.flatMap (leBytes (redWidth f))

/-- A partial as it is carried between modules. -/
def redCarry (op : BitVec 2) (f : BitVec 1) (es : List Nat) : List Byte :=
  es.flatMap (leBytes (if redWide op f then 4 else redWidth f))

/-! ### Chunks -/

/-- Key of a reduction: hurdle and generation. -/
def redKey (h : BitVec 12) (g : Byte) : Nat := h.toNat * 256 + g.toNat

def State.red (s : State) (j key : Nat) : Red := tabGet (fun _ => {}) (s.job j).reds key
def State.updRed (s : State) (j key : Nat) (f : Red → Red) : State :=
  s.updJob j fun x => { x with reds := tabSet (fun _ => {}) x.reds key (f (tabGet (fun _ => {}) x.reds key)) }

/-- Units of 4 KiB that a chunk is carried in. -/
def unitsPer (op : BitVec 2) (f : BitVec 1) : Nat := if redWide op f then 2 else 1

/-- Chunks of 4 KiB of output; a contribution of no bytes has one empty chunk, by which it meets the others
(log entry 20). -/
def chunksOf (len : Nat) : Nat := max 1 ((len + 4095) / 4096)

/-- The bytes of a chunk of a contribution of `len` bytes. -/
def chunkLen (len i : Nat) : Nat := min 4096 (len - i * 4096)

/-- Insertion by a key, and the list in the order of the key; equal keys keep their order. -/
def insertBy {α : Type} (k : α → Nat) (x : α) : List α → List α
  | [] => [x]
  | y :: ys => if k y < k x then y :: insertBy k x ys else x :: y :: ys
def sortBy {α : Type} (k : α → Nat) (l : List α) : List α := l.foldr (insertBy k) []

/-- Local contributions in the order of R183, those of FD1 after those of FD0. -/
def localOrder (cs : List Contrib) : List (List Contrib) :=
  let ls := sortBy (fun c => ctxKey c.tile c.ctx) (cs.filter (fun c => c.child.isNone))
  [ls.filter (fun c => decide (fdOfTile c.tile = 0)), ls.filter (fun c => decide (fdOfTile c.tile = 1))]

/-- Children in increasing peer index. -/
def childOrder (recs : List (Image × HurRec)) (cs : List Contrib) : List Contrib :=
  sortBy (fun c => peerIndex recs (c.child.getD 0)) (cs.filter (fun c => c.child.isSome))

/-- A unit of a child's partial, where it has arrived; the module's result of a chunk, where it is combined. -/
def Contrib.unit (c : Contrib) (u : Nat) : Option (List Byte) := tabGet (fun _ => none) c.units u
def Red.chunk (r : Red) (i : Nat) : Option (List Byte) := tabGet (fun _ => none) r.chunks i

/-- The carried elements of a child's chunk. -/
def childElems (op : BitVec 2) (f : BitVec 1) (c : Contrib) (i : Nat) : List Nat :=
  let n := unitsPer op f
  let bs := (List.range n).flatMap (fun u => (c.unit (n * i + u)).getD [])
  let w := if redWide op f then 4 else redWidth f
  elemsOf w (bs.length / w) bs

/-- The value of a chunk: each die's fold, FD1's partial after FD0's, then the children's. -/
def chunkValue (recs : List (Image × HurRec)) (r : Red) (op : BitVec 2) (f : BitVec 1) (i : Nat) : List Nat :=
  let dies := (localOrder r.contribs).map (fun cs => cs.foldl (fun acc c =>
    redFold op f acc (widen op f (sliceB (c.data.drop (i * 4096)) 0 (chunkLen c.len i)))) none)
  let mine := dies.foldl (fun acc d => match d with | none => acc | some x => redFold op f acc x) none
  ((childOrder recs r.contribs).foldl (fun acc c => redFold op f acc (childElems op f c i)) mine).getD []

/-- Every contribution to a chunk is present (R183). -/
def chunkReady (recs : List (Image × HurRec)) (r : Red) (i : Nat) : Bool :=
  match r.contribs with
  | [] => false
  | c :: _ =>
    !r.mismatch && !r.lost && decide (c.op ≠ 3 ∧ i < chunksOf c.len)
    && (r.chunk i).isNone
    && decide ((r.contribs.filter (fun x => x.child.isNone)).length = hurMembers recs)
    && decide ((r.contribs.filter (fun x => x.child.isSome)).length = hurChildren recs)
    && r.contribs.all (fun x => x.child.isNone || (List.range (unitsPer c.op c.f)).all (fun u =>
        (x.unit (unitsPer c.op c.f * i + u)).isSome))

/-! ### Packets (log entry 20: the spec gives no layout of their arg) -/

def redArg (g : Byte) (op : BitVec 2) (f : BitVec 1) (unit len status : Nat) : Word :=
  BitVec.ofNat 64 (g.toNat + 256 * op.toNat + 1024 * f.toNat + 2 ^ 16 * unit + 2 ^ 32 * len + 2 ^ 56 * status)

/-- A reduction packet of hurdle `h`, generation `g`, of the job in slot `j`. -/
def State.redSend (s : State) (j : Nat) (kind : Byte) (dst : Coord) (h : BitVec 12) (arg : Word)
    (payload : List Byte) : State :=
  s.sendPacket 0 {
    dst := dst, src := 0, kind := kind, vc := 2, det := !(s.job j).adaptive, jobId := (s.job j).jobId,
    jobGen := (s.job j).jobGen, len := BitVec.ofNat 13 payload.length, ident := h.setWidth 16,
    arg := arg, payload := payload }

/-- The members on this module that wait for a reduction: their tiles, contexts and tags. -/
def State.redMembers (s : State) (j : Nat) (h : BitVec 12) (g : Byte) : List (Nat × Nat × Nat) :=
  (s.ctxs.filter (fun e => e.2.sameJob (s.job j).jobId (s.job j).jobGen)).flatMap (fun e =>
    (e.2.fabs.filter (fun p => (p.2.xfer.map (fun x => decide (x.kind = .fabRed ∧ x.hur = h ∧ x.gen = g))).getD false)).map
      (fun p => (e.1 / 4, e.1 % 4, p.1)))

/-- Every member's tag is to complete with `status`, whatever has not landed (R100, R172, R185). -/
def State.redEndMembers (s : State) (j : Nat) (h : BitVec 12) (g : Byte) (status : BitVec 8) : State :=
  (s.redMembers j h g).foldl (fun (s : State) m => s.updCtx m.1 m.2.1 fun x =>
    match (x.fab m.2.2).xfer with
    | none => x
    | some xf => x.setFab m.2.2 { x.fab m.2.2 with xfer := some { xf with open_ := [], worst := status } }) s

/-- A reduction ends with a mismatch (3) or a loss (4): here, in the parent where `up`, and in the
children that have contributed. -/
def State.redFail (s : State) (j : Nat) (h : BitVec 12) (g : Byte) (status : Nat) (up : Bool) : State :=
  let key := redKey h g
  let s1 := (s.updRed j key fun r =>
    { r with mismatch := r.mismatch || decide (status = 3), lost := r.lost || decide (status = 4) }).redEndMembers
      j h g (BitVec.ofNat 8 status)
  let s2 := match up, hurParent (s.slotRecs j h) with
    | true, some co => s1.redSend j kRedUp co h (redArg g 3 0 0 0 status) []
    | _, _ => s1
  ((s.red j key).contribs.filterMap (·.child)).foldl (fun (s : State) co =>
    s.redSend j kRedDown co h (redArg g 3 0 0 0 status) []) s2

/-- A contribution joins; one that differs from the first in operation, format or length is a mismatch
(R100, R185). -/
def State.redJoin (s : State) (j : Nat) (h : BitVec 12) (g : Byte) (c : Contrib) : State :=
  let key := redKey h g
  let r := s.red j key
  let s1 := s.updRed j key fun r => { r with contribs := r.contribs ++ [c] }
  if r.lost then s1.redFail j h g 4 true
  else if r.mismatch then s1.redFail j h g 3 true
  else match r.contribs with
    | [] => s1
    | c0 :: _ => if c0.op = c.op ∧ c0.f = c.f ∧ c0.len = c.len then s1 else s1.redFail j h g 3 true

/-- A chunk of the result lands in the windows of this module's members. -/
def State.redLand (s : State) (j : Nat) (h : BitVec 12) (g : Byte) (i : Nat) (bytes : List Byte) : State :=
  (s.redMembers j h g).foldl (fun (s : State) m =>
    match ((s.ctx m.1 m.2.1).fab m.2.2).xfer with
    | none => s
    | some xf =>
      if xf.open_.contains i then
        (s.writeRange (winAddr m.1 (s.ctx m.1 m.2.1) (xf.am + i * 4096)) (bytes.take (chunkLen xf.len i)) 0).1.updCtx
          m.1 m.2.1 fun x => x.answered m.2.2 i 0
      else s) s

/-- A chunk of the result goes down to the children. -/
def State.redDownTo (s : State) (j : Nat) (h : BitVec 12) (g : Byte) (i : Nat) (c : Contrib) (bytes : List Byte) : State :=
  ((s.red j (redKey h g)).contribs.filterMap (·.child)).foldl (fun (s : State) co =>
    s.redSend j kRedDown co h (redArg g c.op c.f i c.len 0) bytes) s

/-- REDUCTION_CHUNK_COMBINE (R183, R184): a chunk whose contributions are all present is combined; the
root sends the result down, another module sends its partial up. -/
def execReductionChunkCombine (j : Nat) (h : BitVec 12) (chunk : Nat) (s : State) : Res :=
  let recs := s.slotRecs j h
  match (s.job j).reds.find? (fun r => decide (r.1 / 256 = h.toNat) && chunkReady recs r.2 chunk) with
  | none => .next s
  | some (key, r) =>
    match r.contribs with
    | [] => .next s
    | c :: _ =>
      if !s.pwr.transit then .next s
      else
        let g := BitVec.ofNat 8 key
        let es := chunkValue recs r c.op c.f chunk
        let s1 := s.updRed j key fun r => { r with chunks := tabSet (fun _ => none) r.chunks chunk (some (redCarry c.op c.f es)) }
        match hurParent recs with
        | none =>
          let res := redFinal c.op c.f es
          .next ((s1.redLand j h g chunk res).redDownTo j h g chunk c res)
        | some co =>
          let bs := redCarry c.op c.f es
          let n := unitsPer c.op c.f
          .next ((List.range n).foldl (fun (s : State) u =>
            s.redSend j kRedUp co h (redArg g c.op c.f (n * chunk + u) c.len 0) ((bs.drop (u * (bs.length / n))).take (bs.length / n))) s1)

/-- Fields of a reduction packet. -/
def redPktStatus (p : Packet) : Nat := bitsAt p.arg.toNat 56 8
def redPktGen (p : Packet) : Byte := p.arg.setWidth 8

/-- RED_UP: a child's partial, or what ended it, reaches the engine of FD0. -/
def execRedUp (fd : Nat) (p : Packet) (s : State) : Res :=
  rxPacket kRedUp fd p none s fun s =>
    match s.slotOfJob p.jobId with
    | none => s
    | some j =>
      let h := p.ident.setWidth 12
      let g := redPktGen p
      let key := redKey h g
      let r := s.red j key
      let cur := (tabGet (fun _ => ({} : Hur)) (s.job j).hurs h.toNat).gen
      if r.contribs.isEmpty && !r.mismatch && !r.lost && decide (g ≠ cur) then s.countDrop fd dLate
      else if redPktStatus p ≠ 0 then
        (if r.mismatch || r.lost then s else s.redFail j h g (redPktStatus p) true)
      else
        let c : Contrib := {
          tile := 0, ctx := 0, child := some p.src, op := BitVec.ofNat 2 (bitsAt p.arg.toNat 8 2),
          f := BitVec.ofNat 1 (bitsAt p.arg.toNat 10 1), len := bitsAt p.arg.toNat 32 21 }
        let s1 := if r.contribs.any (fun x => decide (x.child = some p.src)) then s else s.redJoin j h g c
        if c.op = 3 then s1
        else s1.updRed j key fun r => { r with contribs := r.contribs.map (fun x =>
          if x.child = some p.src then
            { x with units := tabSet (fun _ => none) x.units (bitsAt p.arg.toNat 16 16) (some p.payload) }
          else x) }

/-- A result comes for members of this module whose tags have all completed: it is late (R173). -/
def State.redLate (s : State) (j : Nat) (h : BitVec 12) (g : Byte) : Bool :=
  decide (hurMembers (s.slotRecs j h) ≠ 0) && (s.redMembers j h g).isEmpty

/-- RED_DOWN: the root's result, or what ended the reduction, for the members here and below. -/
def execRedDown (fd : Nat) (p : Packet) (s : State) : Res :=
  rxPacket kRedDown fd p none s fun s =>
    match s.slotOfJob p.jobId with
    | none => s
    | some j =>
      let h := p.ident.setWidth 12
      let g := redPktGen p
      if redPktStatus p ≠ 0 then
        let r := s.red j (redKey h g)
        if r.mismatch || r.lost then s else s.redFail j h g (redPktStatus p) false
      else
        let i := bitsAt p.arg.toNat 16 16
        let c : Contrib := {
          tile := 0, ctx := 0, child := none, op := BitVec.ofNat 2 (bitsAt p.arg.toNat 8 2),
          f := BitVec.ofNat 1 (bitsAt p.arg.toNat 10 1), len := bitsAt p.arg.toNat 32 21 }
        ((if s.redLate j h g then s.countDrop fd dLate else s).redLand j h g i p.payload).redDownTo j h g i c p.payload

end Sys2Proof.Machine
end

