-- ==== Sys2Proof/Machine/Hurdle.lean ====
section
/-! DEFINITION. Hurdles: the HUR class, FAB.RED as an arrival, the hurdle unit and its messages (03, R64 to
R71; 04, R100; 07, R174). -/

namespace Sys2Proof.Machine

/-! ### Places -/

def Job.hur (x : Job) (h : BitVec 12) : Hur := tabGet (fun _ => {}) x.hurs h.toNat
def State.updHur (s : State) (j : Nat) (h : BitVec 12) (f : Hur → Hur) : State :=
  s.updJob j fun x => { x with hurs := tabSet (fun _ => {}) x.hurs h.toNat (f (x.hur h)) }

def Tile.hur (x : Tile) (h : BitVec 12) : Hur0 := tabGet (fun _ => {}) x.hurs h.toNat

/-- The record of hurdle `h` in a context's own image (R66). -/
def State.planOf (s : State) (t : Nat) (x : Ctx) (h : BitVec 12) : Option HurRec :=
  (s.imageOf t x).bind (fun i => i.hurs.find? (fun r => decide (r.id = h)))

/-- The current generation of `h` as a context of tile `t` sees it (R64, R65). -/
def State.genNow (s : State) (t : Nat) (x : Ctx) (h : BitVec 12) : Byte :=
  if (s.planOf t x h).any (fun r => decide (r.level = 0)) then ((s.tile t).hur h).gen
  else s.hurGenOf x.jobId h

/-! ### Release (R64, R65, R69, R174) -/

/-- The checkpoint coordinator's part in a release: the row that the holder has sealed is committed, and
the holder is told (11, "Commit"). A twinless module tells nobody. -/
def State.commitReleased (s : State) (j : Nat) : State :=
  let c := s.ckptJob j
  if c.state = 2 then
    let s1 := s.setCkptJob j { c with
      state := 0, frozen := [], fullNext := c.fullNext && !c.sealedAt, commitRow := (s.job j).row,
      bound := s.twin.bindOff.isSome,
      pause := if s.tb.toNat - c.arrival.toNat < 2 ^ 32 - 1 then BitVec.ofNat 32 (s.tb.toNat - c.arrival.toNat) else stickMax 32 }
    if c.sealedAt then
      s1.emit (.commitNotice {
        dst := s.twin.coord, src := s.shep.coord, kind := kCkpt, vc := 3, jobId := 0, ident := (s.job j).jobId,
        jobGen := (s.job j).jobGen } (s.job j).row)
    else s1
  else s

/-- RELEASE goes to a child module. -/
def State.sendRelease (s : State) (j : Nat) (h : BitVec 12) (g : Byte) (co : Coord) : State :=
  s.sendPacket 0 {
    dst := co, src := 0, kind := kHurRelease, vc := 3, det := !(s.job j).adaptive, jobId := (s.job j).jobId,
    jobGen := (s.job j).jobGen, ident := h.setWidth 16, arg := g.setWidth 64 }

/-- The hurdle is released on this module: a commit hurdle advances the row counter first, the
generation advances, RELEASE goes to the children, and the host is told where the record says so. -/
def State.hurRelease (s : State) (j : Nat) (h : BitVec 12) : State :=
  let recs := s.slotRecs j h
  let x := s.job j
  let g := (x.hur h).gen
  let kids := (x.hur h).kids
  let commit := recs.any (fun r => r.2.commit)
  let s1 := if commit then (s.updJob j fun x => { x with row := x.row + 1 }).commitReleased j else s
  let s2 := s1.updJob j fun x => { x with
    lastHur := h, lastHurGen := g,
    hurs := tabSet (fun _ => {}) x.hurs h.toNat { gen := g + 1, lastRelease := some s.tb },
    reds := x.reds.filter (fun r => decide (r.1 / 256 ≠ h.toNat ∨ r.1 % 256 = g.toNat ∨ r.1 % 256 = (g - 1).toNat)) }
  let s3 := kids.foldl (fun (s : State) co => s.sendRelease j h g co) s2
  if recs.any (fun r => r.2.post) then
    s3.jobEvent x.jobId 4 [(16, 2, x.jobId.toNat), (18, 1, x.jobGen.toNat), (20, 2, h.toNat), (22, 1, g.toNat),
      (24, 8, (s2.job j).row.toNat)]
  else s3

/-- Ticks between two releases of a level-2 hurdle (R174). -/
def releaseSpacing : Nat := 1600
/-- The release of a hurdle must still wait. -/
def State.releaseHeld (s : State) (x : Hur) : Bool :=
  match x.lastRelease with
  | some t => !s.passed t releaseSpacing
  | none => false

/-- Every member of this module and every child has arrived, under an image that names the hurdle (R65,
R67). -/
def hurFull (recs : List (Image × HurRec)) (x : Hur) : Bool :=
  !recs.isEmpty && decide (hurMembers recs ≤ x.local_ ∧ hurChildren recs ≤ x.kids.length)

/-- The hurdle unit moves a hurdle on: a module hurdle is released; a job hurdle is reported to the parent,
or at the root released, once the checkpoint coordinator is ready where it commits (R65, R69, R294). -/
def State.hurAdvance (s : State) (j : Nat) (h : BitVec 12) : State :=
  let recs := s.slotRecs j h
  let x := (s.job j).hur h
  if !hurFull recs x || x.complete then s
  else if recs.any (fun r => r.2.commit) && decide ((s.ckptJob j).state ≠ 2) then s
  else if recs.all (fun r => decide (r.2.level = 1)) then s.hurRelease j h
  else match hurParent recs with
    | some co =>
      let s1 := (s.updHur j h fun x => { x with complete := true }).sendPacket 0 {
        dst := co, src := 0, kind := kHurArrive, vc := 3, det := !(s.job j).adaptive, jobId := (s.job j).jobId,
        jobGen := (s.job j).jobGen, ident := h.setWidth 16, arg := x.gen.setWidth 64 }
      -- a module with plain arrivals only says so to the engine above (log entry 20)
      if (s.job j).reduction && (s.red j (redKey h x.gen)).contribs.all (fun c => decide (c.op = 3)) then
        s1.redSend j kRedUp co h (redArg x.gen 3 0 0 0 0) []
      else s1
    | none =>
      if s.releaseHeld x then (s.updHur j h fun x => { x with complete := true }).countHold 0 1
      else s.hurRelease j h

/-- RELEASE_HOLD_END (R174). -/
def execReleaseHoldEnd (j : Nat) (h : BitVec 12) (s : State) : Res :=
  let recs := s.slotRecs j h
  let x := (s.job j).hur h
  doIf (s.pwr.transit && decide (j < 8) && (s.job j).valid && x.complete && (hurParent recs).isNone && hurFull recs x
    && !s.releaseHeld x) s (s.hurRelease j h)

/-! ### Arrivals (R64 to R67, R71) -/

/-- Arrivals counted at the current generation of a hurdle of the hurdle unit. -/
def State.hurCount (s : State) (j : Nat) (h : BitVec 12) (n : Nat) (kid : Option Coord) : State :=
  let s1 := s.updHur j h fun x => { x with
    local_ := x.local_ + n, kids := x.kids ++ kid.toList,
    openSince := match x.openSince with | none => some s.tb | some t => some t }
  let recs := s.slotRecs j h
  let x := (s1.job j).hur h
  -- the last local arrival at a commit hurdle starts the commit's clock (R295)
  let s2 := if recs.any (fun r => r.2.commit) && decide (0 < n ∧ hurMembers recs ≤ x.local_) then
      s1.updCkptJob j fun c => { c with arrival := s.tb }
    else s1
  s2.hurAdvance j h

/-- The generation arrived at, and its image's record, of a counted arrival. -/
def State.countArrival (s : State) (t : Nat) (x : Ctx) (h : BitVec 12) (g : Byte) : State :=
  match s.planOf t x h with
  | none => s
  | some r =>
    if r.level = 0 then
      let y := (s.tile t).hur h
      let full := decide (r.members ≤ y.count + 1)
      let z : Hur0 := if full then { gen := y.gen + 1, count := 0 } else { y with count := y.count + 1 }
      let s1 := s.updTile t fun w => { w with hurs := tabSet (fun _ => {}) w.hurs h.toNat z }
      if full && r.post then
        s1.event (partOfTile t) 4 [(16, 2, x.jobId.toNat), (18, 1, x.jobGen.toNat), (20, 2, h.toNat), (22, 1, y.gen.toNat),
          (24, 8, ((s.slotOfJob x.jobId).map (fun j => (s.job j).row.toNat)).getD 0)]
      else s1
    else
      s.updDie (dieOfTile t) fun d =>
        let same := fun (m : ArrMsg) => decide (m.jobId = x.jobId ∧ m.jobGen = x.jobGen ∧ m.hur = h ∧ m.hurGen = g)
        if d.arrMsgs.any same then
          { d with arrMsgs := d.arrMsgs.map (fun m => if same m then { m with count := m.count + 1 } else m) }
        else { d with arrMsgs := d.arrMsgs ++ [{ jobId := x.jobId, jobGen := x.jobGen, hur := h, hurGen := g, count := 1 }] }

/-- A context arrives: the arrival counts at once, or is held by the die until the context's earlier
writes are complete (R71). -/
def State.arriveAt (s : State) (t c : Nat) (h : BitVec 12) (mems fabs : List Nat) : State :=
  let x := s.ctx t c
  let g := s.genNow t x h
  let s1 := s.updCtx t c fun x => { x with arrived := tabSet (fun _ => g + 1) x.arrived h.toNat g }
  if mems.isEmpty && fabs.isEmpty then s1.countArrival t x h g
  else s1.updCtx t c fun x => { x with heldArr := x.heldArr ++ [(h, g, mems, fabs)] }

/-- The arrival breaks a rule of R66: no such hurdle in the image, or not waited for since the last. -/
def State.badArrival (s : State) (t : Nat) (x : Ctx) (h : BitVec 12) : Bool :=
  (s.planOf t x h).isNone || x.arrived.any (fun a => decide (a.1 = h.toNat))

/-- A plain arrival at a job hurdle of a job that reduces is a contribution of nothing (R100). -/
def State.plainJoin (s : State) (t c : Nat) (h : BitVec 12) : State :=
  let x := s.ctx t c
  match s.slotOfJob x.jobId with
  | some j =>
    if (s.job j).reduction && (s.planOf t x h).any (fun r => decide (r.level = 2)) then
      s.redJoin j h ((s.job j).hur h).gen { tile := t, ctx := c, child := none, op := 3, f := 0, len := 0 }
    else s
  | none => s

/-- The hurdle of an instruction. -/
def hurId (o : Op) : BitVec 12 := BitVec.ofNat 12 (fImm o.body)

/-- A plain arrival of context `c`. -/
def State.hurArrive (s : State) (t c : Nat) (h : BitVec 12) : State :=
  let x := s.ctx t c
  (s.plainJoin t c h).arriveAt t c h (writeTags x.mems) (writeTags x.fabs)

/-- HUR_ARRIVE (R64, R66). -/
def execHurArrive (t : Nat) (o : Op) (s : State) : Res :=
  stage 0x38 0x00 t o s fun s c =>
    if s.badArrival t (s.ctx t c) (hurId o) then .fault s 4 else .done (s.hurArrive t c (hurId o))

/-- The generation arrived at of hurdle `h`. -/
def Ctx.arrivedAt (x : Ctx) (h : BitVec 12) : Option Byte :=
  (x.arrived.find? (fun a => decide (a.1 = h.toNat))).map (·.2)

/-- The release of the generation arrived at is there: the wait returns (R64). -/
def State.hurPassed (s : State) (t c : Nat) (h : BitVec 12) (g : Byte) : State :=
  s.updCtx t c fun x => { x with
    arrived := x.arrived.filter (fun a => decide (a.1 ≠ h.toNat)), inSync := false, lastHur := h, lastHurGen := g }

/-- The wait of HUR_WAIT and HUR_SYNC. -/
def hurWaits (s : State) (t c : Nat) (h : BitVec 12) : Fx :=
  match (s.ctx t c).arrivedAt h with
  | none => .fault s 4
  | some g => if s.genNow t (s.ctx t c) h = g then .starve s 3 else .done (s.hurPassed t c h g)

/-- HUR_WAIT (R50, R64, R66). -/
def execHurWait (t : Nat) (o : Op) (s : State) : Res :=
  stage 0x38 0x01 t o s fun s c => hurWaits s t c (hurId o)

/-- HUR_SYNC: an arrival, then a wait; when it issues again after its wait it does not arrive again. -/
def execHurSync (t : Nat) (o : Op) (s : State) : Res :=
  stage 0x38 0x02 t o s fun s c =>
    if (s.ctx t c).inSync then hurWaits s t c (hurId o)
    else if s.badArrival t (s.ctx t c) (hurId o) then .fault s 4
    else hurWaits ((s.hurArrive t c (hurId o)).updCtx t c fun x => { x with inSync := true }) t c (hurId o)

/-- HUR_GEN. -/
def execHurGen (t : Nat) (o : Op) (s : State) : Res :=
  stageReg 0x38 0x03 t o s fun s x => x.setS (fD o.body) ((s.genNow t x (hurId o)).setWidth 64)

/-- ARRIVAL_WRITES_COMPLETE (R71): a held arrival counts once the writes before it are complete. -/
def execArrivalWritesComplete (t : Nat) (c : Nat) (h : BitVec 12) (s : State) : Res :=
  let x := s.ctx t c
  match x.heldArr.find? (fun a => decide (a.1 = h)) with
  | none => .next s
  | some a =>
    doIf (s.dieOn (dieOfTile t) && decide (c < 4) && a.2.2.1.isEmpty && a.2.2.2.isEmpty) s
      ((s.updCtx t c fun x => { x with heldArr := x.heldArr.filter (fun b => decide (b.1 ≠ h)) }).countArrival t x h a.2.1)

/-- HURDLE_ARRIVAL (R65, R67): the oldest summed message of a tile die reaches the hurdle unit. -/
def execHurdleArrival (die : Nat) (s : State) : Res :=
  match (s.die die).arrMsgs with
  | [] => .next s
  | m :: ms =>
    if !(s.pwr.transit && decide (die < 40)) then .next s
    else
      let s1 := s.updDie die fun d => { d with arrMsgs := ms }
      match s1.slotOfJob m.jobId with
      | none => .next s1
      | some j =>
        if (s1.job j).jobGen ≠ m.jobGen ∨ ((s1.job j).hur m.hur).gen ≠ m.hurGen then .next (s1.stale_ j 1)
        else .next (s1.hurCount j m.hur m.count none)

/-! ### FAB.RED (R100) -/

/-- The longest contribution. -/
def redLimit : Nat := 0x100000

/-- FAB_RED: the context's arrival at a job hurdle with a contribution; x[11:0] is the hurdle, x[13:12] the
operation, x[14] the format. One refused with status 1 contributes nothing and is no arrival (DESIGN
CHOICE, log entry 33). -/
def execFabRed (t : Nat) (o : Op) (s : State) : Res :=
  stage 0x34 0x02 t o s fun s c =>
    let tag := fD o.body
    let h := BitVec.ofNat 12 (fX o.body)
    fabTag s t c tag fun s =>
      let x := s.ctx t c
      let len := (x.getS (fC o.body)).toNat % 2 ^ 32 / 256 * 256
      let aw := x.getA32 (fA o.body)
      let ad := x.getA32 (fB o.body)
      if s.badArrival t x h || !(s.planOf t x h).any (fun r => decide (r.level = 2)) then .fault s 4
      else if redLimit < len || !((s.imageOf t x).any (fun i => i.flags.getLsbD 0)) then .done (s.fabDone t c tag 1)
      else if !x.winOk aw len || !x.winOk ad len then .fault s 2
      else match s.slotOfJob x.jobId with
        | none => .done (s.fabDone t c tag 1)
        | some j =>
          let g := ((s.job j).hur h).gen
          let (s1, bs, ok) := s.readXfer (winAddr t x aw) len
          let xf : Xfer := {
            kind := .fabRed, aw := aw, am := ad, len := len, hur := h, gen := g,
            open_ := List.range (chunksOf len), worst := if ok then 0 else 2 }
          let s2 := s1.updCtx t c fun x => x.setFab tag { x.fab tag with xfer := some xf, status := 0, redHur := some h }
          let s3 := s2.redJoin j h g {
            tile := t, ctx := c, child := none, op := BitVec.ofNat 2 (bitsAt (fX o.body) 12 2),
            f := BitVec.ofNat 1 (bitsAt (fX o.body) 14 1), len := len, data := bs }
          .done (s3.arriveAt t c h (writeTags x.mems) (writeTags x.fabs))

/-! ### Messages of other modules (R67) -/

/-- HUR_ARRIVE_PACKET: counted, also early, before an image names the hurdle; a message of another
generation is dropped. -/
def execHurArrivePacket (p : Packet) (s : State) : Res :=
  rxPacket kHurArrive 0 p none s fun s =>
    match s.slotOfJob p.jobId with
    | none => s
    | some j =>
      let h := p.ident.setWidth 12
      if ((s.job j).hur h).gen ≠ p.arg.setWidth 8 then s.stale_ j 1
      else if (s.slotRecs j h).isEmpty then (s.updHur j h fun x => { x with early := x.early + 1 }).hurCount j h 0 (some p.src)
      else s.hurCount j h 0 (some p.src)

/-- HUR_RELEASE_PACKET: the parent's release, for a hurdle that an image names and at its generation. -/
def execHurReleasePacket (p : Packet) (s : State) : Res :=
  rxPacket kHurRelease 0 p none s fun s =>
    match s.slotOfJob p.jobId with
    | none => s
    | some j =>
      let h := p.ident.setWidth 12
      if (s.slotRecs j h).isEmpty || decide (((s.job j).hur h).gen ≠ p.arg.setWidth 8) then s.stale_ j 1
      else s.hurRelease j h

/-! ### Timeouts (R68) -/

/-- A hurdle has been open for the limit and is not reported. -/
def State.hurLate (s : State) (x : Hur) : Bool :=
  decide (s.hurTimeout ≠ 0) && !x.timedOut
    && (match x.openSince with | some t => s.passed t s.hurTimeout.toNat | none => false)

/-- The event of R68, once for each generation. -/
def State.hurReport (s : State) (j : Nat) (h : BitVec 12) : State :=
  let x := s.job j
  let g := (x.hur h).gen
  ((s.updHur j h fun x => { x with timedOut := true }).raise (.hurdleTimeout h g) 2).jobEvent x.jobId 3
    [(16, 2, x.jobId.toNat), (18, 1, x.jobGen.toNat), (20, 2, h.toNat), (22, 1, g.toNat)]

/-- HURDLE_TIMEOUT. -/
def execHurdleTimeout (j : Nat) (h : BitVec 12) (s : State) : Res :=
  doIf (s.pwr.transit && decide (j < 8) && (s.job j).valid && s.hurLate ((s.job j).hur h)) s (s.hurReport j h)

/-- HUR_TIMEOUT takes a value, which applies at once to every hurdle open. -/
def State.setHurTimeout (s : State) (ticks : BitVec 32) : State :=
  (List.range 8).foldl (fun (s : State) j =>
    if (s.job j).valid then
      ((s.job j).hurs.filter (fun e => s.hurLate e.2)).foldl (fun (s : State) e => s.hurReport j (BitVec.ofNat 12 e.1)) s
    else s) { s with hurTimeout := ticks }

/-- HUR_TIMEOUT_WRITE. -/
def execHurTimeoutWrite (ticks : BitVec 32) (s : State) : Res := doIf s.pwr.transit s (s.setHurTimeout ticks)

/-- A job generation ends: the early arrivals that are still held are dropped and counted (R67). -/
def State.dropEarly (s : State) (j : Nat) : State :=
  s.stale_ j (((s.job j).hurs.map (fun e => e.2.early)).foldl (· + ·) 0)

/-- An image that names a hurdle is loaded: arrivals for it are early no more (R67). -/
def State.nameHurdles (s : State) (job : BitVec 16) (gen : Byte) (hs : List HurRec) : State :=
  match s.slotOfJob job with
  | some j =>
    if (s.job j).jobGen = gen then
      (hs.filter (fun r => decide (r.level ≠ 0))).foldl (fun (s : State) r => s.updHur j r.id fun x => { x with early := 0 }) s
    else s
  | none => s

end Sys2Proof.Machine
end

