-- ==== Sys2Proof/Machine/Wait.lean ====
section
/-! DEFINITION. When a blocked context can go on, and what happens to a tile that fails: fault records and
row maps (03, R50, R52, R54 to R57, R73, R74; 10, R283). -/

namespace Sys2Proof.Machine

/-! ### The cause of a wait clears (R52) -/

/-- The instruction that a WAITING context stands at could issue now. -/
def State.canGo (s : State) (t c : Nat) : Bool :=
  let x := s.ctx t c
  let w := s.istoreWord t x.pc.toNat
  let b := wBody w
  let memFree := fun g => !(x.mem g).xfer.isSome
  let fabFree := fun g => !(x.fab g).xfer.isSome
  let passed := fun h => match x.arrivedAt h with
    | some g => decide (s.genNow t x h ≠ g)
    | none => true
  let canRecv := fun e => !(x.inEp e).lasts.isEmpty || (x.inEp e).bad
  let canSend := fun e => decide (0 < (x.outEp e).credits) || (x.outEp e).bad
  match wMajor w, wFn w with
  | 0x00, 0x09 => !x.mems.any (fun p => p.2.xfer.isSome) && !x.fabs.any (fun p => p.2.xfer.isSome)
  | 0x2C, _ => memFree (fD b)
  | 0x30, 0x00 => canSend (fD b)
  | 0x30, 0x01 => canRecv (fA b)
  | 0x30, 0x02 => canRecv (fA b) && canSend (fD b)
  | 0x34, 0x04 => fabFree (fD b)
  | 0x34, _ => fabFree (fD b) && !s.tagHeld (x.fab (fD b))
  | 0x38, _ => passed (BitVec.ofNat 12 (fImm b))
  | _, _ => true

/-- WAIT_CAUSE_CLEAR (R51, R52): the context is READY, and takes the front end if the tile is idle. -/
def execWaitCauseClear (t : Nat) (c : Nat) (s : State) : Res :=
  doIf (s.dieOn (dieOfTile t) && decide (s.pwr.mode ≠ 3) && decide (t < 9600 ∧ c < 4 ∧ (s.ctx t c).mode = .waiting) && !(s.tile t).failed
    && s.canGo t c) s (s.wake t c)

/-- TAG_HOLD_END (R174): the tag is usable again, and a context blocked on it resumes. -/
def execTagHoldEnd (t : Nat) (c : Nat) (tag : Nat) (s : State) : Res :=
  let g := (s.ctx t c).fab tag
  if g.holdFrom.isSome && !s.tagHeld g then
    let s1 := s.updCtx t c fun x => x.setFab tag { g with holdFrom := none }
    let x := s1.ctx t c
    if decide (x.mode = .waiting ∧ x.waitCause = 5) && s1.dieOn (dieOfTile t) && !(s1.tile t).failed && s1.canGo t c then
      .next (s1.wake t c)
    else .next s1
  else .next s

/-! ### Row maps (R54 to R57) -/

/-- The Shepherd's firmware runs: aux is up and no image check holds the module (hold state 1). -/
def State.shepOn (s : State) : Bool := s.pwr.aux && decide (s.cast.hold ≠ 1)

/-- The logical column of a physical column that is not the spare. -/
def RowMap.logical (m : RowMap) (p : Nat) : Option Nat :=
  if p = m.spareCol.toNat then none else some (if p < m.spareCol.toNat then p else p - 1)

/-- Every context of the row is EMPTY. -/
def State.rowEmpty (s : State) (die row : Nat) : Bool :=
  s.ctxs.all (fun e => decide (e.1 / 4 / 15 ≠ die * 16 + row) || decide (e.2.mode = .empty))

/-- Where an address of the row stands once the map has changed: the bytes stay in their physical tile. -/
def moveAddr (die row : Nat) (old new : RowMap) (a : Nat) : Option Nat :=
  let base := sliceAddr ((die * 16 + row) * 15)
  if a < base ∨ base + 15 * sliceSize ≤ a then some a
  else (new.logical (old.phys ((a - base) / sliceSize))).map (fun c => base + c * sliceSize + (a - base) % sliceSize)

/-- A map takes effect: slices go with their physical tiles, and a logical tile that now stands on a tile
that has not failed answers again. -/
def State.applyMap (s : State) (die row : Nat) (m : RowMap) : State :=
  let old := (s.die die).row row
  let mem := s.mem.foldl (fun t p => match moveAddr die row old m p.1 with
    | some a => tabSet memDef t a p.2 | none => t) []
  let bad := s.bad.foldl (fun t p => match moveAddr die row old m p.1 with
    | some a => tabSet (fun _ => false) t a p.2 | none => t) []
  let ups := s.upsets.foldl (fun t p => match moveAddr die row old m p.1 with
    | some a => tabSet (fun _ => []) t a p.2 | none => t) []
  let s1 := { s with mem := mem, bad := bad, upsets := ups }.updDie die fun d =>
    { d with rows := tabSet (fun _ => {}) d.rows row m, pendingMap := tabSet (fun _ => none) d.pendingMap row none }
  (List.range 15).foldl (fun (s : State) c =>
    if (s.die die).failedList.contains (16 * row + m.phys c) then s
    else s.updTile ((die * 16 + row) * 15 + c) fun x => { x with failed := false }) s1

/-- The Shepherd writes a row map: applied at once on an EMPTY row, else counted and held pending (R56). -/
def State.writeMap (s : State) (die row : Nat) (m : RowMap) : State :=
  if s.rowEmpty die row then s.applyMap die row m
  else s.updDie die fun d => { d with
    mapRefused := stickAdd d.mapRefused 1, pendingMap := tabSet (fun _ => none) d.pendingMap row (some m) }

/-- ROW_MAP_WRITE. -/
def execRowMapWrite (die : Nat) (row : Nat) (col : BitVec 4) (healthy : Bool) (absent : Option (BitVec 4))
    (s : State) : Res :=
  doIf (s.shepOn && s.dieOn die && decide (row < 16)) s
    (s.writeMap die row { spareCol := col, healthy := healthy, absent := absent.isSome, absentCol := absent.getD 0 })

/-- The pending map of a row. -/
def State.pendingOf (s : State) (die row : Nat) : Option RowMap := tabGet (fun _ => none) (s.die die).pendingMap row

/-- A pending map is applied once the row is EMPTY. -/
def State.applyPending (s : State) (die row : Nat) : State :=
  match s.pendingOf die row with
  | some m => if s.rowEmpty die row then s.applyMap die row m else s
  | none => s

/-- PENDING_MAP_APPLY. -/
def execPendingMapApply (die : Nat) (row : Nat) (s : State) : Res :=
  doIf (s.dieOn die && decide (row < 16)) s (s.applyPending die row)

/-! ### Tile failure (R56, R57, R73, R74, R283) -/

/-- Physical column `p` of a row has lost its tile, which is dealt with once: the remap onto a healthy spare,
else the second loss of the row, else the third, which puts the die out of service. A spare that fails is
no longer healthy. -/
def State.tileLost (s : State) (die row p : Nat) : State :=
  let d := s.die die
  let m := ((s.pendingOf die row).getD (d.row row))
  let key := 16 * row + p
  if d.failedList.contains key then s
  else
    let fix := Repair.failedTile die row p
    let s1 := { s with flash := { s.flash with settings := { s.flash.settings with
      fieldRepair := s.flash.settings.fieldRepair ++ [fix] } } }.updDie die fun d =>
        { d with failedList := d.failedList ++ [key], failedTiles := stickAdd d.failedTiles 1 }
    match m.logical p with
    | none => s1.writeMap die row { m with healthy := false }
    | some c =>
      if m.healthy then s1.writeMap die row { m with spareCol := BitVec.ofNat 4 p, healthy := false }
      else if !m.absent then
        (s1.updDie die fun d => { d with degraded := true }).writeMap die row { m with absent := true, absentCol := BitVec.ofNat 4 c }
      else s1.updDie die fun d => { d with degraded := true, outOfService := true }

/-- The loss of the tile that a logical number stands on now. -/
def State.logicalLost (s : State) (t : Nat) : State :=
  s.tileLost (dieOfTile t) (t % 240 / 15) ((s.rowOf t).phys (t % 15))

/-- The module's service follows the loss of a tile: with every die of every assigned island out, it is a hard
fault (Table 10-4, code 5). -/
def State.allOut (s : State) : Bool :=
  (List.range 40).all (fun n => !s.flash.settings.islands.getLsbD (n / 5) || (s.die n).outOfService)
def State.outFault (s t : State) : State := if t.allOut && !s.allOut then t.hardFault 5 else t

/-- A tile fails: its live contexts stop with code 7 (R73), and its network interface answers no more. The loss reaches the
Shepherd with their records, and at once where there is none. -/
def State.failTile (s : State) (t : Nat) : State :=
  let live := [0, 1, 2, 3].filter (fun c => (s.ctx t c).live)
  let s1 := live.foldl (fun (s : State) c => s.faultCtx t c 7 (s.ctx t c).pc (s.istoreWord t (s.ctx t c).pc.toNat))
    (s.updTile t fun x => { x with failed := true })
  if live.isEmpty then s1.outFault (s1.logicalLost t) else s1

/-- TILE_FAILURE (R73, code 7). -/
def execTileFailure (t : Nat) (s : State) : Res :=
  doIf (s.dieOn (dieOfTile t) && decide (t < 9600) && !(s.tile t).failed) s (s.failTile t)

/-- TILE_FAULT_RECORD (R74): the oldest record reaches the Shepherd. -/
def execTileFaultRecord (s : State) : Res :=
  match s.faultRecs with
  | [] => .next s
  | r :: rs =>
    if !s.shepOn then .next s
    else
      let hw := decide (r.code = 5 ∨ r.code = 7)
      let s1 := ({ s with faultRecs := rs }.raise (.fault r.tile r.ctx r.code) (if hw then 3 else 2)).updDie
        (dieOfTile r.tile) fun d => { d with faultCount := stickAdd d.faultCount 1 }
      let s2 := s1.event (partOfTile r.tile) 1 [(16, 2, r.tile), (18, 1, r.ctx), (19, 1, r.code.toNat),
        (20, 1, if hw then 2 else 1), (22, 2, r.pc.toNat), (24, 8, r.word.toNat), (32, 2, r.jobId.toNat),
        (34, 1, r.jobGen.toNat), (36, 2, r.hurId.toNat), (38, 1, r.hurGen.toNat), (40, 8, r.row.toNat), (48, 8, r.tb.toNat)]
      .next (if r.code = 7 then s2.outFault (s2.tileLost (dieOfTile r.tile) (r.tile % 240 / 15) r.phys) else s2)

end Sys2Proof.Machine
end

