-- ==== Sys2Proof/Machine/Chain.lean ====
section
/-! DEFINITION. Chain images and the commands that load, start, stop and unload them (03, R58 to R63, R76;
07, R180). -/

namespace Sys2Proof.Machine

/-! ### The image (Tables 3-4 to 3-8) -/

/-- A section directory entry. -/
structure Sect where
  type : Nat
  zero : Nat
  off : Nat
  len : Nat
  count : Nat
  deriving DecidableEq, Repr

/-- A PRELOAD record: tile, slice offset, length, offset within the section. Its bytes 2-3, of which the spec
says nothing, are not looked at (DESIGN CHOICE, log entry 53). -/
structure Preload where
  tile : Nat
  off : Nat
  len : Nat
  data : Nat
  deriving DecidableEq, Repr

/-- Bytes of the header. -/
def imgHeader : Nat := 64

/-- The section directory. -/
def imgSects (b : List Byte) : List Sect :=
  (List.range (fieldB b 10 2)).map (fun i =>
    let o := imgHeader + 16 * i
    { type := fieldB b o 2, zero := fieldB b (o + 2) 2, off := fieldB b (o + 4) 4, len := fieldB b (o + 8) 4,
      count := fieldB b (o + 12) 4 })

/-- The section of a type. -/
def sectOf (ss : List Sect) (ty : Nat) : Sect := (ss.find? (fun x => decide (x.type = ty))).getD ⟨ty, 0, 0, 0, 0⟩

/-- The records of a section, `n` bytes each, read by `f` at their offset. -/
def recordsOf {α : Type} (ss : List Sect) (ty n : Nat) (f : Nat → α) : List α :=
  let x := sectOf ss ty
  (List.range x.count).map (fun i => f (x.off + n * i))

def imgCtxs (b : List Byte) (ss : List Sect) : List CtxRec :=
  recordsOf ss 2 32 fun o => {
    tile := fieldB b o 2, ctx := fieldB b (o + 2) 1, init := nth b (o + 3) 0, istoreBase := fieldB b (o + 4) 2,
    istoreLen := fieldB b (o + 6) 2, codeOffset := fieldB b (o + 8) 4, windowBase := fieldB b (o + 12) 4,
    windowLen := fieldB b (o + 16) 4, seed := BitVec.ofNat 64 (fieldB b (o + 20) 8) }

def imgChans (b : List Byte) (ss : List Sect) : List ChanRec :=
  recordsOf ss 3 16 fun o => {
    srcTile := fieldB b o 2, srcEp := nth b (o + 2) 0, dstEp := nth b (o + 3) 0, dstTile := fieldB b (o + 4) 2,
    peer := fieldB b (o + 6) 2, depth := fieldB b (o + 8) 1, side := fieldB b (o + 9) 1, buf := fieldB b (o + 12) 4 }

def imgHurs (b : List Byte) (ss : List Sect) : List HurRec :=
  recordsOf ss 4 16 fun o => {
    id := BitVec.ofNat 12 (fieldB b o 2), level := fieldB b (o + 2) 1, commit := (nth b (o + 3) 0).getLsbD 0,
    post := (nth b (o + 3) 0).getLsbD 1, members := fieldB b (o + 4) 2, children := fieldB b (o + 6) 2,
    parent := fieldB b (o + 8) 2 }

def imgPreloads (b : List Byte) (ss : List Sect) : List Preload :=
  recordsOf ss 5 16 fun o => {
    tile := fieldB b o 2, off := fieldB b (o + 4) 4, len := fieldB b (o + 8) 4, data := fieldB b (o + 12) 4 }

/-- The context and the endpoint that an endpoint byte names. -/
def epCtx (x : Byte) : Nat := x.toNat / 64
def epNum (x : Byte) : Nat := x.toNat % 8
def epZero (x : Byte) : Bool := decide (x.toNat / 8 % 8 = 0)

/-! ### Load checks (Table 3-9) -/

/-- Two ranges overlap. -/
def overlaps (a n b m : Nat) : Bool := decide (a < b + m ∧ b < a + n)

/-- No two entries of a list stand in a relation. -/
def noPair {α : Type} (r : α → α → Bool) : List α → Bool
  | [] => true
  | x :: xs => !xs.any (r x) && noPair r xs

/-- Check 1. -/
def imgHead (b : List Byte) : Bool :=
  decide (fieldB b 0 4 = 0x48435847 ∧ fieldB b 4 2 = 1 ∧ fieldB b 6 2 < 8 ∧ fieldB b 8 2 ≠ 0xFFFF ∧ fieldB b 56 4 = 0
    ∧ fieldB b 60 4 = (crc32c (sliceB b 0 60)).toNat)

/-- Check 2: the hash of bytes 64 to the image's end, all of them there. -/
def imgHash (b : List Byte) : Bool :=
  let len := fieldB b 12 4
  decide (imgHeader ≤ len ∧ len ≤ b.length) && decide (shake256 (sliceB b imgHeader (len - imgHeader)) = BitVec.ofNat 256 (fieldB b 24 32))

/-- Bytes of a record of a section type. -/
def recSize (ty : Nat) : Nat := match ty with | 1 => 8 | 2 => 32 | 3 => 16 | 4 => 16 | _ => 16

/-- Check 3, the sections: present once each, aligned, in bounds, apart, and as long as their records. -/
def sectsOk (b : List Byte) (ss : List Sect) : Bool :=
  let len := fieldB b 12 4
  let first := imgHeader + 16 * ss.length
  decide (1 ≤ ss.length ∧ ss.length ≤ 16 ∧ len ≤ b.length ∧ len ≤ 64 * 2 ^ 20 ∧ first ≤ len)
  && ss.all (fun x => decide (1 ≤ x.type ∧ x.type ≤ 5 ∧ x.zero = 0 ∧ x.off % 8 = 0 ∧ first ≤ x.off ∧ x.off + x.len ≤ len
      ∧ (if x.type = 5 then x.count * 16 ≤ x.len else x.len = x.count * recSize x.type)))
  && noPair (fun x y => decide (x.type = y.type) || overlaps x.off x.len y.off y.len) ss
  && [1, 2, 3, 4].all (fun ty => ss.any (fun x => decide (x.type = ty)))
  && decide ((sectOf ss 2).count = fieldB b 20 4)

/-- Check 3, the fields of the records. -/
def recordsOk (b : List Byte) (ss : List Sect) : Bool :=
  let code := (sectOf ss 1).len
  (imgCtxs b ss).all (fun x => decide (x.tile < 9600 ∧ x.ctx < 4 ∧ x.init.toNat < 6 ∧ x.istoreBase < 32768 ∧ 1 ≤ x.istoreLen
      ∧ x.istoreLen ≤ 32768 ∧ x.codeOffset + 8 * x.istoreLen ≤ code ∧ x.windowBase % 256 = 0 ∧ x.windowLen % 256 = 0
      ∧ x.seed ≠ 0))
  && (recordsOf ss 2 32 (fun o => fieldB b (o + 28) 4)).all (fun z => decide (z = 0))
  && (imgChans b ss).all (fun x => decide (x.srcTile < 9600 ∧ x.dstTile < 9600 ∧ 2 ≤ x.depth ∧ x.depth ≤ 64 ∧ x.side ≤ 2
      ∧ x.buf % 256 = 0) && epZero x.srcEp && epZero x.dstEp)
  && (recordsOf ss 3 16 (fun o => fieldB b (o + 10) 2)).all (fun z => decide (z = 0))
  && (imgHurs b ss).all (fun x => decide (x.level ≤ 2))
  && (recordsOf ss 4 16 (fun o => decide (fieldB b o 2 < 4096 ∧ fieldB b (o + 3) 1 < 4 ∧ fieldB b (o + 10) 6 = 0))).all id
  && (imgPreloads b ss).all (fun x => decide (x.tile < 9600 ∧ x.data + x.len ≤ (sectOf ss 5).len))

/-- The ends of a channel that lie on this module: tile, context, outbound or not, endpoint. -/
def localEnds (x : ChanRec) : List (Nat × Nat × Bool × Nat) :=
  (if x.side ≤ 1 then [(x.srcTile, epCtx x.srcEp, true, epNum x.srcEp)] else [])
  ++ (if x.side = 1 then [] else [(x.dstTile, epCtx x.dstEp, false, epNum x.dstEp)])

/-- The tiles that an image uses. -/
def imgTiles (b : List Byte) (ss : List Sect) : List Nat :=
  (imgCtxs b ss).map (·.tile) ++ (imgChans b ss).flatMap (fun x => (localEnds x).map (·.1)) ++ (imgPreloads b ss).map (·.tile)

/-- A logical tile has no tile, or its die is out of service (R57). -/
def State.tileAbsent (s : State) (t : Nat) : Bool :=
  let d := s.die (dieOfTile t)
  let m := d.row (t % 240 / 15)
  d.outOfService || (m.absent && decide (m.absentCol.toNat = t % 15))

/-- A window or a region of a context already loaded on a tile. -/
def State.loadedOn (s : State) (t : Nat) : List Ctx :=
  (([0, 1, 2, 3] : List Nat).map (fun c => s.ctx t c)).filter (fun x => decide (x.mode ≠ .empty))

/-- Check 8. -/
def State.regionsOk (s : State) (cs : List CtxRec) : Bool :=
  cs.all (fun x => decide (x.istoreBase + x.istoreLen ≤ 32768)
    && !(s.loadedOn x.tile).any (fun y => overlaps x.istoreBase x.istoreLen y.istoreBase y.istoreLen))
  && noPair (fun x y => decide (x.tile = y.tile) && overlaps x.istoreBase x.istoreLen y.istoreBase y.istoreLen
      && !decide (x.istoreBase = y.istoreBase ∧ x.istoreLen = y.istoreLen ∧ x.codeOffset = y.codeOffset)) cs

/-- Receive buffers of an image on this module: tile, offset, bytes. -/
def imgBufs (ch : List ChanRec) : List (Nat × Nat × Nat) :=
  (ch.filter (fun x => decide (x.side ≠ 1))).map (fun x => (x.dstTile, x.buf, 256 * x.depth))

/-- Check 9. -/
def State.windowsOk (s : State) (cs : List CtxRec) (ch : List ChanRec) (ps : List Preload) : Bool :=
  cs.all (fun x => decide (x.windowBase + x.windowLen ≤ sliceSize)
    && !(s.loadedOn x.tile).any (fun y =>
      y.ins.any (fun e => overlaps x.windowBase x.windowLen e.2.buf (256 * e.2.depth))))
  && ps.all (fun x => decide (x.off + x.len ≤ sliceSize))
  && (imgBufs ch).all (fun u => decide (u.2.1 + u.2.2 ≤ sliceSize)
    && !cs.any (fun x => decide (x.tile = u.1) && overlaps u.2.1 u.2.2 x.windowBase x.windowLen)
    && !(s.loadedOn u.1).any (fun y => overlaps u.2.1 u.2.2 y.windowBase y.windowLen))

/-- Check 10. -/
def graphOk (cs : List CtxRec) (ch : List ChanRec) (hs : List HurRec) (peers : Nat) : Bool :=
  let ends := ch.flatMap localEnds
  noPair (fun a b => decide (a = b)) ends
  && hs.all (fun x => decide (1 ≤ x.members))
  && noPair (fun (x y : CtxRec) => decide (x.tile = y.tile ∧ x.ctx = y.ctx)) cs
  && ends.all (fun e => cs.any (fun x => decide (x.tile = e.1 ∧ x.ctx = e.2.1)))
  && ch.all (fun x => decide (x.peer = 0xFFFF ∨ x.peer < peers))
  && hs.all (fun x => decide (x.parent = 0xFFFF ∨ x.parent < peers))
  && noPair (fun (x y : HurRec) => decide (x.id = y.id)) hs

/-- Check 11. -/
def State.limitsOk (s : State) (r : Nat) (job : BitVec 16) (cs : List CtxRec) (ch : List ChanRec) (peers : Nat) : Bool :=
  let mine := s.images.filter (fun i => decide (i.part = r))
  decide (1 ≤ peers ∧ peers ≤ 2048 ∧ cs.length ≤ 4800 ∧ (ch.flatMap localEnds).length ≤ 76800 ∧ mine.length < 64)
  && mine.all (fun i => decide (i.jobId = job))

/-- The first check of Table 3-9 that fails, with its status. The microcode broadcast at CO5 is the running
image's. -/
def State.loadFault (s : State) (r : Nat) (job : BitVec 16) (b : List Byte) (peers : Nat) :
    Option (Nat × Status) :=
  let ss := imgSects b
  let cs := imgCtxs b ss
  let ch := imgChans b ss
  let hs := imgHurs b ss
  let ps := imgPreloads b ss
  if !imgHead b then some (1, stBadImage)
  else if !imgHash b then some (2, stBadImage)
  else if !sectsOk b ss || !recordsOk b ss then some (3, stBadImage)
  else if s.sec.ucodeVersion.toNat < fieldB b 16 4 then some (4, stMicrocode)
  else if (imgTiles b ss).any (fun t => decide (partOfTile t ≠ r)) then some (5, stWrongPartition)
  else if (imgTiles b ss).any s.tileAbsent then some (6, stTileAbsent)
  else if cs.any (fun x => decide ((s.ctx x.tile x.ctx).mode ≠ .empty))
      || s.images.any (fun i => decide (i.part = r ∧ i.chainId = BitVec.ofNat 16 (fieldB b 8 2))) then some (7, stBusy)
  else if !s.regionsOk cs then some (8, stLayout)
  else if !s.windowsOk cs ch ps then some (9, stLayout)
  else if !graphOk cs ch hs peers then some (10, stGraph)
  else if !s.limitsOk r job cs ch peers then some (11, stLimit)
  else none

/-! ### Loading (R58, R61, R76) -/

/-- The far end of a channel as one side of this module sees it. -/
def farOf (peers : List Coord) (x : ChanRec) (out : Bool) : Far :=
  let (t, e) := if out then (x.dstTile, x.dstEp) else (x.srcTile, x.srcEp)
  match (if x.peer = 0xFFFF then none else peers[x.peer]?) with
  | some co => .away co t (epCtx e) (epNum e)
  | none => .here t (epCtx e) (epNum e)

/-- The endpoints of a context. -/
def bindOuts (peers : List Coord) (ch : List ChanRec) (t c : Nat) : Tab OutEp :=
  (ch.filter (fun x => decide (x.side ≤ 1 ∧ x.srcTile = t) && decide (epCtx x.srcEp = c))).foldl
    (fun tab x => tabSet (fun _ => {}) tab (epNum x.srcEp) { far := some (farOf peers x true), depth := x.depth }) []
def bindIns (peers : List Coord) (ch : List ChanRec) (t c : Nat) : Tab InEp :=
  (ch.filter (fun x => decide (x.side ≠ 1 ∧ x.dstTile = t) && decide (epCtx x.dstEp = c))).foldl
    (fun tab x => tabSet (fun _ => {}) tab (epNum x.dstEp)
      { far := some (farOf peers x false), depth := x.depth, buf := x.buf }) []

/-- Code words of a context's region. -/
def State.writeCode (s : State) (t base : Nat) (b : List Byte) (off : Nat) : Nat → State
  | 0 => s
  | n + 1 =>
    let w := BitVec.ofNat 64 (fieldB b off 8)
    State.writeCode { s with istore := tabSet (fun _ => (0 : Word)) s.istore (32768 * t + base) w }
      t (base + 1) b (off + 8) n

/-- One context as loaded (R61). A FAB tag under its hold stays held (Table 7-6). -/
def loadedCtx (old : Ctx) (r : CtxRec) (chain job : BitVec 16) (gen : Byte) (peers : List Coord) (ch : List ChanRec) : Ctx :=
  { mode := .loaded, chainId := chain, pc := BitVec.ofNat 15 r.istoreBase, jobId := job, jobGen := gen,
    istoreBase := r.istoreBase, istoreLen := r.istoreLen, windowBase := r.windowBase, windowLen := r.windowLen,
    rm := BitVec.ofNat 2 (r.init.toNat / 2), ftz := r.init.getLsbD 0, gen := r.seed,
    outs := bindOuts peers ch r.tile r.ctx, ins := bindIns peers ch r.tile r.ctx,
    fabs := (old.fabs.filter (fun p => p.2.holdFrom.isSome)).map (fun p => (p.1, { holdFrom := p.2.holdFrom })) }

/-- One context is written to its tile; level-0 hurdles of an older job generation end (R64). -/
def State.loadCtx (s : State) (b : List Byte) (r : CtxRec) (chain job : BitVec 16) (gen : Byte) (peers : List Coord)
    (ch : List ChanRec) (code : Nat) : State :=
  let s1 := (s.writeCode r.tile r.istoreBase b (code + r.codeOffset) r.istoreLen).updCtx r.tile r.ctx fun x =>
    loadedCtx x r chain job gen peers ch
  s1.updTile r.tile fun w => if w.hurJob = (job, gen) then w else { w with hurJob := (job, gen), hurs := [] }

/-- A job slot no partition belongs to any more is freed, and its identity held (R76, Table 7-6). -/
def State.freeSlots (s : State) : State :=
  (List.range 8).foldl (fun (s : State) j =>
    let x := s.job j
    if x.valid && (s.jobParts x.jobId).isEmpty then
      (({ s with jobHolds := s.jobHolds ++ [(x.jobId, x.jobGen, s.tb)] }.dropEarly j).setJob j {}).updCkptJob j Ckpt.kept
    else s) s

/-- A partition belongs to a job from now on. -/
def State.ownPart (s : State) (p : Nat) (job : BitVec 16) : State :=
  ({ s with partJob := tabSet (fun _ => (0xFFFF : BitVec 16)) s.partJob p job }).freeSlots

/-- Rows of the partition with a pending map that are EMPTY take it before anything is placed (R56). -/
def State.applyDue (s : State) (p : Nat) : State :=
  (List.range 80).foldl (fun (s : State) i => s.applyPending (5 * p + i / 16) (i % 16)) s

/-- The image that passed every check is written. Receive buffers are zeroed before the preloads are written, so
a preload that overlaps a buffer stays (DESIGN CHOICE, log entry 53). -/
def State.writeImage (s : State) (r : Nat) (job : BitVec 16) (gen : Byte) (b : List Byte) (peers : List Coord) : State :=
  let ss := imgSects b
  let cs := imgCtxs b ss
  let ch := imgChans b ss
  let chain := BitVec.ofNat 16 (fieldB b 8 2)
  let code := (sectOf ss 1).off
  let s1 := (imgBufs ch).foldl (fun (s : State) u => (s.writeRange (sliceAddr u.1 + u.2.1) (List.replicate u.2.2 0) 0).1) s
  let s2 := (imgPreloads b ss).foldl (fun (s : State) x =>
    (s.writeRange (sliceAddr x.tile + x.off) (sliceB b ((sectOf ss 5).off + x.data) x.len) 0).1) s1
  let s3 := cs.foldl (fun (s : State) x => s.loadCtx b x chain job gen peers ch code) s2
  let im : Image := {
    part := r, chainId := chain, jobId := job, jobGen := gen, flags := BitVec.ofNat 16 (fieldB b 6 2),
    peers := peers, ctxs := cs, hurs := imgHurs b ss }
  ((({ s3 with images := s3.images ++ [im] } : State).nameHurdles job gen im.hurs).ownPart r job).measure (16 + r) (BitVec.ofNat 256 (fieldB b 24 32))
    (BitVec.ofNat 16 r) (BitVec.ofNat 96 (job.toNat + 65536 * gen.toNat))

/-- LOAD_CHAIN (R58 to R61): every context of the image or none. -/
def execLoadChain (r : Nat) (dmaOk : Bool) (image : List Byte) (peers : List Coord) (s : State) : Res :=
  hostCmd s r 0x01 false fun blk tag s =>
    let job := BitVec.ofNat 16 (fieldB blk 24 2)
    let gen := BitVec.ofNat 8 (fieldB blk 26 1)
    let addr := fieldB blk 8 8
    let len := fieldB blk 16 4
    let m := (nth blk 20 0).getLsbD 0
    let n := fieldB blk 40 2
    let peers := peers.take n ++ List.replicate (n - peers.length) 0
    if !dmaOk then s.complete r tag stDmaError
    else if m && !s.reach r addr len then s.complete r tag stAddress
    else
      let s := s.flushWhere fun _ => true
      let (s, b, whole) := if m then s.readXfer addr len else (s, sliceB image 0 len, true)
      let s := s.applyDue r
      match (if whole then s.loadFault r job b n else some (2, stBadImage)) with
      | some (k, st) => s.complete r tag st [(24, 2, k)]
      | none => (s.writeImage r job gen b peers).complete r tag stOk [(16, 8, fieldB b 8 2)]

/-! ### Starting (R62, R180) -/

/-- An identity is under the reuse hold. -/
def State.jobHeld (s : State) (job : BitVec 16) (gen : Byte) : Bool :=
  s.jobHolds.any (fun h => decide (h.1 = job ∧ h.2.1 = gen) && !s.passed h.2.2 holdTicks)

/-- Adaptive mode is allowed: every image of the job has flag [1] and none flag [0] (R180). -/
def State.adaptiveOk (s : State) (job : BitVec 16) : Bool :=
  (s.images.filter (fun i => decide (i.jobId = job))).all (fun i => i.flags.getLsbD 1 && !i.flags.getLsbD 0)

/-- The first slot not in use. -/
def State.emptySlot (s : State) : Option Nat := (List.range 8).find? (fun j => !(s.job j).valid)

/-- The slot of a job, assigned where it holds none; its first commit is full (R287, R298). -/
def State.takeSlot (s : State) (job : BitVec 16) (gen : Byte) : State × Option Nat :=
  match s.slotOfJob job with
  | some j => (s, some j)
  | none =>
    match s.emptySlot with
    | none => (s, none)
    | some j =>
      ((s.setJob j { jobId := job, jobGen := gen, valid := true }).setCkptJob j { fullNext := true }, some j)

/-- The loaded contexts of a chain on a partition under an identity. -/
def State.chainCtxs (s : State) (p : Nat) (chain : BitVec 16) : List (Nat × Nat) :=
  (s.ctxs.filter (fun e => decide (partOfTile (e.1 / 4) = p ∧ e.2.chainId = chain) && decide (e.2.mode ≠ .empty))).map
    (fun e => (e.1 / 4, e.1 % 4))

/-- A context enters READY: its channel credits are granted (R45, R62). -/
def State.startCtx (s : State) (t c : Nat) : State :=
  let s1 := s.updCtx t c fun x => { x with mode := .ready }
  ((s1.ctx t c).ins.map (fun e => (e.1, e.2.depth))).foldl (fun (s : State) e => s.freeCredits t c e.1 e.2) s1

/-- Contexts enter READY together, and each tile that was idle then gives its front end to the first of them
after its owner (R51). -/
def State.startAll (s : State) (cs : List (Nat × Nat)) : State :=
  ((cs.map (·.1)).eraseDups).foldl (fun (s : State) t => s.dispatch t)
    (cs.foldl (fun (s : State) e => s.startCtx e.1 e.2) s)

/-- START_CHAIN (R62). A penned module takes no part in a job (R269; log entry 58). -/
def execStartChain (r : Nat) (s : State) : Res :=
  hostCmd s r 0x02 false fun blk tag s =>
    let chain := BitVec.ofNat 16 (fieldB blk 8 2)
    let job := BitVec.ofNat 16 (fieldB blk 10 2)
    let gen := BitVec.ofNat 8 (fieldB blk 12 1)
    let adaptive := (nth blk 13 0).getLsbD 0
    let row := BitVec.ofNat 64 (fieldB blk 16 8)
    -- BAR2 writes posted before are visible to the chain (R71)
    let s := s.flushWhere fun _ => true
    let slot := s.slotOfJob job
    let go := (s.chainCtxs r chain).filter (fun e =>
      decide ((s.ctx e.1 e.2).mode = .loaded) && (s.ctx e.1 e.2).sameJob job gen)
    if s.shep.penned then s.complete r tag stNotReady
    else if s.jobHeld job gen then (s.countHold 0 0).complete r tag stHold
    else if slot.any (fun j => decide ((s.job j).jobGen ≠ gen)) then s.complete r tag stGeneration
    else if go.isEmpty then s.complete r tag stNoChain
    else if adaptive && !s.adaptiveOk job then s.complete r tag stRouteMode
    else if slot.any (fun j => decide ((s.ckptJob j).state = 4)) then s.complete r tag stRestoring
    else if slot.any (fun j => (s.job j).hasRow && decide ((s.job j).row ≠ row)) then s.complete r tag stRowMismatch
    else match s.takeSlot job gen with
      | (s1, none) => s1.complete r tag stLimit
      | (s1, some j) =>
        let s2 := s1.updJob j fun x => { x with
          row := if x.hasRow then x.row else row, hasRow := true, adaptive := adaptive,
          reduction := x.reduction || s.images.any (fun i => decide (i.jobId = job) && i.flags.getLsbD 0) }
        (s2.startAll go).complete r tag stOk

/-! ### Stopping and unloading (R63, R103) -/

/-- STOP_CHAIN. -/
def execStopChain (r : Nat) (s : State) : Res :=
  hostCmd s r 0x03 false fun blk tag s =>
    let chain := BitVec.ofNat 16 (fieldB blk 8 2)
    (s.stopWhere fun k x => decide (partOfTile (k / 4) = r ∧ x.chainId = chain)).complete r tag stOk

/-- A context back to EMPTY: no chain, no bindings; what the registers last held can still be read. -/
def Ctx.emptied (x : Ctx) : Ctx :=
  { x with mode := .empty, waitCause := 0, fault := 0, chainId := 0xFFFF, outs := [], ins := [], arrived := [],
           heldArr := [], heldEvents := [], inSync := false, istoreBase := 0, istoreLen := 0, windowBase := 0,
           windowLen := 0 }

/-- A transfer of the context is in flight. -/
def Ctx.flying (x : Ctx) : Bool := x.mems.any (fun p => p.2.xfer.isSome) || x.fabs.any (fun p => p.2.xfer.isSome)

/-- The chain's contexts go back to EMPTY and its image is forgotten. -/
def State.unload (s : State) (p : Nat) (chain : BitVec 16) : State :=
  let s1 := (s.chainCtxs p chain).foldl (fun (s : State) e => s.updCtx e.1 e.2 Ctx.emptied) s
  { s1 with images := s1.images.filter (fun i => !decide (i.part = p ∧ i.chainId = chain)) }

/-- The effect of an UNLOAD_CHAIN that has started: BUSY while a context still runs; it ends once the
transfers of its contexts have (Table 4-20). -/
def State.unloadCmd (s : State) (r : Nat) (blk : Block) (tag : BitVec 16) : State :=
  let chain := BitVec.ofNat 16 (fieldB blk 8 2)
  let cs := s.chainCtxs r chain
  if cs.any (fun e => decide ((s.ctx e.1 e.2).mode = .ready ∨ (s.ctx e.1 e.2).mode = .running ∨ (s.ctx e.1 e.2).mode = .waiting)) then
    s.complete r tag stBusy
  else if cs.any (fun e => (s.ctx e.1 e.2).flying) then s
  else (s.unload r chain).complete r tag stOk

/-- UNLOAD_CHAIN: one that waits for transfers goes on first; else the next of the ring starts. -/
def execUnloadChain (r : Nat) (s : State) : Res :=
  match (s.ring r).fetched.find? (fun c => c.started && decide (blkOp c.block = 0x04)) with
  | some c => .next (s.unloadCmd r c.block (blkTag c.block))
  | none => hostCmd s r 0x04 false fun blk tag s => s.unloadCmd r blk tag

end Sys2Proof.Machine
end

