-- ==== Sys2Proof/Machine/Crook.lean ====
section
/-! DEFINITION. The Crook: elements and their modes, the loop program machine, and one control period
(09, R225 to R240, R244 to R246). -/

namespace Sys2Proof.Machine

/-! ### Elements (Table 8-1) -/

/-- Element `e` of engine `n`: its skein, its index there, its kind. -/
def skeinOfElem (n e : Nat) : Nat := 16 * n + e / 11
def elemIsRx (e : Nat) : Bool := !elemIsTx e && !elemIsSel e
/-- Element index of ring `r` (0-4) of the transmit or receive bus of skein `q`. -/
def elemOfRing (q r : Nat) (tx : Bool) : Nat := 11 * (q % 16) + (if tx then r else 5 + r)
/-- The ring number of a ring element. -/
def ringOfElem (e : Nat) : Nat := if elemIsTx e then e % 11 else e % 11 - 5
/-- Two elements of one engine lie on one bus. -/
def sameBus (e e' : Nat) : Bool := decide (e / 11 = e' / 11) && decide (elemIsTx e = elemIsTx e') && !elemIsSel e && !elemIsSel e'

/-- Place of a slot on the tuning axis: park 0, slot 0 at 1, slot k at 9 − k (R197). -/
def slotPos (k : BitVec 4) : Nat := if k = 0 then 1 else if k.toNat < 8 then 9 - k.toNat else 0

/-- A value saturated to Q15. -/
def satQ15 (i : Int) : Int := max (-32768) (min 32767 i)

/-- A ratio as a whole number; where it is none, the spec's silence on rounding leaves up or down open (log entry 21). -/
def freeRound (num : Int) (den : Nat) : Int :=
  if num % (den : Int) = 0 then num / (den : Int) else num / (den : Int) + (if Config.roundsUp num den then 1 else 0)

/-- The largest 16-bit number that a downward-closed test holds of. -/
def searchMax (p : Nat → Bool) : Nat :=
  [15, 14, 13, 12, 11, 10, 9, 8, 7, 6, 5, 4, 3, 2, 1, 0].foldl (fun a b => if p (a + 2 ^ b) then a + 2 ^ b else a) 0

/-- The 1000th power. -/
def pow1000 (x : Nat) : Nat := ((x ^ 10) ^ 10) ^ 10

/-- A Q15 number times 10^(d / 1000), `d` a difference of levels in 0.01 dB (log entry 21 for its last digit). -/
def scaleDb (p : Nat) (d : Int) : Nat :=
  let fits := fun y : Nat => if 0 ≤ d then decide (pow1000 y ≤ pow1000 p * 10 ^ d.toNat)
    else decide (pow1000 y * 10 ^ (-d).toNat ≤ pow1000 p)
  let y := searchMax fits
  let exact := if 0 ≤ d then decide (pow1000 y = pow1000 p * 10 ^ d.toNat) else decide (pow1000 y * 10 ^ (-d).toNat = pow1000 p)
  min 32767 (if exact then y else y + (if Config.roundsUp ((p : Int) * 65536 + d) 1000 then 1 else 0))

/-- A quarter of a slot spacing of 3.58 mW, and two spacings (R230, R246). -/
def quarterSlot : Int := 611
def bankClamp : Int := 4888

/-- Live line power of slot `k`. -/
def Elem.line (x : Elem) (k : Nat) : Int := q15 (nth x.liveLines k 0)
/-- A coefficient word as stored. -/
def Elem.coef (x : Elem) (i : Nat) : BitVec 16 := tabGet (fun _ => (0 : BitVec 16)) x.c i
/-- The lock point of a slot: its live line power less the lock offset C[63] (R246). -/
def Elem.lockPoint (x : Elem) (k : Nat) : Int := satQ15 (x.line k - q15 (x.coef 63))

/-- The notch is on (R235). -/
def Elem.notchOn (x : Elem) : Bool := decide (x.mode = .seek ∨ x.mode = .test) || decide (0 < x.notch.toNat)

/-- The notch count that keeps it on for `recovery` periods from the next one on: 1 stands for the end that the count has
reached. -/
def notchStart (recovery : BitVec 16) : BitVec 32 := if recovery = 0 then 0 else recovery.setWidth 32 + 1

/-- C as a loop program reads it: C[58] to C[62] under the notch. -/
def Elem.coefNow (x : Elem) (i : Nat) : BitVec 16 :=
  if 58 ≤ i ∧ i ≤ 62 ∧ x.notchOn = false then (if i = 58 then 0x4000 else 0) else x.coef i

/-- The element feels the bank correction (R230). -/
def ElemMode.banked (m : ElemMode) : Bool := decide (m = .seek ∨ m = .move ∨ m = .track ∨ m = .test)

/-- The limits of a profile set (Table 9-4 at reset). -/
def profileDef (p : Nat) : BitVec 32 × BitVec 32 × BitVec 32 :=
  match p with
  | 1 => (4096, 524288, 134217728)
  | 2 => (20, 160, 2560)
  | _ => (82, 1312, 41984)
def Engine.profileOf (x : Engine) (p : Nat) : BitVec 32 × BitVec 32 × BitVec 32 := tabGet profileDef x.profiles p

/-! ### The S-curve (R239)

The velocity is the distance spread over three runs of periods laid one on another, of lengths a ≥ b ≥ c with a ≥ b + c:
jerk for c periods, constant acceleration for b − c, jerk down, constant velocity for a − b − c, and the same mirrored. -/

/-- Segments in falling order, the first no shorter than the others together. -/
def planOrder (a b c : Nat) : Nat × Nat × Nat :=
  let hi := max a (max b c)
  let lo := min a (min b c)
  let mid := a + b + c - hi - lo
  (max hi (mid + lo), mid, lo)

/-- Limits as they count: 0 is replaced by 1. -/
def limitNat (v : BitVec 32) : Nat := max 1 v.toNat
def ceilDiv (a b : Nat) : Nat := (a + b - 1) / b

/-- The plan that the limits suggest: the distance at full velocity, the velocity at full acceleration, the acceleration
at full jerk. -/
def planDef (vel acc jerk dist : Nat) : Nat × Nat × Nat :=
  planOrder (max 1 (ceilDiv dist vel)) (max 1 (ceilDiv (256 * vel) acc)) (max 1 (ceilDiv (256 * acc) jerk))

/-- A plan has the shape and keeps the three limits over the distance. -/
def planOk (vel acc jerk dist : Nat) (p : Nat × Nat × Nat) : Bool :=
  decide (1 ≤ p.2.2 ∧ p.2.2 ≤ p.2.1 ∧ p.2.1 + p.2.2 ≤ p.1 ∧ dist ≤ vel * p.1 ∧ 256 * dist ≤ acc * (p.1 * p.2.1)
    ∧ 65536 * dist ≤ jerk * (p.1 * p.2.1 * p.2.2))

/-- Periods of a plan. -/
def planLen (p : Nat × Nat × Nat) : Nat := p.1 + p.2.1 + p.2.2

/-- The plan of a move, made at its start: one that keeps the limits and takes no longer than the limits suggest (log
entry 8). -/
def movePlan (lim : BitVec 32 × BitVec 32 × BitVec 32) (from_ to_ : BitVec 16) : Nat × Nat × Nat :=
  let v := limitNat lim.1
  let a := limitNat lim.2.1
  let j := limitNat lim.2.2
  let d := (q15 to_ - q15 from_).natAbs
  let p := Config.plan v a j d
  if planOk v a j d p && decide (planLen p ≤ planLen (planDef v a j d)) then p else planDef v a j d

/-- Sums over the eight ends of segments, of the `n`th power of the time since each. -/
def planSum (p : Nat × Nat × Nat) (n t : Nat) : Int :=
  let f := fun x : Nat => ((t - x : Nat) : Int) ^ n
  let g := fun x : Nat => if x < t then f x else 0
  g 0 - g p.1 - g p.2.1 - g p.2.2 + g (p.1 + p.2.1) + g (p.1 + p.2.2) + g (p.2.1 + p.2.2) - g (planLen p)

/-- The set-point after `t` periods, exact but for its rounding, and the target from the end on. -/
def planAt (p : Nat × Nat × Nat) (from_ to_ : BitVec 16) (t : Nat) : BitVec 16 :=
  if planLen p ≤ t then to_
  else ofQ15 (q15 from_ + freeRound ((q15 to_ - q15 from_) * planSum p 3 t) (6 * p.1 * p.2.1 * p.2.2))

/-- The commanded acceleration after `t` periods; 0 at the end. -/
def planAccel (p : Nat × Nat × Nat) (from_ to_ : BitVec 16) (t : Nat) : BitVec 16 :=
  let num := (q15 to_ - q15 from_) * planSum p 1 t
  if planLen p ≤ t ∨ num = 0 then 0 else Config.accelWord num (p.1 * p.2.1 * p.2.2)

/-! ### Loop programs (R232, R254, Tables 9-7 and 9-8) -/

def lwOp (w : BitVec 32) : Nat := (w.extractLsb' 28 4).toNat
def lwAcc (w : BitVec 32) : Bool := w.getLsbD 27
def lwT (w : BitVec 32) : Bool := w.getLsbD 26
def lwA (w : BitVec 32) : Nat := (w.extractLsb' 20 6).toNat
def lwM (w : BitVec 32) : Bool := w.getLsbD 19
def lwB (w : BitVec 32) : Nat := (w.extractLsb' 13 6).toNat
def lwImm (w : BitVec 32) : Nat := (w.extractLsb' 0 13).toNat

/-- A program word is legal in itself: a listed op, indices in their space, no bit in an unused imm. -/
def lwLegal (w : BitVec 32) : Bool :=
  let aOk := !lwT w || decide (lwA w < 16)
  let bOk := !lwM w || decide (lwB w < 33)
  match lwOp w with
  | 1 => aOk && decide (lwImm w = 0)
  | 2 => bOk && decide (lwImm w = 0)
  | 3 | 4 => aOk && bOk && decide (lwImm w = 0)
  | 5 => decide (lwImm w % 16 ≠ 0 ∧ lwImm w < 32)
  | 6 => decide (lwImm w = 0)
  | 7 => decide (lwImm w < 4096)
  | 8 => lwT w && aOk && decide (lwImm w = 0)
  | 9 => decide (lwImm w < 6)
  | _ => false

/-- What a lane's program sees and keeps. -/
structure LoopLane where
  s : Nat → Int
  c : Nat → Int
  m : Nat → Int
  ge : Nat
  /-- stores to T[0] are ignored (R249) -/
  hold0 : Bool
  a0 : Int
  a1 : Int
  y : Int
  t : Tab (BitVec 16)
  sat : Bool := false
  out : List (Nat × Int) := []

/-- The accumulator bound: ±(2^39 − 1). -/
def accMax : Int := 549755813887
def LoopLane.acc (l : LoopLane) (w : BitVec 32) : Int := if lwAcc w then l.a1 else l.a0
def LoopLane.setAcc (l : LoopLane) (w : BitVec 32) (v : Int) : LoopLane :=
  let v' := max (-accMax) (min accMax v)
  let l := { l with sat := l.sat || decide (v' ≠ v) }
  if lwAcc w then { l with a1 := v' } else { l with a0 := v' }

/-- One word of a loop program on one lane. -/
def LoopLane.step (l : LoopLane) (w : BitVec 32) : LoopLane :=
  let a := if lwT w then q15 (tabGet (fun _ => (0 : BitVec 16)) l.t (lwA w)) else l.s (lwA w)
  let b := if lwM w then l.m (lwB w) else l.c (lwB w)
  let acc := l.acc w
  match lwOp w with
  | 1 => l.setAcc w (a * 2 ^ 15)
  | 2 => l.setAcc w (b * 2 ^ 15)
  | 3 => l.setAcc w (acc + a * b)
  | 4 => l.setAcc w (acc - a * b)
  | 5 =>
    let n := lwImm w % 16
    if lwImm w / 16 % 2 = 0 then l.setAcc w (acc * 2 ^ n) else l.setAcc w ((acc + 2 ^ (n - 1)) / 2 ^ n)
  | 6 =>
    let v := (acc * 2 ^ l.ge + 2 ^ 14) / 2 ^ 15
    { l with y := satQ15 v, sat := l.sat || decide (satQ15 v ≠ v) }
  | 7 => { l with y := min (max l.y (l.c (lwImm w % 64))) (l.c (lwImm w / 64 % 64)) }
  | 8 => if l.hold0 && decide (lwA w = 0) then l
         else { l with t := tabSet (fun _ => (0 : BitVec 16)) l.t (lwA w) (ofQ15 l.y) }
  | 9 => { l with out := l.out ++ [(lwImm w % 8, l.y)] }
  | _ => l

/-- The words bound to program `p`: 0 INNER, 1 OUTER, 2 BANK, 3 ADAPT. -/
def Engine.bound (x : Engine) (p : Nat) : BitVec 10 × BitVec 11 := tabGet (fun _ => (0, 0)) x.bind p
def Engine.progWord (x : Engine) (i : Nat) : BitVec 32 := tabGet (fun _ => (0 : BitVec 32)) x.prog i
def Engine.program (x : Engine) (p : Nat) : List (BitVec 32) :=
  (List.range (x.bound p).2.toNat).map (fun i => x.progWord ((x.bound p).1.toNat + i))

def LoopLane.run (l : LoopLane) (ws : List (BitVec 32)) : LoopLane := ws.foldl LoopLane.step l
/-- The last value a program put out at an output. -/
def LoopLane.outAt (l : LoopLane) (o : Nat) : Option Int := (l.out.reverse.find? (fun x => x.1 = o)).map (·.2)

/-! ### What a lane sees (Table 9-8) -/

/-- Previous heater commands of a skein of the engine, 0 where there is none. -/
def State.cmdOf (s : State) (n : Nat) (sk : Int) (e : Nat) : Int :=
  if sk < 0 ∨ 15 < sk then 0 else q15 (s.elem n (11 * sk.toNat + e)).command

/-- The lane a ring element serves, if the lane names the ring. -/
def State.laneOf (s : State) (n e : Nat) : Option Nat :=
  let q := skeinOfElem n e
  let j := (s.elem n e).lane.toNat
  if elemIsSel e then none
  else
    let o := s.olane q j
    if (if elemIsTx e then o.txRing else o.rxRing).toNat = ringOfElem e ∧ o.state ≠ 0 then some j else none

/-- The excitation of a TEST element. -/
def Engine.excite (g : Engine) (x : Elem) : Int :=
  if x.mode ≠ .test then 0
  else
    let i := x.exciteCnt / max 1 g.exHalf.toNat
    let up := if g.exKind then Config.prbs9 i else decide (i % 2 = 0)
    if up then q15 g.exAmp else -(q15 g.exAmp)

/-- The PIC temperature at the clamp (R237). -/
def clampTemp (t : BitVec 16) : BitVec 16 :=
  if t.toInt < 3500 then 3500 else if 9500 < t.toInt then 9500 else t

/-- The interpolation fraction f = (T − 45) / 40 of the clamped temperature, in Q15. -/
def fracOf (temp : BitVec 16) : Int :=
  let t := (clampTemp temp).toInt - 4500
  if t < 4000 then freeRound (t * 32768) 4000 else q15 (Config.fracQ15 temp)

/-- S of an element lane. -/
def State.elemS (s : State) (n e : Nat) (x : Elem) (mon : Int) (i : Nat) : Int :=
  let g := s.engine n
  let sk : Int := ((e / 11 : Nat) : Int)
  match i with
  | 0 => mon
  | 1 => q15 x.mean
  | 2 => q15 x.setpoint
  | 3 => q15 x.accel
  | 4 => if x.mode.banked then q15 (s.skein (skeinOfElem n e)).correction else 0
  | 5 => g.excite x
  | 6 => q15 x.peakRef
  | 7 => q15 x.target
  | 8 => if (s.laneOf n e).isSome then q15 x.eye else 0
  | 9 => q15 x.acdc
  | 10 => if x.slot.toNat < 8 then x.line x.slot.toNat else 0
  | 11 => fracOf g.temp
  | 49 => q15 x.command
  | _ =>
    if 16 ≤ i ∧ i ≤ 26 then s.cmdOf n sk (i - 16)
    else if 27 ≤ i ∧ i ≤ 37 then s.cmdOf n (sk - 1) (i - 27)
    else if 38 ≤ i ∧ i ≤ 48 then s.cmdOf n (sk + 1) (i - 38)
    else 0

/-- An element lane ready to run a program. -/
def State.elemLane (s : State) (n e : Nat) (x : Elem) (mon : Int) (hold0 : Bool) : LoopLane :=
  { s := s.elemS n e x mon, c := fun i => q15 (x.coefNow i), m := fun i => q15 (nth x.liveRow i 0), ge := x.ge.toNat,
    hold0 := hold0, a0 := Config.loopInit s.free e 0, a1 := Config.loopInit s.free e 1,
    y := Config.loopInit s.free e 2, t := x.t }

/-! ### Line counting (R245, R246) -/

/-- The present tap of a skein's current feed. -/
def Skein.tap (k : Skein) : BitVec 16 := if k.secondary then k.feedSec else k.feedPri

/-- The expected peak, of a transmit ring the gauge coupling, per mW, times the feed-tap power (log entry 21), times the
threshold fraction: a sample counts as above when `sample × 32 768` exceeds it. -/
def State.threshold (s : State) (n e : Nat) : Int :=
  let g := s.engine n
  let k := s.skein (skeinOfElem n e)
  let peak := if elemIsTx e then BitVec.ofNat 16 (scaleDb (max 0 (q15 g.coupling)).toNat k.tap.toInt)
    else k.nominalPeak
  q15 peak * q15 g.detect

/-- Source and fibre of a bus's primary or secondary feed (Table 8-4). -/
def feedOf (q : Nat) (secondary : Bool) : Nat × Nat :=
  if secondary then ((q / 16 + 1) % 4, 2 + q % 16 / 8) else (q / 16, q % 16 / 8)

/-- The feed of a skein counts as lost (R202). -/
def State.feedLostOf (s : State) (q : Nat) (secondary : Bool) : Bool :=
  let f := feedOf q secondary
  (s.ecsOf f.1).feedLost.getLsbD f.2

/-- Another element of the bus holds the slot; a faulted element has lost its hold. -/
def State.slotHeld (s : State) (n e : Nat) (k : BitVec 4) : Bool :=
  s.elems.any (fun p => decide (p.1 / 176 = n ∧ p.1 % 176 ≠ e ∧ p.2.slot = k ∧ p.2.mode ≠ .park) && !p.2.faulted
    && sameBus e (p.1 % 176))

/-- The window of slot `k` is expected lit. -/
def State.expectLit (s : State) (n e k : Nat) : Bool :=
  let q := skeinOfElem n e
  !s.slotHeld n e (BitVec.ofNat 4 k) &&
    (if elemIsTx e then !s.feedLostOf q (s.skein q).secondary else (s.slotI q k).expectCoord.isSome)

/-- The slot whose window holds a heater power. -/
def windowAt (x : Elem) (corr half : Int) (p : Int) : Option Nat :=
  (List.range 8).find? (fun k => decide (x.line k + corr - half ≤ p ∧ p ≤ x.line k + corr + half))

/-- What the counting of a period finds: the run, the missed lines and a failure. -/
structure Count where
  run : Run
  missed : Nat
  peak : Option (BitVec 16) := none
  fail : Bool := false
  /-- slots with a crossing in a window expected dark -/
  dark : Byte := 0

/-- The slot whose line this run is to see: none on the way to park. -/
def Run.aim (r : Run) : Option (BitVec 3) := if r.phase = MovePhase.parking then none else r.target

/-- The crossings outside every window that fail: those in the gap beside a window expected lit. -/
def strayAt (x : Elem) (corr p : Int) (lit : Nat → Bool) : Bool :=
  (List.range 8).any (fun k => lit k && decide ((x.line k + corr - p).natAbs ≤ 2443))

/-- A crossing registered at a heater power. -/
def Count.cross (c : Count) (x : Elem) (corr half p : Int) (lit : Nat → Bool) : Count :=
  match windowAt x corr half p with
  | none => { c with fail := c.fail || strayAt x corr p lit }
  | some k =>
    let b := BitVec.ofNat 3 k
    let c := if c.run.crossed.contains b || !lit k then c else { c with run := { c.run with crossed := c.run.crossed ++ [b] } }
    let c := if lit k then c else { c with dark := c.dark ||| (1 <<< k) }
    if c.run.aim = some b && !c.run.targetSeen then { c with run := { c.run with targetSeen := true }, peak := some c.run.peak } else c

/-- Windows that the heater power has left behind since the start of the move. -/
def passedWindow (x : Elem) (corr half from_ now : Int) (k : Nat) : Bool :=
  let c := x.line k + corr
  decide (from_ < c - half ∧ c + half < now) || decide (now < c - half ∧ c + half < from_)

/-- A window left behind with no crossing: dark is passed over, lit is missed, the target fails. -/
def Count.pass (c : Count) (lit : Nat → Bool) (k : Nat) : Count :=
  let b := BitVec.ofNat 3 k
  if c.run.crossed.contains b then c
  else if c.run.aim = some b then { c with fail := c.fail || !c.run.targetSeen }
  else if lit k then
    { c with run := { c.run with crossed := c.run.crossed ++ [b] }, missed := c.missed + 1, fail := c.fail || decide (c.missed = 1) }
  else { c with run := { c.run with crossed := c.run.crossed ++ [b] } }

/-- Lines are counted on this period's sample, taken at the heater power delivered last. -/
def State.countLines (s : State) (n e : Nat) (x : Elem) (r : Run) (mon power : Int) (ending : Bool) : Count :=
  let g := s.engine n
  let corr := q15 (s.skein (skeinOfElem n e)).correction
  let half := (g.halfWidth.toNat : Int)
  let lit := s.expectLit n e
  let above := decide (s.threshold n e < mon * 32768)
  let r := if above then
      (if !r.rising || decide (q15 r.peak < mon) then { r with rising := true, peak := ofQ15 mon, peakAt := ofQ15 power } else r)
    else r
  let c : Count := { run := r, missed := x.missed.toNat, dark := x.darkSeen }
  let c := if r.rising && (!above || ending) then
      let c := c.cross x corr half (q15 r.peakAt) lit
      { c with run := { c.run with rising := false, peak := 0 } }
    else c
  let c := (List.range 8).foldl (fun c k => if passedWindow x corr half (q15 r.from_ + corr) power k then c.pass lit k else c) c
  if ending && !c.run.targetSeen && r.aim.isSome then { c with fail := true } else c

/-! ### Starting and ending moves (R239, R246, R247) -/

/-- The element sets out from a heater power under a profile planned with the limits `lim`. -/
def Elem.depart (x : Elem) (lim : BitVec 32 × BitVec 32 × BitVec 32) (mode : ElemMode) (phase : MovePhase)
    (target : Option (BitVec 3)) (start goal : BitVec 16) (retry : Bool) : Elem :=
  { x with mode := mode, missed := 0, darkSeen := 0, feTimer := 0, slipRun := 0, setpoint := start,
           run := some { phase := phase, target := target, from_ := start, to_ := goal, retry := retry,
                         plan := movePlan lim start goal } }

/-- The limits in force for an element: those of its profile set; of a selector, set 1 (R217, R239). -/
def Engine.limitsOf (g : Engine) (e : Nat) (x : Elem) : BitVec 32 × BitVec 32 × BitVec 32 :=
  g.profileOf (if elemIsSel e then 1 else x.pset.toNat)

/-- Where a move to slot `k` runs: a quarter spacing beyond the line in its direction. -/
def Elem.overshoot (x : Elem) (start : BitVec 16) (k : Nat) : BitVec 16 :=
  let d := if q15 start ≤ x.line k then quarterSlot else -quarterSlot
  ofQ15 (satQ15 (x.line k + d))

/-- MOVE to a slot (cmd 1), SEEK from park (cmd 2), and parking, after which SEEK to `again` may follow. A SEEK that
retries a failed line count restarts the notch's count (R235). -/
def Elem.startMove (x : Elem) (lim : BitVec 32 × BitVec 32 × BitVec 32) (k : BitVec 3) (lane : BitVec 2) : Elem :=
  let y := x.depart lim .move .out (some k) x.command (x.overshoot x.command k.toNat) false
  { y with slot := k.setWidth 4, lane := lane }
def Elem.startSeek (x : Elem) (lim : BitVec 32 × BitVec 32 × BitVec 32) (recovery : BitVec 16) (k : BitVec 3) (lane : BitVec 2)
    (retry : Bool) : Elem :=
  let y := x.depart lim .seek .out (some k) x.livePark (x.overshoot x.livePark k.toNat) retry
  { y with slot := k.setWidth 4, lane := lane, notch := if retry then notchStart recovery else y.notch }
def Elem.startPark (x : Elem) (lim : BitVec 32 × BitVec 32 × BitVec 32) (again : Option (BitVec 3)) (retry : Bool) : Elem :=
  let y := x.depart lim .move .parking again x.command x.livePark retry
  { y with slot := match again with | some k => k.setWidth 4 | none => 15 }

/-- The element is parked. A command that waits is checked then. -/
def Elem.parked (x : Elem) : Elem :=
  { x with mode := .park, slot := 15, run := none, setpoint := x.livePark, feTimer := 0, slipRun := 0 }

/-- The element enters HOLD at its last command (R242). -/
def Elem.held (x : Elem) (why : BitVec 4) : Elem :=
  { x with mode := .hold, run := none, last := why, feTimer := 0, slipRun := 0, setpoint := x.command }

/-- No transmit ring holds a slot for the lane any more (R195). -/
def State.unlit (s : State) (n e : Nat) : State :=
  match s.laneOf n e with
  | some j => if elemIsTx e then s.updOlane (skeinOfElem n e) j fun o => { o with lit := false } else s
  | none => s

/-- The lane of a ring leaves service or goes on under another state. -/
def State.ringOut (s : State) (n e : Nat) (why : BitVec 4) : State :=
  match s.laneOf n e with
  | some j => s.laneOut (skeinOfElem n e) j why
  | none => s

/-! ### Faults and the spare (R212, R247, R251) -/

/-- Room on the heater for a move to slot `k` (Table 8-6, RANGE). -/
def Elem.inRange (x : Elem) (k : Nat) : Bool :=
  decide (0 ≤ x.line k ∧ x.line k + quarterSlot ≤ 32767 ∧ 0 ≤ x.line k - q15 (x.coef 63))

/-- Slots strictly between two places of the tuning axis. -/
def crossedBy (a b : Nat) (k : BitVec 4) : Bool :=
  decide (min a b < slotPos k ∧ slotPos k < max a b)

/-- The move crosses a slot that another element of the bus holds, or that another move of the set starts
at or goes to (R207). `others` are those moves: element, start, target. -/
def State.crosses (s : State) (n e : Nat) (to_ : BitVec 4) (others : List (Nat × BitVec 4 × BitVec 4)) : Bool :=
  let a := slotPos (s.elem n e).slot
  let b := slotPos to_
  s.elems.any (fun p => decide (p.1 / 176 = n ∧ p.1 % 176 ≠ e) && sameBus e (p.1 % 176)
      && decide (p.2.mode = .track ∨ p.2.mode = .hold ∨ p.2.mode = .test) && crossedBy a b p.2.slot) ||
  others.any (fun o => decide (o.1 ≠ e) && sameBus e o.1 && (crossedBy a b o.2.1 || crossedBy a b o.2.2))

/-- The checks of Table 8-6 in their order; the reason of the first that fails, 1 BLANKED to 7 CROSSING.
`earlier` are the targets of earlier moves of the set. -/
def State.moveRefusal (s : State) (n e : Nat) (slot : Option (BitVec 3)) (earlier : List (Nat × BitVec 4))
    (others : List (Nat × BitVec 4 × BitVec 4)) : Option Nat :=
  let q := skeinOfElem n e
  let x := s.elem n e
  let to_ : BitVec 4 := match slot with | some k => k.setWidth 4 | none => 15
  if (s.engine n).blanked then some 1
  else if x.faulted then some 2
  else
    let bySlot : Option Nat := match slot with
      | none => none
      | some k =>
        if (s.skein q).mismatch.getLsbD k.toNat then some 3
        else if elemIsTx e && !(s.slotI q k.toNat).valid then some 4
        else if s.slotHeld n e to_ || earlier.any (fun p => decide (p.1 ≠ e ∧ p.2 = to_) && sameBus e p.1) then some 5
        else if !x.inRange k.toNat then some 6
        else none
    match bySlot with
    | some r => some r
    | none => if s.crosses n e to_ others && !(s.skein q).quiesced then some 7 else none

/-- A refused move leaves its element and counts its reason (R206). -/
def State.refuseMove (s : State) (n e reason : Nat) : State :=
  (s.updElem n e fun x => { x with last := 9, refusal := BitVec.ofNat 3 reason }).updEngine n fun g =>
    let v := stickAdd (tabGet (fun _ => (0 : BitVec 32)) g.moveRefused (reason - 1)) 1
    { g with moveRefused := tabSet (fun _ => (0 : BitVec 32)) g.moveRefused (reason - 1) v }

/-- The lane that a ring can carry: its own, or of a spare the one named (R195). -/
def laneFor (e : Nat) (lane : BitVec 2) : BitVec 2 := if ringOfElem e < 4 then BitVec.ofNat 2 (ringOfElem e) else lane

/-- What the settings store keeps of a skein (OPTn.SKEIN_STATE, class F). -/
def State.keepSkein (s : State) (q : Nat) : State :=
  let k := s.skein q
  let st := s.flash.settings
  { s with flash := { s.flash with settings := { st with
      skeins := tabSet (fun _ => (false, false, false)) st.skeins q (k.secondary, k.txSpare, k.rxSpare) } } }

/-- A ring takes a lane: OPTn.LANE names it, its slot, and the lane is moving. -/
def State.assignLane (s : State) (n e : Nat) (k : BitVec 3) (j : Nat) : State :=
  let q := skeinOfElem n e
  let r := BitVec.ofNat 3 (ringOfElem e)
  let tx := elemIsTx e
  let s := s.laneOut q j 1
  let s := s.updOlane q j fun o =>
    if tx then { o with misroutes := (if o.txRing = r ∧ o.txSlot = k then o.misroutes else 0), txRing := r, txSlot := k, lit := true }
    else { o with rxMisroutes := (if o.rxRing = r ∧ o.rxSlot = k then o.rxMisroutes else 0), rxRing := r, rxSlot := k }
  let usesSpare := (List.range 4).any (fun i =>
    decide ((if tx then (s.olane q i).txRing else (s.olane q i).rxRing) = 4))
  (s.updSkein q fun x => if tx then { x with txSpare := usesSpare } else { x with rxSpare := usesSpare }).keepSkein q

/-- The element's fault stands, and in the settings store too. -/
def State.markFaulted (s : State) (n e : Nat) : State :=
  let st := s.flash.settings
  let key := elemKey n e
  let st := if st.faulted.contains key then st else { st with faulted := st.faulted ++ [key] }
  let s : State := { s with flash := { s.flash with settings := st } }
  s.updElem n e fun x => { x with faulted := true }

/-- The spare of the kind takes lane `j` on slot `k` by a move under the checks; else the lane stays out. -/
def State.takeover (s : State) (q : Nat) (tx : Bool) (j : Nat) (k : BitVec 3) : State :=
  let n := q / 16
  let e := elemOfRing q 4 tx
  let used := if tx then (s.skein q).txSpare else (s.skein q).rxSpare
  let x := s.elem n e
  if used || x.faulted || decide (x.mode ≠ .park) then s
  else match s.moveRefusal n e (some k) [] [] with
    | some r => s.refuseMove n e r
    | none =>
      let g := s.engine n
      (s.assignLane n e k j).updElem n e fun x =>
        let y := x.startSeek (g.limitsOf e x) g.recovery k (BitVec.ofNat 2 j) false
        { y with misroutes := 0 }

/-- The Crook parks an element by itself, to SEEK slot `again` from there; the crossing check holds here too, and a move
that it refuses leaves the element in HOLD (R208). -/
def State.autoPark (s : State) (n e : Nat) (again : Option (BitVec 3)) (retry : Bool) : State :=
  let g := s.engine n
  if s.crosses n e 15 [] && !(s.skein (skeinOfElem n e)).quiesced then (s.updElem n e fun x => x.held 9).refuseMove n e 7
  else s.updElem n e fun x => x.startPark (g.limitsOf e x) again retry

/-- R212: the element is faulted and parked, its lane faulted, and the spare takes the lane. -/
def State.faultElem (s : State) (n e : Nat) : State :=
  let x := s.elem n e
  let lane := s.laneOf n e
  let s := ((s.ringOut n e 7).unlit n e).markFaulted n e
  let s := s.updElem n e Elem.parked
  match lane with
  | some j => if x.slot.toNat < 8 then s.takeover (skeinOfElem n e) (elemIsTx e) j (x.slot.setWidth 3) else s
  | none => s

/-- A line-count failure (R247): an event, a count, and one SEEK from park; a second one faults. A move that is on its
way to park goes on there (log entry 21). -/
def State.lineFail (s : State) (n e : Nat) (r : Run) : State :=
  let s := (s.updElem n e fun x => { x with lcFail := stickAdd x.lcFail 1, last := 5 }).raise (.lineCount n e) 3
  if r.phase = MovePhase.parking then
    s.updElem n e fun x => { x with run := x.run.map (fun v => { v with retry := v.retry || v.target.isSome }) }
  else match r.retry, r.target with
  | false, some k => (s.ringOut n e 1).autoPark n e (some k) true
  | _, _ => s.faultElem n e

/-- What this module's TRAIN flits say on an optical lane (R211). -/
def State.laneTrain (s : State) (q j : Nat) : TrainInfo :=
  let o := s.olane q j
  { coord := s.shep.coord, skein := BitVec.ofNat 6 q, lane := BitVec.ofNat 2 j, slot := o.txSlot, heard := o.heard,
    digest := s.ownDigest, rev := s.cast.protoRev }

/-- A TRAIN flit leaves on the lane's own context. -/
def State.sendTrain (s : State) (q j : Nat) : State :=
  let fd := fdOfSkein q
  let k := 48 + strandOf q j
  let d := trainData (s.laneTrain q j)
  s.emit (.flit fd k (sealFlit { type := ftTrain, seq := (s.link fd k).nextSeq } (some d)) (some d))

/-- Fast link training of a lane begins (R205, R211). -/
def State.beginTrain (s : State) (q j : Nat) : State :=
  (s.updOlane q j fun o => { o with state := 4, txOk := false, rxOk := false, trainSince := s.tb, heard := none }).sendTrain q j

/-- Both rings of the lane track: fast link training begins, on a quiesced skein once it is released (R209). -/
def State.ringTracks (s : State) (n e : Nat) : State :=
  match s.laneOf n e with
  | none => s
  | some j =>
    let q := skeinOfElem n e
    let o := s.olane q j
    let tx := s.elem n (elemOfRing q o.txRing.toNat true)
    let rx := s.elem n (elemOfRing q o.rxRing.toNat false)
    if tx.mode = .track ∧ rx.mode = .track then
      (if (s.skein q).quiesced then s.updOlane q j fun o => { o with state := 8 } else s.beginTrain q j)
    else s.updOlane q j fun o => { o with state := 3 }

/-- A profile has reached its end. -/
def State.moveArrived (s : State) (n e : Nat) (r : Run) : State :=
  match r.phase with
  | .out =>
    match r.target with
    | some k =>
      let g := s.engine n
      s.updElem n e fun x =>
        let goal := ofQ15 (x.lockPoint k.toNat)
        { x with run := some { r with phase := .back, from_ := x.setpoint, to_ := goal, step := 0,
                                      plan := movePlan (g.limitsOf e x) x.setpoint goal } }
    | none => s.updElem n e fun x => { x with run := none }
  | .back =>
    (match s.laneOf n e with
      | some j => s.updOlane (skeinOfElem n e) j fun o => { o with state := 2 }
      | none => s).updElem n e fun x =>
        { x with run := some { r with phase := .evaluating, step := 0, proposals := [], wait := 0 } }
  | .parking =>
    if elemIsSel e then
      (s.updElem n e fun x => if r.target.isSome then { x with mode := .hold, run := none } else x.parked).updSkein
        (skeinOfElem n e) fun k => { k with switching := false }
    else
      let s1 := s.updElem n e Elem.parked
      let g := s.engine n
      match r.target with
      | none => s1
      | some k =>
        match s1.moveRefusal n e (some k) [] [] with
        | some why => ((s1.ringOut n e 0).unlit n e).refuseMove n e why
        | none => s1.updElem n e fun x => x.startSeek (g.limitsOf e x) g.recovery k x.lane r.retry
  | .evaluating => s

/-! ### One period (R225) -/

/-- The samples of a period reach an element; its notch count runs (R235). -/
def Elem.sampled (x : Elem) (mon : Int) (acdc eye : BitVec 16) : Elem :=
  { x with acdc := acdc, eye := eye, mons := (x.mons ++ [ofQ15 mon]).drop ((x.mons.length + 1) - 4),
           exciteCnt := if x.mode = ElemMode.test then x.exciteCnt + 1 else 0,
           notch := if 1 < x.notch.toNat then x.notch - 1 else x.notch }

/-- The profile of a run comes to its next value (R239). Answers whether it has reached its end. -/
def Elem.advance (x : Elem) : Elem × Bool :=
  match x.run with
  | none => ({ x with accel := 0 }, false)
  | some r =>
    if r.phase = MovePhase.evaluating then ({ x with setpoint := r.to_, accel := 0 }, false)
    else
      let step := r.step + 1
      ({ x with setpoint := planAt r.plan r.from_ r.to_ step, accel := planAccel r.plan r.from_ r.to_ step,
                run := some { r with step := step } }, decide (planLen r.plan ≤ step))

/-- What a count leaves in the element. -/
def Elem.counted (x : Elem) (c : Count) (tap : BitVec 16) : Elem :=
  { x with run := some c.run, missed := BitVec.ofNat 2 (min 3 c.missed), darkSeen := c.dark, peakRef := c.peak.getD x.peakRef,
           feedAtAcq := if c.peak.isSome then tap else x.feedAtAcq }

/-- The element stands at a hand-over evaluation. -/
def Elem.evaluating (x : Elem) : Bool :=
  match x.run with | some r => decide (r.phase = MovePhase.evaluating) | none => false

/-- OUTER on one element (R228, R248, R249): in TRACK its set-point takes effect, in an evaluation it is
recorded. -/
def State.outer (s : State) (n e : Nat) (x : Elem) (mon : Int) : Elem :=
  let g := s.engine n
  let corr := q15 (s.skein (skeinOfElem n e)).correction
  let x := { x with mean := ofQ15 (x.mons.foldl (fun a m => a + q15 m) 0 / 4) }
  let ev := x.evaluating
  let x := if ev then { x with t := tabSet (fun _ => (0 : BitVec 16)) x.t 0 x.setpoint } else x
  let r := (s.elemLane n e x mon ev).run (g.program 1)
  let sp := ofQ15 ((r.outAt 1).getD (q15 x.setpoint))
  let x := { x with t := r.t, sat := x.sat || r.sat, proposal := ofQ15 ((r.outAt 2).getD (q15 x.proposal)),
                    setpoint := if x.mode = ElemMode.track ∨ x.mode = ElemMode.test then sp else x.setpoint }
  let x : Elem := if ev then { x with run := x.run.map (fun v =>
      { v with proposals := v.proposals ++ [x.proposal], lastSet := sp, wait := v.wait + 1 }) } else x
  let home : Int := if x.slot.toNat < 8 then x.line x.slot.toNat else 0
  let off := q15 x.setpoint - (home + corr)
  { x with slipRun := if x.mode = ElemMode.track ∧ (g.slipLimit.toNat : Int) < (off.natAbs : Int) then x.slipRun + 1 else 0 }

/-- The command of slot 48: the Crook's own in PARK and HOLD, else INNER's (R225, R240). -/
def Elem.commandNow (x : Elem) (inner : Option LoopLane) : BitVec 16 :=
  match x.mode with
  | .park => x.livePark
  | .hold => x.command
  | _ => match inner with
    | some r => ofQ15 (satQ15 ((r.outAt 0).getD (q15 x.command)))
    | none => x.command

/-- The following error of R251. -/
def Elem.followError (x : Elem) (corr delivered : Int) : Int :=
  match x.mode with
  | .seek | .move => ((q15 x.setpoint + corr - delivered).natAbs : Int)
  | .track => ((q15 x.proposal - q15 x.setpoint).natAbs : Int)
  | _ => 0

/-- INNER on one element, its heater code and its following error. -/
def State.inner (s : State) (n e : Nat) (x : Elem) (mon : Int) (rail : Nat) : Elem :=
  let g := s.engine n
  let r := if g.run then some ((s.elemLane n e x mon false).run (g.program 0)) else none
  let cmd := x.commandNow r
  let dac := dacOf (q15 cmd) rail
  let err := x.followError (q15 (s.skein (skeinOfElem n e)).correction) dac.2
  { x with
    t := if g.blanked && elemIsTx e then [] else match r with | some l => l.t | none => x.t,
    sat := x.sat || (match r with | some l => l.sat | none => false),
    command := cmd, code := BitVec.ofNat 16 dac.1,
    feTimer := if (x.feLimit.toNat : Int) < err then stickAdd x.feTimer 1 else 0 }

/-- What one element brings to the boundary of slot 48: itself, a failure of line counting, the end of a
profile. -/
structure ElemOut where
  x : Elem
  fail : Option Run := none
  ended : Option Run := none

/-- Phase A of one element: the profile, the lines, OUTER in every fourth period, INNER. -/
def State.phaseA (s : State) (n e : Nat) (smp : CrookSample) (outer : Bool) (power : Int) : ElemOut :=
  let g := s.engine n
  let mon : Int := ((nth smp.mon e 0).toNat : Int) * 8
  let x := (s.elem n e).sampled mon (nth smp.acdc e 0) (nth smp.eye e 0)
  let a := x.advance
  let x := a.1
  let counted := match x.run with
    | some r => if r.phase ≠ MovePhase.evaluating ∧ elemIsSel e = false then some (s.countLines n e x r mon power a.2) else none
    | none => none
  let x := match counted with
    | some c => x.counted c (s.skein (skeinOfElem n e)).tap
    | none => x
  let fail := match counted with | some c => if c.fail then some c.run else none | none => none
  let x := if outer && g.run then s.outer n e x mon else x
  { x := s.inner n e x mon smp.railMv.toNat, fail := fail, ended := if a.2 && fail.isNone then x.run else none }

/-- Phase B of one bank lane: its correction for the next period (R230, R231). -/
def State.phaseB (s : State) (n i : Nat) : Skein :=
  let g := s.engine n
  let k := s.skein (16 * n + i)
  let tr := fun e => decide ((s.elem n (11 * i + e)).mode = .track)
  let cnt := ((List.range 11).filter tr).length
  let seen := fun j : Nat =>
    if j < 11 then q15 (tabGet (fun _ => (0 : BitVec 16)) (s.elem n (11 * i + j)).t 1)
    else if 16 ≤ j ∧ j ≤ 26 then (if tr (j - 16) then 0x7FFF else 0)
    else if j = 32 then (if cnt = 0 then 0 else min 32767 ((32768 / cnt : Nat) : Int))
    else 0
  let r := ({ s := seen, c := fun j => q15 (tabGet (fun _ => (0 : BitVec 16)) k.bankC j), m := fun _ => 0, ge := 0,
              hold0 := false, a0 := Config.loopInit s.free (176 + i) 0, a1 := Config.loopInit s.free (176 + i) 1,
              y := Config.loopInit s.free (176 + i) 2, t := k.bankT } : LoopLane).run (g.program 2)
  if cnt = 0 then { k with bankT := r.t, frozen := true }
  else { k with bankT := r.t, frozen := false,
                nextCorrection := ofQ15 (max (-bankClamp) (min bankClamp ((r.outAt 3).getD (q15 k.nextCorrection)))) }

/-- Clamps of a lock target (R229). -/
def clampTarget (tx : Bool) (v : Int) : Int := if tx then max 9831 (min 26214 v) else max 22938 (min 32112 v)

/-- ADAPT on one element, after its peak reference has followed the feed tap (R229). -/
def State.adapt (s : State) (n e : Nat) (mon : Int) : Elem :=
  let g := s.engine n
  let k := s.skein (skeinOfElem n e)
  let tap := k.tap
  let x := s.elem n e
  let x := if elemIsTx e then
      { x with peakRef := BitVec.ofNat 16 (scaleDb (max 0 (q15 x.peakRef)).toNat (tap.toInt - x.feedAtAcq.toInt)), feedAtAcq := tap }
    else x
  let r := (s.elemLane n e x mon false).run (g.program 3)
  let x := { x with t := if g.blanked && elemIsTx e then [] else r.t, sat := x.sat || r.sat }
  if x.mode = .track then
    { x with target := match r.outAt 4 with | some v => ofQ15 (clampTarget (elemIsTx e) v) | none => x.target,
             peakRef := match r.outAt 5 with | some v => ofQ15 v | none => x.peakRef }
  else x

/-- A coefficient word takes effect: words 2w and 2w + 1 of an element or of a bank lane (R252). -/
def State.applyCoef (s : State) (n : Nat) (v : Bool × Nat × Nat × BitVec 32) : State :=
  let put := fun (t : Tab (BitVec 16)) => tabSet (fun _ => (0 : BitVec 16))
    (tabSet (fun _ => (0 : BitVec 16)) t (2 * v.2.2.1) (v.2.2.2.extractLsb' 0 16)) (2 * v.2.2.1 + 1) (v.2.2.2.extractLsb' 16 16)
  if v.1 then s.updSkein (16 * n + v.2.1) fun k => { k with bankC := put k.bankC }
  else s.updElem n v.2.1 fun x => { x with c := put x.c }

/-- The slot-0 events of an engine: samples, bank corrections, one coefficient word, the dark-slot monitors. -/
def State.slotZero (s : State) (n : Nat) (smp : CrookSample) : State :=
  let g := s.engine n
  let bad := decide (smp.railMv.toNat < 3100 ∨ 3500 < smp.railMv.toNat)
  let clampT := decide (smp.temp.toInt < 3500 ∨ 9500 < smp.temp.toInt)
  let period := stickAdd g.period 1
  let s := (s.setEngine n { g with
    period := period, periodOvf := g.periodOvf || decide (period = stickMax 64), temp := smp.temp, railMv := smp.railMv,
    railBad := bad, railOut := if bad then g.railOut + 1 else 0, railIn := if bad then 0 else min 1000 (g.railIn + 1),
    railActed := bad && g.railActed, railHeld := g.railHeld && (bad || decide (g.railIn < 999)),
    tempClamp := clampT, tempWarn := g.tempWarn || clampT,
    coefQ := g.coefQ.drop 1 ++ (if g.coefQ.isEmpty then [] else g.coefWait.take 1),
    coefWait := if g.coefQ.isEmpty then g.coefWait else g.coefWait.drop 1 }).stuck (0x400008 + 0x100000 * n) g.period period
  let s := if clampT && !g.tempClamp then s.raise (.tempClamp n) 2 else s
  let s := match g.coefQ with | v :: _ => s.applyCoef n v | [] => s
  (List.range 16).foldl (fun (s : State) i =>
    let q := 16 * n + i
    let reading := nth smp.dark i 0x8000
    let still := (List.range 4).all (fun j =>
      decide ((s.olane q j).state = 0) || decide ((s.elem n (elemOfRing q (s.olane q j).rxRing.toNat false)).mode = .track))
    let bright := decide (g.darkThresh.toInt < reading.toInt)
    let under := decide (reading.toInt < g.darkThresh.toInt)
    s.updSkein q fun k => { k with
      feedPri := (nth smp.taps i (0, 0)).1, feedSec := (nth smp.taps i (0, 0)).2,
      correction := k.nextCorrection,
      darkOver := if bright && still && k.darkArmed then k.darkOver + 1 else 0,
      darkUnder := if under then min 256 (k.darkUnder + 1) else 0,
      darkArmed := k.darkArmed || (under && decide (255 ≤ k.darkUnder)) }) s

/-- Phase A of a period (R226, R227): what every element makes of its monitor sample; outer updates come every
fourth period. -/
def State.crookA (s : State) (n p rail : Nat) (smp : CrookSample) : List (Nat × ElemOut) :=
  (List.range 176).map (fun e =>
    (e, s.phaseA n e smp (decide (p % 4 = 0)) (dacOf (q15 (s.elem n e).command) rail).2))

/-- The elements as phase A leaves them. -/
def State.crookPut (s : State) (n : Nat) (outs : List (Nat × ElemOut)) : State :=
  outs.foldl (fun (s : State) o => s.setElem n o.1 o.2.x) s

/-- Moves that have failed their line count or have arrived. -/
def State.crookEnds (s : State) (n : Nat) (outs : List (Nat × ElemOut)) : State :=
  outs.foldl (fun (s : State) o =>
    match o.2.fail, o.2.ended with
    | some r, _ => s.lineFail n o.1 r
    | none, some r => s.moveArrived n o.1 r
    | none, none => s) s

/-- No element of a skein is in TRACK (R230). -/
def State.noneTrack (s : State) (n i : Nat) : Bool := (List.range 11).all (fun e => decide ((s.elem n (11 * i + e)).mode ≠ .track))

/-- What an outer update measures of the lines that transmit rings of skein `i` hold in TRACK: the monitor mean over the
lock target, in 2^-15 (R215; log entry 37). -/
def State.ringPower (s : State) (n i : Nat) : State :=
  (List.range 5).foldl (fun (s : State) r =>
    let x := s.elem n (11 * i + r)
    if x.mode = .track ∧ x.slot.toNat < 8 ∧ 0 < q15 x.target then
      s.updSlotI (16 * n + i) x.slot.toNat fun v =>
        { v with ringSum := v.ringSum + (max 0 (q15 x.mean)).toNat * 32768 / (q15 x.target).toNat, ringN := v.ringN + 1,
                 ringSince := if v.ringN = 0 then s.tb else v.ringSince }
    else s) s

/-- Phase B of a period: the bus corrections, while the loop programs run. -/
def State.crookB (s : State) (n : Nat) : State :=
  if (s.engine n).run then
    (List.range 16).foldl (fun (s : State) i => s.setSkein (16 * n + i) (s.phaseB n i)) s
  else (List.range 16).foldl (fun (s : State) i => s.updSkein (16 * n + i) fun k => { k with frozen := k.frozen || s.noneTrack n i }) s

/-- The adaptation of period `p`, every 256 periods while the loop programs run. -/
def State.crookAdapt (s : State) (n p : Nat) (smp : CrookSample) : State :=
  if (s.engine n).run && decide (p % 256 = 0) then
    (List.range 176).foldl (fun (s : State) e => s.setElem n e (s.adapt n e (((nth smp.mon e 0).toNat : Int) * 8))) s
  else s

end Sys2Proof.Machine
end

