-- ==== Sys2Proof/Machine/CrookCmd.lean ====
section
/-! DEFINITION. Commands and events of the Crook's elements, its loop programs and its coefficients
(08, R206 to R208; 09, R234 to R257). -/

namespace Sys2Proof.Machine

/-- A rail fault holds every element until the rail has been back for 1 000 periods (R234). -/
def Engine.railHolds (g : Engine) : Bool := g.railHeld

/-- The Crook of engine `n` answers. -/
def State.crookOn (s : State) (n : Nat) : Bool := s.pwr.transit && decide (n < 4)

/-- An ignored command is counted (R241). -/
def State.badCmd (s : State) (n : Nat) : State := s.updEngine n fun g => { g with badCmd := stickAdd g.badCmd 1 }

/-! ### Moves (R206, R241) -/

/-- The ring leaves the lane it served, if it is to serve another or none. -/
def State.leaveLane (s : State) (n e : Nat) (keep : Option Nat) : State :=
  match s.laneOf n e with
  | some j => if keep = some j then s else (s.unlit n e).laneOut (skeinOfElem n e) j 0
  | none => s

/-- A move whose checks have passed starts: from TRACK, HOLD or TEST it is a MOVE, from PARK a SEEK; a SEEK
ordered in HOLD parks first (R250). -/
def State.beginMove (s : State) (n e : Nat) (slot : Option (BitVec 3)) (lane : BitVec 2) (seek : Bool) : State :=
  let x := s.elem n e
  let g := s.engine n
  match slot with
  | none =>
    if x.mode = .park then s
    else
      let s := s.leaveLane n e none
      s.updElem n e fun x =>
        let y := x.startPark (g.limitsOf e x) none false
        { y with misroutes := 0 }
  | some k =>
    let fresh := decide (x.slot ≠ k.setWidth 4 ∨ x.lane ≠ lane)
    let s := (s.leaveLane n e (some lane.toNat)).assignLane n e k lane.toNat
    s.updElem n e fun x =>
      let y := if x.mode = .park then x.startSeek (g.limitsOf e x) g.recovery k lane false
        else if seek then x.startPark (g.limitsOf e x) (some k) false
        else x.startMove (g.limitsOf e x) k lane
      { y with lane := lane, misroutes := if fresh then 0 else y.misroutes }

/-- The checks of Table 8-6 on a move, and the move or its refusal. A ring that parks first makes its crossings on the
way there, and is checked again as it leaves park (R208). -/
def State.tryMove (s : State) (n e : Nat) (slot : Option (BitVec 3)) (lane : BitVec 2) (seek : Bool)
    (earlier : List (Nat × BitVec 4)) (others : List (Nat × BitVec 4 × BitVec 4)) : State :=
  let x := s.elem n e
  let viaPark := seek && slot.isSome && decide (x.mode ≠ .park)
  match s.moveRefusal n e slot earlier others with
  | some r => s.refuseMove n e r
  | none =>
    if viaPark && s.crosses n e 15 others && !(s.skein (skeinOfElem n e)).quiesced then s.refuseMove n e 7
    else s.beginMove n e slot (laneFor e lane) seek

/-- The element is in a move, a SEEK or the evaluation at its end. -/
def Elem.busy (x : Elem) : Bool := x.run.isSome

/-- A move command: it waits for a move under way (R241), and does nothing in a mode that Table 9-6 does not
name for it. -/
def State.moveCmd (s : State) (n e : Nat) (cmd : BitVec 4) (slot : BitVec 3) (lane : BitVec 2) : State :=
  let x := s.elem n e
  if x.busy then s.updElem n e fun x => { x with queued := some { cmd := cmd, slot := slot, lane := lane } }
  else if cmd = 3 then
    (if x.mode = .park then s else s.tryMove n e none lane false [] [])
  else if cmd = 1 then
    (if x.mode = .track ∨ x.mode = .hold then s.tryMove n e (some slot) lane false [] [] else s)
  else
    (if x.mode = .park ∨ x.mode = .hold then s.tryMove n e (some slot) lane true [] [] else s)

/-- A selector sets out for a position, or for park, under profile set 1 (R241, R244). -/
def Elem.startSel (x : Elem) (lim : BitVec 32 × BitVec 32 × BitVec 32) (slot : Option (BitVec 3)) : Elem :=
  let goal := match slot with | some k => nth x.liveLines k.toNat 0 | none => x.livePark
  let y := x.depart lim .move .parking slot x.command goal false
  { y with slot := (match slot with | some k => k.setWidth 4 | none => 15), adrift := false }

/-- SEL, and PARK of a selector: they wait for a move under way. -/
def State.selCmd (s : State) (n e : Nat) (slot : Option (BitVec 3)) : State :=
  let x := s.elem n e
  let g := s.engine n
  if x.busy then s.updElem n e fun x =>
    { x with queued := some { cmd := if slot.isSome then 7 else 3, slot := slot.getD 0, lane := 0 } }
  else if slot.isNone && decide (x.mode = .park) then s
  else s.updElem n e fun x => x.startSel (g.limitsOf e x) slot

/-- The evaluation of RELEASE begins at the held command (R250). -/
def Elem.startRelease (x : Elem) : Elem :=
  { x with mode := .move, setpoint := x.command, feTimer := 0,
           run := some { phase := .evaluating, target := some (x.slot.setWidth 3), from_ := x.command, to_ := x.command,
                         targetSeen := true, fromHold := true } }

/-- The lane of the element is in service. -/
def State.servesNow (s : State) (n e : Nat) : Bool :=
  match s.laneOf n e with
  | some j => decide ((s.olane (skeinOfElem n e) j).state = 5)
  | none => false

/-- HOLD: from any mode except PARK; the lane leaves service (R241, R242). A selector in a move stops between its
positions. -/
def State.holdCmd (s : State) (n e : Nat) : State :=
  let x := s.elem n e
  if x.mode = .park then s
  else (s.ringOut n e 2).updElem n e fun x =>
    let y := x.held 10
    { y with adrift := y.adrift || (elemIsSel e && x.run.isSome) }

/-- RELEASE: from HOLD, of a ring without a fault. -/
def State.releaseCmd (s : State) (n e : Nat) : State :=
  let x := s.elem n e
  if x.mode = .hold ∧ x.slot.toNat < 8 ∧ x.faulted = false then s.updElem n e Elem.startRelease else s

/-- TEST: refused while the element serves a lane in service. A faulted or blanked ring stays parked. -/
def State.testCmd (s : State) (n e : Nat) : State :=
  let x := s.elem n e
  if s.servesNow n e || x.faulted || ((s.engine n).blanked && elemIsTx e) then s
  else (s.ringOut n e 2).updElem n e fun x => { x with mode := .test, run := none, exciteCnt := 0, feTimer := 0 }

/-- CLEAR: the element's fault is cleared, in the settings store too; it stays in PARK (R243). -/
def State.clearCmd (s : State) (n e : Nat) : State :=
  let st := s.flash.settings
  let st := { st with faulted := st.faulted.filter (fun k => decide (k ≠ elemKey n e)) }
  ({ s with flash := { s.flash with settings := st } } : State).updElem n e fun x => { x with faulted := false, misroutes := 0 }

/-- A command takes effect (Table 9-6). A selector knows PARK, HOLD, SEL and CLEAR alone (R244); a rail fault bars what
leaves HOLD (R234). -/
def State.runCmd (s : State) (n e : Nat) (cmd : BitVec 4) (slot : BitVec 3) (lane : BitVec 2) : State :=
  let barred := (s.engine n).railHolds
  if elemIsSel e then
    match cmd.toNat with
    | 3 => if barred then s else s.selCmd n e none
    | 4 => s.holdCmd n e
    | 7 => if 1 < slot.toNat then s.badCmd n else if barred then s else s.selCmd n e (some slot)
    | 8 => s.clearCmd n e
    | 1 | 2 | 5 | 6 => s
    | _ => s.badCmd n
  else
    match cmd.toNat with
    | 1 | 2 | 3 => if barred then s else s.moveCmd n e cmd slot (if cmd = 3 then (s.elem n e).lane else lane)
    | 4 => s.holdCmd n e
    | 5 => if barred then s else s.releaseCmd n e
    | 6 => if barred then s else s.testCmd n e
    | 8 => s.clearCmd n e
    | _ => s.badCmd n

/-- A command is accepted, one per element and period boundary; a further one waits for a boundary of its own (R241;
log entry 21). -/
def State.elemCmd (s : State) (n e : Nat) (cmd : BitVec 4) (slot : BitVec 3) (lane : BitVec 2) : State :=
  let p := (s.engine n).period
  if (s.engine n).crookRunning && decide ((s.elem n e).cmdAt = some p) then
    s.updElem n e fun x => { x with cmds := x.cmds ++ [(cmd, slot, lane)] }
  else (s.updElem n e fun x => { x with cmdAt := some p }).runCmd n e cmd slot lane

/-- At a period boundary the oldest waiting command of each element is accepted. -/
def State.nextCmds (s : State) (n : Nat) : State :=
  (s.elems.filter (fun v => decide (v.1 / 176 = n) && !v.2.cmds.isEmpty)).foldl (fun (s : State) v =>
    match v.2.cmds with
    | c :: rest => (s.updElem n (v.1 % 176) fun x => { x with cmds := rest }).elemCmd n (v.1 % 176) c.1 c.2.1 c.2.2
    | [] => s) s

/-- A command reaches element `e` of engine `n`. -/
def State.elemOn (s : State) (n e : Nat) : Bool := s.crookOn n && decide (e < 176)

/-- ELEM_MOVE. -/
def execElemMove (n e : Nat) (slot : BitVec 3) (lane : BitVec 2) (s : State) : Res :=
  doIf (s.elemOn n e) s (s.elemCmd n e 1 slot lane)

/-- ELEM_SEEK. -/
def execElemSeek (n e : Nat) (slot : BitVec 3) (lane : BitVec 2) (s : State) : Res :=
  doIf (s.elemOn n e) s (s.elemCmd n e 2 slot lane)

/-- ELEM_PARK. -/
def execElemPark (n e : Nat) (s : State) : Res := doIf (s.elemOn n e) s (s.elemCmd n e 3 0 0)

/-- ELEM_HOLD. -/
def execElemHold (n e : Nat) (s : State) : Res := doIf (s.elemOn n e) s (s.elemCmd n e 4 0 0)

/-- ELEM_RELEASE. -/
def execElemRelease (n e : Nat) (s : State) : Res := doIf (s.elemOn n e) s (s.elemCmd n e 5 0 0)

/-- ELEM_TEST. -/
def execElemTest (n e : Nat) (s : State) : Res := doIf (s.elemOn n e) s (s.elemCmd n e 6 0 0)

/-- ELEM_SEL: a selector goes to its primary (0) or secondary (1) position; another slot, or a ring, is
ignored and counted. -/
def execElemSel (n e : Nat) (slot : BitVec 3) (s : State) : Res := doIf (s.elemOn n e) s (s.elemCmd n e 7 slot 0)

/-- ELEM_CLEAR. -/
def execElemClear (n e : Nat) (s : State) : Res := doIf (s.elemOn n e) s (s.elemCmd n e 8 0 0)

/-- A release that waits for a source switch waits for the selector of the skein (R217). -/
def State.selBusy (s : State) (n e : Nat) : Bool := (s.elem n (11 * (e / 11) + 10)).busy

/-- A command that waited is checked: one of a set with the moves of its set (R206). -/
def State.runQueued (s : State) (n e : Nat) (q : Queued) : State :=
  let x := s.elem n e
  if q.ofSet then s.tryMove n e (if q.cmd = 3 then none else some q.slot) q.lane false q.earlier q.others
  else if elemIsSel e then s.selCmd n e (if q.cmd = 3 then none else some q.slot)
  else if q.cmd = 5 then s.releaseCmd n e
  else if q.cmd = 3 ∧ x.faulted then (s.unlit n e).updElem n e Elem.parked
  else s.moveCmd n e q.cmd q.slot q.lane

/-- QUEUED_MOVE_START: the move under way has ended, and the command that waited is checked (R241). -/
def execQueuedMoveStart (n e : Nat) (s : State) : Res :=
  let x := s.elem n e
  match x.queued with
  | some q =>
    if s.elemOn n e && !x.busy && !(s.engine n).railHolds && !(!elemIsSel e && s.selBusy n e) then
      .next ((s.updElem n e fun x => { x with queued := none }).runQueued n e q)
    else .next s
  | none => .next s

/-- The start and target of a move of a set. -/
def State.moveSpan (s : State) (n : Nat) (m : Move) : Nat × BitVec 4 × BitVec 4 :=
  (m.elem, (s.elem n m.elem).slot, match m.slot with | some k => k.setWidth 4 | none => 15)

/-- What the plan expects on the slot of a receive move (R211). -/
def State.expectMove (s : State) (n : Nat) (m : Move) : State :=
  match m.slot, m.sender with
  | some k, some w => if elemIsRx m.elem then s.updSlotI (skeinOfElem n m.elem) k.toNat fun v => { v with expectCoord := some w } else s
  | _, _ => s

/-- One move of a set, after the moves before it. -/
def State.setMove (s : State) (n : Nat) (m : Move) (earlier : List (Nat × BitVec 4))
    (others : List (Nat × BitVec 4 × BitVec 4)) : State :=
  let x := s.elem n m.elem
  if 176 ≤ m.elem ∨ elemIsSel m.elem then s
  else
    let s := s.expectMove n m
    if x.busy then s.updElem n m.elem fun x => { x with queued := some {
        cmd := if m.slot.isSome then 1 else 3, slot := m.slot.getD 0, lane := m.lane, ofSet := true,
        earlier := earlier, others := others } }
    else s.tryMove n m.elem m.slot m.lane false earlier others

/-- The moves of a set, in set order. -/
def State.moveAll (s : State) (n : Nat) (others : List (Nat × BitVec 4 × BitVec 4)) :
    List Move → List (Nat × BitVec 4) → State
  | [], _ => s
  | m :: ms, earlier =>
    let here := match m.slot with | some k => [(m.elem, k.setWidth 4)] | none => []
    State.moveAll (s.setMove n m earlier others) n others ms (earlier ++ here)

/-- MOVE_SET (R206, R207). The skeins it names are not late yet. -/
def execMoveSet (n : Nat) (ms : List Move) (s : State) : Res :=
  doIf (s.crookOn n && !(s.engine n).railHolds) s
    ((ms.foldl (fun (s : State) m => s.updSkein (skeinOfElem n (min 175 m.elem)) fun k => { k with late := false }) s).moveAll n
      (ms.map (s.moveSpan n)) ms [])

/-! ### Ends and supervision -/

/-- The mean proposal lies within the window of the final set-point (R249); four proposals, so sums are
compared. -/
def handoverOk (ps : List (BitVec 16)) (rf window : Int) : Bool :=
  decide (((ps.foldl (fun a p => a + q15 p) 0 - 4 * rf).natAbs : Int) ≤ 4 * window)

/-- HANDOVER_EVALUATION: after four outer updates the element enters TRACK, or HOLD (R249). -/
def execHandoverEvaluation (n e : Nat) (s : State) : Res :=
  let x := s.elem n e
  let g := s.engine n
  match x.run with
  | none => .next s
  | some r =>
    if s.crookOn n && decide (e < 176 ∧ r.phase = .evaluating ∧ 4 ≤ r.proposals.length) then
      let rf := q15 r.to_
      if handoverOk (r.proposals.take 4) rf g.handover.toNat then
        .next ((s.updElem n e fun x => { x with
          mode := .track, run := none, last := 1, setpoint := r.to_, slipRun := 0, feTimer := 0,
          t := tabSet (fun _ => (0 : BitVec 16)) x.t 0 (ofQ15 (satQ15 (2 * rf - q15 r.lastSet))),
          notch := if r.fromHold then notchStart g.recovery else x.notch }).ringTracks n e)
      else
        .next (((s.ringOut n e 2).updElem n e fun x =>
          { x.held 2 with command := r.to_, setpoint := r.to_, refused := stickAdd x.refused 1 }).raise (.handover n e) 3)
    else .next s

/-- SLIP: the element holds, its lane leaves service, and the Shepherd is told, which parks the element and
starts a SEEK (R248). -/
def execSlip (n e : Nat) (s : State) : Res :=
  let x := s.elem n e
  doIf (s.crookOn n && decide (e < 176 ∧ x.mode = .track ∧ max 1 (s.engine n).slipUpdates.toNat ≤ x.slipRun)) s
    (((s.ringOut n e 2).updElem n e fun x =>
      { x.held 4 with slips := stickAdd x.slips 1, queued := some { cmd := 2, slot := x.slot.setWidth 3, lane := x.lane } }).raise (.slip n e) 3)

/-- FOLLOWING_ERROR_EXPIRY: the element holds and its lane is faulted; the element is faulted, to be parked,
and the spare takes the lane (R251, R212). -/
def execFollowingErrorExpiry (n e : Nat) (s : State) : Res :=
  let x := s.elem n e
  let lane := s.laneOf n e
  if s.crookOn n && decide (e < 176 ∧ (x.mode = .seek ∨ x.mode = .move ∨ x.mode = .track)
      ∧ max 1 x.fePeriods.toNat ≤ x.feTimer.toNat) then
    let s := (s.ringOut n e 7).updElem n e fun x => { x.held 3 with expiries := stickAdd x.expiries 1 }
    let s := s.raise (.expiry n e) 3
    if elemIsSel e then .next s
    else
      let s := (s.markFaulted n e).updElem n e fun x => { x with queued := some { cmd := 3, slot := 0, lane := x.lane } }
      match lane with
      | some j => .next (if x.slot.toNat < 8 then s.takeover (skeinOfElem n e) (elemIsTx e) j (x.slot.setWidth 3) else s)
      | none => .next s
  else .next s

/-- NOTCH_RECOVERY_END (R235). -/
def execNotchRecoveryEnd (n e : Nat) (s : State) : Res :=
  doIf (s.crookOn n && decide (e < 176 ∧ (s.elem n e).notch = 1)) s (s.updElem n e fun x => { x with notch := 0 })

/-- Every element of an engine enters HOLD at its last output; a faulted element and a blanked transmit ring
stay parked (R242, R243). -/
def State.holdEngine (s : State) (n : Nat) (why : BitVec 4) (parkedToo : Bool) : State :=
  let s := (List.range 176).foldl (fun (s : State) e =>
    let x := s.elem n e
    if x.faulted || ((s.engine n).blanked && elemIsTx e) || (!parkedToo && decide (x.mode = .park)) then s
    else (s.ringOut n e 2).updElem n e fun x =>
      let y := x.held why
      { y with adrift := y.adrift || (elemIsSel e && x.run.isSome) }) s
  (List.range 16).foldl (fun (s : State) i => s.updSkein (16 * n + i) fun k => { k with frozen := true }) s

/-- SLOT_MISS: a second one within an hour is a hard fault (R256). -/
def execSlotMiss (n : Nat) (s : State) : Res :=
  let g := s.engine n
  if s.crookOn n && g.run then
    let s := (s.holdEngine n 6 true).updEngine n fun g =>
      { g with slotMiss := true, run := false, slotMissCnt := stickAdd g.slotMissCnt 1, lastMiss := some s.tb }
    let s := s.raise (.slotMiss n) 3
    match g.lastMiss with
    | some t => .next (if s.passed t 360000000000 then s else s.hardFault 4)
    | none => .next s
  else .next s

/-- RAIL_FAULT: after 16 periods out of range, once in an excursion (R234). -/
def execRailFault (n : Nat) (s : State) : Res :=
  let g := s.engine n
  doIf (s.crookOn n && decide (16 ≤ g.railOut) && !g.railActed) s
    (((s.holdEngine n 7 true).updEngine n fun g =>
      { g with railFault := true, railActed := true, railHeld := true }).raise (.rail n) 3)

/-! ### Live values (R237) -/

/-- A live value: the values at 45 °C and 85 °C, with the fraction f between or beyond them, in Q15. -/
def liveValue (cold hot t : BitVec 16) : BitVec 16 :=
  ofQ15 (satQ15 (q15 cold + freeRound ((q15 hot - q15 cold) * (t.toInt - 4500)) 4000))

/-- 16 mW, which no park power exceeds (R197). -/
def parkMax : Int := 10922

/-- The live values of an element at a temperature; a move goes on to the new line, and a selector rests at
the new power of its position (R244, Table 9-9). -/
def Elem.liveAt (x : Elem) (sel : Bool) (t : BitVec 16) : Elem :=
  let both := fun (c h : List (BitVec 16)) => (c.zip h).map (fun p => liveValue p.1 p.2 t)
  let x := { x with livePark := ofQ15 (max 0 (min parkMax (q15 (liveValue x.cold.park x.hot.park t)))),
                    liveLines := both x.cold.lines x.hot.lines, liveRow := both x.cold.row x.hot.row }
  let x := if sel && decide (x.mode = .hold ∧ x.slot.toNat < 2) && !x.adrift then
      let v := nth x.liveLines x.slot.toNat 0
      { x with command := v, setpoint := v }
    else x
  match x.run with
  | some r =>
    let goal : BitVec 16 := match r.phase, r.target with
      | .out, some k => ofQ15 (satQ15 (x.line k.toNat + (if q15 r.from_ ≤ x.line k.toNat then quarterSlot else -quarterSlot)))
      | .back, some k => ofQ15 (x.lockPoint k.toNat)
      | .parking, some k => if sel then nth x.liveLines k.toNat 0 else x.livePark
      | .parking, none => x.livePark
      | _, _ => r.to_
    { x with run := some { r with to_ := goal } }
  | none => x

/-- LIVE_VALUES_UPDATE: every 256 periods, the whole set at once. -/
def execLiveValuesUpdate (n : Nat) (s : State) : Res :=
  let g := s.engine n
  doIf (s.crookOn n && g.crookRunning && g.gaugeOk && decide (g.period.toNat % 256 = 0)) s
    ((List.range 176).foldl (fun (s : State) e => s.updElem n e fun x => x.liveAt (elemIsSel e) (clampTemp g.temp)) s)

/-! ### Coefficients and loop programs (R252, R254, R255) -/

/-- COEFFICIENT_WRITE: the word enters the queue of 16, or waits for room. -/
def execCoefficientWrite (n : Nat) (bank : Bool) (i : Nat) (w : Nat) (word : BitVec 32) (s : State) : Res :=
  doIf (s.crookOn n && decide (w < 32 ∧ i < (if bank then 16 else 176))) s
    (s.updEngine n fun g =>
      if g.coefQ.length < 16 then { g with coefQ := g.coefQ ++ [(bank, i, w, word)] }
      else { g with coefWait := g.coefWait ++ [(bank, i, w, word)] })

/-- PROG_MEM_WRITE: ignored while run is 1. -/
def execProgMemWrite (n : Nat) (w : BitVec 10) (word : BitVec 32) (s : State) : Res :=
  doIf (s.crookOn n && !(s.engine n).run) s
    (s.updEngine n fun g => { g with prog := tabSet (fun _ => (0 : BitVec 32)) g.prog w.toNat word })

/-- The OUT words of a program, by output. -/
def outsOf (ws : List (BitVec 32)) (o : Nat) : Nat := (ws.filter (fun w => decide (lwOp w = 9 ∧ lwImm w % 8 = o))).length
def outTotal (ws : List (BitVec 32)) : Nat := (ws.filter (fun w => decide (lwOp w = 9))).length

/-- Check 3 of R255: every word legal, and each program's outputs. -/
def Engine.progLegal (g : Engine) : Bool :=
  let i := g.program 0
  let o := g.program 1
  let b := g.program 2
  let a := g.program 3
  (i ++ o ++ b ++ a).all lwLegal
    && decide (outsOf i 0 = 1 ∧ outTotal i = 1)
    && decide (outsOf o 1 = 1 ∧ outsOf o 2 = 1 ∧ outTotal o = 2)
    && decide (outsOf b 3 = 1 ∧ outTotal b = 1)
    && decide (outsOf a 4 ≤ 1 ∧ outsOf a 5 ≤ 1 ∧ outTotal a = outsOf a 4 + outsOf a 5)

/-- Lane-steps of phase A and of phase B. -/
def Engine.stepsA (g : Engine) : Nat := 176 * ((g.bound 0).2.toNat + (g.bound 1).2.toNat)
def Engine.stepsB (g : Engine) : Nat := 16 * (g.bound 2).2.toNat + 176 * (g.bound 3).2.toNat

/-- The status of a check of the program set: 1 accepted, or the first failure. -/
def State.progCheck (s : State) (n : Nat) : BitVec 3 :=
  let g := s.engine n
  if !(List.range 176).all (fun e => decide ((s.elem n e).mode = .park ∨ (s.elem n e).mode = .hold)) then 6
  else if !(List.range 4).all (fun p => decide ((g.bound p).1.toNat + (g.bound p).2.toNat ≤ 1024)) then 5
  else if !g.progLegal then 4
  else if 12288 < g.stepsA then 2
  else if 4096 < g.stepsB then 3
  else 1

/-- The check of R255 is made, and the programs start if it passes. -/
def State.startProgs (s : State) (n : Nat) : State :=
  let st := s.progCheck n
  s.updEngine n fun g => { g with progStatus := st, phaseA := BitVec.ofNat 16 g.stepsA, phaseB := BitVec.ofNat 16 g.stepsB,
                                   run := g.run || decide (st = 1), crookRunning := g.crookRunning || decide (st = 1) }

/-- PROG_RUN. -/
def execProgRun (n : Nat) (s : State) : Res := doIf (s.crookOn n) s (s.startProgs n)

/-- PROG_STOP: every element that is not in PARK holds. -/
def execProgStop (n : Nat) (s : State) : Res :=
  doIf (s.crookOn n) s ((s.holdEngine n 10 false).updEngine n fun g => { g with run := false })

/-! ### One period (R225) -/

/-- CROOK_PERIOD. A failure of line counting acts at the boundary. -/
def execCrookPeriod (n : Nat) (smp : CrookSample) (s : State) : Res :=
  if !(s.pwr.transit && decide (n < 4) && (s.engine n).crookRunning) then .next s
  else
    let p := (s.engine n).period.toNat
    let s1 := (s.slotZero n smp).nextCmds n
    let outs := s1.crookA n p (s.engine n).railMv.toNat smp
    let s2 := s1.crookPut n outs
    let s3 := if decide (p % 4 = 0) && (s2.engine n).run then (List.range 16).foldl (fun (s : State) i => s.ringPower n i) s2 else s2
    let s4 := ((s3.crookEnds n outs).crookB n).crookAdapt n p smp
    .next { s4 with free := s4.free + 1 }

end Sys2Proof.Machine
end

