-- ==== Sys2Proof/Machine/Light.lean ====
section
/-! DEFINITION. Light paths: comb sources, reach, quiescing, dark slots, laser fade, source switches and
blanking (08, R200 to R224). -/

namespace Sys2Proof.Machine

/-! ### Comb sources (R199 to R202, R220) -/

/-- The source a skein's current feed comes from (Table 8-4). -/
def State.sourceOf (s : State) (q : Nat) : Nat := (feedOf q (s.skein q).secondary).1

/-- No bus uses the source as its current source (GATE.ECS_STATUS.removable). -/
def State.removable (s : State) (x : Nat) : Bool := (List.range 64).all (fun q => decide (s.sourceOf q ≠ x))

/-- The control byte of page 0 is written: 1 output_enable, 2 safe_request. -/
def State.ecsControl (s : State) (x : Nat) (v : Byte) : State := s.emit (.ecsWrite x 0x02 v)

/-! #### References (R215) -/

/-- Number of a feed: 2q for the primary of skein q, 2q + 1 for its secondary. -/
def feedKey (q : Nat) (secondary : Bool) : Nat := 2 * q + (if secondary then 1 else 0)

/-- The references of a feed. -/
def State.feedRef (s : State) (q : Nat) (secondary : Bool) : FeedRef := tabGet (fun _ => ({} : FeedRef)) s.flash.settings.refs (feedKey q secondary)
def State.setFeedRef (s : State) (q : Nat) (secondary : Bool) (v : FeedRef) : State :=
  let st := s.flash.settings
  { s with flash := { s.flash with settings := { st with refs := tabSet (fun _ => ({} : FeedRef)) st.refs (feedKey q secondary) v } } }

/-- The feeds of a source position. -/
def feedsOf (x : Nat) : List (Nat × Bool) :=
  (List.range 64).flatMap (fun q => [false, true].filterMap (fun b => if (feedOf q b).1 = x then some (q, b) else none))

/-- What has been formed of the lines of a skein is no longer valid: its source or the references are others. -/
def State.lineReset (s : State) (q : Nat) : State :=
  (List.range 8).foldl (fun (s : State) k => s.updSlotI q k fun v =>
    { v with relValid := false, projHours := 255, ringSum := 0, ringN := 0, relSum := 0, relN := 0, relSince := s.tb, means := [] }) s

/-- References of a position are to be taken anew. -/
def State.dropRefs (s : State) (x : Nat) : State :=
  (feedsOf x).foldl (fun (s : State) v =>
    let s := s.setFeedRef v.1 v.2 {}
    if (s.skein v.1).secondary = v.2 then s.lineReset v.1 else s) s

/-- References that are due are taken while the source is at full output: the source's report of the lines of the feeding
fibre, and the feed tap (log entry 37). -/
def State.takeRefs (s : State) (x : Nat) : State :=
  let c := s.ecsOf x
  if !(c.full && c.outputOn) then s
  else (feedsOf x).foldl (fun (s : State) v =>
    let r := s.feedRef v.1 v.2
    let k := s.skein v.1
    let f := (feedOf v.1 v.2).2
    let r := if r.lines.isEmpty then { r with lines := (List.range 8).map (fun i => nth c.power (8 * f + i) 0) } else r
    let r := if r.tap.isNone then { r with tap := some (if v.2 then k.feedSec else k.feedPri) } else r
    if r = s.feedRef v.1 v.2 then s else s.setFeedRef v.1 v.2 r) s

/-- The line of a feed against its reference by the source's own report, 0.01 dB. -/
def State.reportRel (s : State) (q k : Nat) (secondary : Bool) : Int :=
  let f := feedOf q secondary
  (nth (s.ecsOf f.1).power (8 * f.2 + k) 0).toInt - (nth (s.feedRef q secondary).lines k 0).toInt

/-- Line `k` of a feed stands at Scheduled or worse by the source's own report. -/
def State.lineBad (s : State) (q k : Nat) (secondary : Bool) : Bool :=
  let c := s.ecsOf (feedOf q secondary).1
  let b := (nth c.bias k 0).toNat
  let r := (nth c.biasRef k 0).toNat
  (!(s.feedRef q secondary).lines.isEmpty && decide (s.reportRel q k secondary ≤ -200)) || decide (r ≠ 0 ∧ 3 * r ≤ 2 * b)

/-- A feed is fit (R219): it has a reference, its tap is near it, and its source reports no line that is bad. -/
def State.feedFit (s : State) (q : Nat) (secondary : Bool) : Bool :=
  let c := s.ecsOf (feedOf q secondary).1
  let k := s.skein q
  let tap := (if secondary then k.feedSec else k.feedPri).toInt
  (match (s.feedRef q secondary).tap with | some r => decide ((tap - r.toInt).natAbs ≤ 200) | none => false)
    && !c.commsFail && !s.feedLostOf q secondary && (List.range 8).all (fun i => !s.lineBad q i secondary)

/-- ECS_POLL: status and page 1 of a source, once a second; three failed reads in a row set comms_fail. A serial number
other than that of the references drops them, and references that are due are taken. -/
def execEcsPoll (x : Nat) (rep : Option EcsReport) (s : State) : Res :=
  if !(s.pwr.aux && decide (x < 4) && (s.ecsOf x).present) then .next s
  else match rep with
  | none => .next (s.updEcs x fun c => { c with fails := c.fails + 1, commsFail := c.commsFail || decide (2 ≤ c.fails) })
  | some r =>
    let s := (s.emit (.ecsWrite x 0x7F 1)).emit (.ecsWrite x 0x7F 0)
    let s := s.updEcs x fun c => { c with
      fails := 0, ready := r.ready, outputOn := r.outputOn, safe := r.safe, fault := r.fault,
      temperature := r.temperature, serial := r.serial, bias := r.bias, biasRef := r.biasRef, power := r.power }
    let st := s.flash.settings
    let known := tabGet (fun _ => (0 : BitVec 128)) st.ecsSerials x
    let s := if r.serial = known then s
      else ({ s with flash := { s.flash with settings := { st with
        ecsSerials := tabSet (fun _ => (0 : BitVec 128)) st.ecsSerials x r.serial } } } : State).dropRefs x
    .next (s.takeRefs x)

/-- When both feeds of a bus are lost its lanes leave service (R219). -/
def State.darkBus (s : State) (q : Nat) : State :=
  if s.feedLostOf q false && s.feedLostOf q true then
    (List.range 4).foldl (fun (s : State) j => if (s.olane q j).state = 0 then s else s.laneOut q j 2) s
  else s

/-- Fibres of a source are lost: a bus whose current feed is among them has an immediate trigger (Table 8-8). -/
def State.loseFeeds (s : State) (x : Nat) (fibres : BitVec 4) : State :=
  let s := s.updEcs x fun c => { c with feedLost := c.feedLost ||| fibres }
  (feedsOf x).foldl (fun (s : State) v =>
    if fibres.getLsbD (feedOf v.1 v.2).2 then
      (if (s.skein v.1).secondary = v.2 then s.updSkein v.1 fun k => { k with fade := 3 } else s).darkBus v.1
    else s) s

/-- FEED_LOSS: all taps of a fibre have fallen while the source reports full output. The source goes to safe mode, and the
buses on the fibre lose their feed. -/
def execFeedLoss (x : Nat) (f : Nat) (s : State) : Res :=
  doIf (s.pwr.aux && decide (x < 4 ∧ f < 4) && (s.ecsOf x).outputOn) s
    (((s.updEcs x fun c => { c with full := false }).ecsControl x 2).loseFeeds x (1 <<< f))

/-- The fibres of a source are continuous by the taps as they stand: all eight of each read at least −20 dBm (R202). -/
def State.fibresWhole (s : State) (x : Nat) : Bool :=
  (feedsOf x).all (fun v => decide (-2000 ≤ (if v.2 then (s.skein v.1).feedSec else (s.skein v.1).feedPri).toInt))

/-- ECS_SAFE_WRITE: takes effect only while the source is removable (GATE.ECS_CTL). A source let go goes to full output
where its fibres are continuous, and its feeds count again (R202; log entry 37). -/
def execEcsSafeWrite (x : Nat) (v : Bool) (s : State) : Res :=
  let on := !v && s.fibresWhole x
  doIf (s.pwr.aux && decide (x < 4) && s.removable x) s
    ((s.updEcs x fun c => { c with ctlSafe := v, full := on, feedLost := if on then 0 else c.feedLost }).ecsControl x
      (if on then 1 else 2))

/-! ### Reach (R204, R213) -/

/-- The reach table and the mismatches as the settings store holds them; entries it does not hold are not valid. -/
def State.loadReach (s : State) : State :=
  let s1 := (s.slotInfo.map (·.1)).foldl (fun (s : State) key => s.updSlotI (key / 8) (key % 8) fun v =>
    { v with coord := 0, remoteSkein := 0, valid := false }) s
  let s2 := s.flash.settings.reach.foldl (fun (s : State) e =>
    s.updSlotI e.skein.toNat e.slot.toNat fun v => { v with coord := e.coord, remoteSkein := e.remoteSkein, valid := true }) s1
  (List.range 64).foldl (fun (s : State) q =>
    s.updSkein q fun k => { k with mismatch := tabGet (fun _ => (0 : Byte)) s.flash.settings.mismatch q }) s2

/-- What the settings store holds of the light paths, as the transit domain comes up: reach and mismatches, the source and
spares of each skein, the faults of elements (class F). -/
def State.loadOptics (s : State) : State :=
  let s1 := s.loadReach
  let s2 := s1.flash.settings.skeins.foldl (fun (s : State) e =>
    s.updSkein e.1 fun k => { k with secondary := e.2.1, txSpare := e.2.2.1, rxSpare := e.2.2.2 }) s1
  s2.flash.settings.faulted.foldl (fun (s : State) key => s.updElem (key / 176) (key % 176) fun x => { x with faulted := true }) s2

/-- Reach entries that the pod manager writes lift the mismatch of their slots (R213). -/
def Settings.liftMismatch (st : Settings) (es : List ReachEntry) : Settings :=
  { st with mismatch := es.foldl (fun (t : Tab Byte) e =>
      tabSet (fun _ => (0 : Byte)) t e.skein.toNat (tabGet (fun _ => (0 : Byte)) t e.skein.toNat &&& ~~~((1 : Byte) <<< e.slot.toNat))) st.mismatch }

/-- REACH_WRITE: the entry is stored and kept in the settings store; a mismatch of the slot is lifted. -/
def execReachWrite (e : ReachEntry) (s : State) : Res :=
  let q := e.skein.toNat
  let k := e.slot.toNat
  let st := s.flash.settings
  let bit : Byte := 1 <<< k
  let st := { st with
    reach := st.reach.filter (fun (r : ReachEntry) => !(decide (r.skein = e.skein ∧ r.slot = e.slot))) ++ [e] }
  let t : State := { s with flash := { s.flash with settings := st.liftMismatch [e] } }
  doIf (s.shepOn && s.flash.owned) s
    (if s.pwr.transit then
      (t.updSlotI q k fun v => { v with coord := e.coord, remoteSkein := e.remoteSkein, valid := true }).updSkein q
        fun v => { v with mismatch := v.mismatch &&& ~~~bit }
     else t)

/-! ### Quiescing (R209) -/

/-- A strand is taken out of its link under a commanded retrain: the partner hears retrain, and DRAIN with
reason 3 when the link loses its last strand. -/
def State.retrainStrand (s : State) (fd i : Nat) : State :=
  match s.linkOfStrand fd i with
  | none => s
  | some k =>
    let last := decide ((s.link fd k).lanes.length ≤ 1)
    let s := s.updLink fd k fun l => { l with retrainTx := true, retrainAt := s.tb }
    let s := s.sendFlit fd k ftIdle (s.link fd k).nextSeq none
    let s := if last then s.sendOnLink fd k kDrain (drainArg 3) [] else s
    let s := s.updLink fd k fun l =>
      { l with lanes := l.lanes.filter (fun x => decide (x ≠ i)), retrainTx := last,
               state := if last then 3 else l.state, downSince := if last then some s.tb else l.downSince }
    let s := s.freeMember fd k i
    (s.renumber fd k).resend fd ((s.link fd k).home k)

/-- The four strands of the skein leave their links. -/
def State.quiesceSkein (s : State) (q : Nat) : State :=
  let s := (List.range 4).foldl (fun (s : State) j =>
    let o := s.olane q j
    let s := if o.state = 5 then s.retrainStrand (fdOfSkein q) (strandOf q j) else s
    if o.state = 0 ∨ o.state = 7 then s
    else s.updOlane q j fun o => { o with state := 8, txOk := false, rxOk := false }) s
  s.updSkein q fun k => { k with quiesced := true }

/-- QUIESCE. -/
def execQuiesce (q : Nat) (s : State) : Res :=
  doIf (s.shepOn && s.pwr.transit && decide (q < 64)) s (s.quiesceSkein q)

/-- Where a lane stands once its skein is released: it trains when both its rings track. -/
def State.laneStage (s : State) (q j : Nat) : BitVec 4 :=
  let o := s.olane q j
  let tx := (s.elem (q / 16) (elemOfRing q o.txRing.toNat true)).mode
  let rx := (s.elem (q / 16) (elemOfRing q o.rxRing.toNat false)).mode
  if tx = .track ∧ rx = .track then 4 else if tx = .hold ∨ rx = .hold then 2 else 1

/-- A move is under way on a ring of the skein, or waits. -/
def State.movesOn (s : State) (q : Nat) : Bool :=
  (List.range 10).any (fun i =>
    let x := s.elem (q / 16) (11 * (q % 16) + i)
    x.busy || x.queued.isSome)

/-- A quiesced lane returns: to training where both its rings track. -/
def State.releaseLane (s : State) (q j : Nat) : State :=
  if (s.olane q j).state = 8 then
    (if s.laneStage q j = 4 then s.beginTrain q j else s.updOlane q j fun o => { o with state := s.laneStage q j })
  else s

/-- QUIESCE_RELEASE: not before a source switch of the skein and the moves that have joined the quiesce are done
(R224). -/
def execQuiesceRelease (q : Nat) (s : State) : Res :=
  doIf (s.shepOn && s.pwr.transit && decide (q < 64) && (s.skein q).quiesced && !(s.skein q).switching && !s.movesOn q) s
    ((List.range 4).foldl (fun (s : State) j => s.releaseLane q j)
      (s.updSkein q fun k => { k with quiesced := false }))

/-! ### Dark slots (R214) -/

/-- DARK_SLOT_EVENT: 256 periods over the threshold; a new one needs 256 periods below. -/
def execDarkSlotEvent (q : Nat) (s : State) : Res :=
  let k := s.skein q
  let n := stickAdd k.darkCnt 1
  doIf (s.pwr.transit && decide (q < 64 ∧ 256 ≤ k.darkOver) && k.darkArmed) s
    (((s.setSkein q { k with darkCnt := n, darkArmed := false, darkOver := 0, darkUnder := 0 }).raise (.dark q) 2).stuck
      (0x800108 + 0x100000 * (q / 16) + 0x40 * (q % 16)) k.darkCnt n)

/-! ### Fade and source switches (R215 to R220) -/

/-- The level of one line (Table 8-8): its power, whether it is projected to reach −2.0 dB within 24 h, its bias against the
reference. -/
def lineLevel (rel : Int) (soon : Bool) (bias ref : Nat) : Nat :=
  if rel ≤ -300 then 3
  else if rel ≤ -200 ∨ soon ∨ (ref ≠ 0 ∧ 3 * ref ≤ 2 * bias) then 2
  else if rel ≤ -100 ∨ (ref ≠ 0 ∧ 5 * ref ≤ 4 * bias) then 1
  else 0

/-- A transmit ring of the skein holds the slot. -/
def State.slotLit (s : State) (q k : Nat) : Bool :=
  (List.range 5).any (fun r =>
    let x := s.elem (q / 16) (elemOfRing q r true)
    decide (x.slot = BitVec.ofNat 4 k ∧ x.mode ≠ .park))

/-- 1000 log₁₀ of a ratio: the power in 0.01 dB (log entry 21 for its last digit). -/
def centiBel (num den : Nat) : Int :=
  let le := fun n : Nat => if 32768 ≤ n then decide (10 ^ (n - 32768) * pow1000 den ≤ pow1000 num)
    else decide (pow1000 den ≤ pow1000 num * 10 ^ (32768 - n))
  let eq := fun n : Nat => if 32768 ≤ n then decide (10 ^ (n - 32768) * pow1000 den = pow1000 num)
    else decide (pow1000 den = pow1000 num * 10 ^ (32768 - n))
  let n := searchMax le
  (n : Int) - 32768 + (if eq n then 0 else if Config.roundsUp num den then 1 else 0)

/-- The times of R215 and R216 in ticks. -/
def ticksTenSec : Nat := 1000000000
def ticksTenMin : Nat := 60000000000

/-- A value of a line enters its trend: a mean every 10 minutes, of which those of 12 hours stay. -/
def SlotInfo.trend (v : SlotInfo) (now : Word) : SlotInfo :=
  let v := { v with relSum := v.relSum + v.rel.toInt, relN := v.relN + 1 }
  if ticksTenMin ≤ now.toNat - v.relSince.toNat then
    let ms := v.means ++ [v.relSum * 1024 / (v.relN : Int)]
    { v with means := ms.drop (ms.length - 72), relSum := 0, relN := 0, relSince := now }
  else v

/-- The least-squares line through the means, extended to −2.0 dB (R216): the time left as a ratio of hours, none where the
line does not fall. With m means at 0 … m − 1, ten minutes apart, `d` is the common denominator of its two coefficients. -/
def projection (ms : List Int) : Option (Int × Nat) :=
  let n : Int := ms.length
  let sx := n * (n - 1) / 2
  let sxx := (n - 1) * n * (2 * n - 1) / 6
  let sy := ms.foldl (· + ·) 0
  let sxy := (ms.zipIdx.map (fun p => p.1 * (p.2 : Int))).foldl (· + ·) 0
  let slope := n * sxy - sx * sy
  let d := n * sxx - sx * sx
  if slope < 0 ∧ 0 < d then some (sy * sxx - sx * sxy + (n - 1) * slope + 200 * 1024 * d, (6 * (-slope)).toNat) else none

/-- The projection reaches −2.0 dB within 24 h. -/
def projectedSoon (ms : List Int) : Bool := match projection ms with | some (a, b) => decide (a ≤ 24 * (b : Int)) | none => false

/-- OPTn.LINE_PWR.proj_hours. -/
def projHoursOf (ms : List Int) : Byte :=
  match projection ms with
  | some (a, b) => if 254 * (b : Int) < a then 255 else BitVec.ofNat 8 (min 254 (max 0 (freeRound a b)).toNat)
  | none => 255

/-- A lit slot: the mean of a ring's readings over 10 s against its reference, which the first such mean after
commissioning is (log entry 37). -/
def State.litLine (s : State) (q k : Nat) : State :=
  let v := s.slotI q k
  let sec := (s.skein q).secondary
  if v.ringN = 0 ∨ s.passed v.ringSince ticksTenSec = false then s
  else
    let avg := v.ringSum / v.ringN
    let r := s.feedRef q sec
    let old := tabGet (fun _ => (0 : Nat)) r.ring k
    let s := if old = 0 then s.setFeedRef q sec { r with ring := tabSet (fun _ => (0 : Nat)) r.ring k avg } else s
    s.updSlotI q k fun v => { v with
      rel := ofQ15 (satQ15 (if old = 0 then 0 else centiBel avg old)), lit := true, relValid := true, ringSum := 0, ringN := 0 }

/-- An unlit slot: the source's report against its value at commissioning; unknown while the source does not answer. -/
def State.darkLine (s : State) (q k : Nat) : State :=
  let sec := (s.skein q).secondary
  let known := !(s.ecsOf (s.sourceOf q)).commsFail && !(s.feedRef q sec).lines.isEmpty
  s.updSlotI q k fun v => { v with
    rel := if known then ofQ15 (satQ15 (s.reportRel q k sec)) else v.rel, lit := false, relValid := known }

/-- The eight lines of a skein's current source are measured, and their trends go on (R215, R216). -/
def State.fadeLines (s : State) (q : Nat) : State :=
  (List.range 8).foldl (fun (s : State) k =>
    let s := if s.slotLit q k then s.litLine q k else s.darkLine q k
    s.updSlotI q k fun v =>
      let v := if v.relValid then v.trend s.tb else v
      { v with projHours := projHoursOf v.means }) s

/-- The level of a skein: its worst line, or 3 for an error ratio over the limit or a lost feed (Table 8-8). -/
def State.fadeLevel (s : State) (q : Nat) (ber5 : Bool) : Nat :=
  let c := s.ecsOf (s.sourceOf q)
  let worst := ((List.range 8).map (fun k =>
    let i := s.slotI q k
    let bias := if c.commsFail then 0 else (nth c.bias k 0).toNat
    let rel := if i.relValid then i.rel.toInt else 0
    lineLevel rel (i.relValid && projectedSoon i.means) bias (nth c.biasRef k 0).toNat)).foldl max 0
  if ber5 || s.feedLostOf q (s.skein q).secondary then 3 else worst

/-- The level is recorded, a scheduled switch falls due at 2 on the primary, and the fitness of both feeds is
kept (R217 to R220). -/
def State.fadeSet (s : State) (q level : Nat) : State :=
  let fitP := s.feedFit q false
  s.updSkein q fun k => { k with
    fade := BitVec.ofNat 2 level,
    secUnfit := !s.feedFit q true,
    schedSince := if level = 2 ∧ !k.secondary ∧ k.schedSince.isNone then some s.tb
      else if level < 2 ∧ !k.secondary then none else k.schedSince,
    primaryFitSince := if fitP then (if k.primaryFitSince.isSome then k.primaryFitSince else some s.tb) else none }

/-- FADE_EVALUATION (R215, R216); a worse level than before is an event. -/
def execFadeEvaluation (q : Nat) (ber5 : Bool) (s : State) : Res :=
  if !(s.shepOn && s.pwr.transit && decide (q < 64)) then .next s
  else
    let s1 := s.fadeLines q
    let level := s1.fadeLevel q ber5
    let s2 := s1.fadeSet q level
    let s3 := if (s.skein q).fade.toNat < level then s2.raise (.fadeWatch q) 2 else s2
    .next (s3.darkBus q)

/-- A ring of the bus while the selector goes over: one in TRACK holds, to be released; one in a move holds, and resumes
what it was doing: a move to park, a SEEK after one, or its MOVE (Table 8-10). -/
def Elem.heldForSwitch (x : Elem) : Elem :=
  let back := fun (c : BitVec 4) => x.queued.getD { cmd := c, slot := x.slot.setWidth 3, lane := x.lane }
  match x.mode, x.run with
  | .park, _ | .test, _ => x
  | .track, none => { x.held x.last with queued := some (back 5) }
  | _, none => x
  | _, some r =>
    let c : BitVec 4 := if r.phase = MovePhase.parking then (if r.target.isSome then 2 else 3)
      else if r.phase = MovePhase.evaluating ∧ r.fromHold then 5 else 1
    { x.held x.last with queued := some (back c) }

/-- The selector goes over: transmit rings hold and are to be released once it has arrived; a ring in a move
resumes it, and its set is late; the notch is on for the recovery count on the bus (R217, R218, R224, R235). -/
def State.switchSource (s : State) (q : Nat) (secondary : Bool) : State :=
  let n := q / 16
  let g := s.engine n
  let late := (List.range 5).any (fun r => (s.elem n (elemOfRing q r true)).busy)
  let s := (List.range 5).foldl (fun (s : State) r =>
    s.updElem n (elemOfRing q r true) fun x => { x.heldForSwitch with notch := notchStart g.recovery }) s
  let sel := 11 * (q % 16) + 10
  let s := s.updElem n sel fun x => x.startSel (g.limitsOf sel x) (some (if secondary then 1 else 0))
  let k := s.skein q
  let cntS := stickAdd k.switches 1
  let s := ((s.setSkein q { k with secondary := secondary, switching := true, switches := cntS, schedSince := none,
                                   late := k.late || late }).stuck
    (0x800118 + 0x100000 * n + 0x40 * (q % 16)) k.switches cntS).keepSkein q
  let s := s.lineReset q
  let x := s.sourceOf q
  if (s.ecsOf x).ctlSafe then (s.updEcs x fun c => { c with ctlSafe := false, full := true }).ecsControl x 1 else s

/-- A scheduled switch: to a fit feed, with the skein quiesced; onto an unfit secondary there is none. -/
def State.scheduled (s : State) (q : Nat) : State :=
  let to_ := !(s.skein q).secondary
  if s.feedFit q to_ then (s.quiesceSkein q).switchSource q to_
  else if to_ then s.updSkein q fun k => { k with secUnfit := true }
  else s

/-- Modules that a job's hurdles join to this one: parents that its images name, and children that have reported. -/
def State.jobPeers (s : State) (j : Nat) : List Coord :=
  let x := s.job j
  let images := s.images.filter (fun i => decide (i.jobId = x.jobId ∧ i.jobGen = x.jobGen))
  images.flatMap (fun i => i.hurs.filterMap (fun r => if r.parent = 0xFFFF then none else i.peers[r.parent]?))
    ++ x.hurs.flatMap (fun h => h.2.kids)

/-- Links of the skein's lanes in service, by die. -/
def State.skeinLinks (s : State) (q : Nat) : List (Nat × Nat) :=
  (List.range 4).filterMap (fun j =>
    let fd := fdOfSkein q
    if (s.olane q j).state = 5 then (s.linkOfStrand fd (strandOf q j)).map (fun k => (fd, k)) else none)

/-- The job in slot `j` has a lane in service on the skein: a route of it to a module of its hurdles names a link of the
skein's lanes (R217; log entry 37). -/
def State.jobOnSkein (s : State) (j q : Nat) : Bool :=
  (s.job j).valid && (s.jobPeers j).any (fun c => (s.skeinLinks q).any (fun l =>
    match (s.fab l.1).entry (s.job j).jobId c with
    | some e => e.choices.any (fun v => decide (v.1.toNat = l.2))
    | none => false))

/-- The commit hurdle of a job with a lane on the skein holds its members. -/
def State.commitHolds (s : State) (q : Nat) : Bool :=
  (List.range 8).any (fun j => s.jobOnSkein j q && decide ((s.ckptJob j).state = 1 ∨ (s.ckptJob j).state = 2))

/-- A source switch may begin: the skein is not switching, no move is under way (R224), and no rail fault bars the
selector (R234). -/
def State.maySwitch (s : State) (q : Nat) : Bool :=
  s.shepOn && s.pwr.transit && decide (q < 64) && !(s.skein q).switching && !(s.engine (q / 16)).railHolds
    && !(s.engine (q / 16)).blanked

/-- SCHEDULED_SWITCH: at a commit hurdle, or at once where no job uses the skein's lanes; never during moves. -/
def execScheduledSwitch (q : Nat) (s : State) : Res :=
  doIf (s.maySwitch q && (s.skein q).schedSince.isSome && !s.movesOn q
    && (s.commitHolds q || !(List.range 8).any (fun j => s.jobOnSkein j q))) s (s.scheduled q)

/-- SCHEDULED_SWITCH_TIMEOUT: no hurdle in 15 minutes. -/
def execScheduledSwitchTimeout (q : Nat) (s : State) : Res :=
  match (s.skein q).schedSince with
  | some t => doIf (s.maySwitch q && !s.movesOn q && s.passed t 90000000000) s (s.scheduled q)
  | none => .next s

/-- The lanes of the skein stall: retrain on their links, their flits held for replay (R164, R218). -/
def State.stallLanes (s : State) (q : Nat) : State :=
  (List.range 4).foldl (fun (s : State) j =>
    if (s.olane q j).state = 5 then
      let fd := fdOfSkein q
      let s := match s.linkOfStrand fd (strandOf q j) with
        | some k =>
          let s := (s.updLink fd k fun l => { l with retrainTx := true }).sendFlit fd k 0 (s.link fd k).nextSeq none
          s.updLink fd k fun l =>
            { l with lanes := l.lanes.filter (fun x => decide (x ≠ strandOf q j)), state := 3,
                     downSince := if l.downSince.isSome then l.downSince else some s.tb }
        | none => s
      s.updOlane q j fun o => { o with state := 2, txOk := false, rxOk := false }
    else s) s

/-- IMMEDIATE_SWITCH: at most one in 10 minutes; a further trigger raises an event and the skein stays. -/
def execImmediateSwitch (q : Nat) (s : State) : Res :=
  let k := s.skein q
  if !(s.maySwitch q && decide (k.fade = 3)) then .next s
  else
    let recent := match k.lastImmediate with | some t => !s.passed t 60000000000 | none => false
    if recent then .next (s.raise (.switchRefused q) 2)
    else if k.secondary then .next s
    else if !s.feedFit q true then .next (s.updSkein q fun k => { k with secUnfit := true })
    else .next (((s.stallLanes q).switchSource q true).updSkein q fun k => { k with lastImmediate := some s.tb })

/-- PRIMARY_RETURN: a primary fit for 10 minutes is due a scheduled switch (R220). -/
def execPrimaryReturn (q : Nat) (s : State) : Res :=
  let k := s.skein q
  match k.primaryFitSince with
  | some t =>
    doIf (s.shepOn && s.pwr.transit && decide (q < 64) && k.secondary && k.schedSince.isNone && s.passed t 60000000000) s
      (s.updSkein q fun k => { k with schedSince := some s.tb })
  | none => .next s

/-! ### Blank (R222) -/

/-- BLANK. -/
def execBlank (s : State) : Res := doIf s.pwr.aux s s.blankAll

/-- BLANK_LIFT: rings stay parked until they are moved (R243). A penned module stays blanked (R222). -/
def execBlankLift (s : State) : Res :=
  doIf (s.shepOn && !s.shep.penned) s
    ((List.range 4).foldl (fun (s : State) n => if s.pwr.transit then s.updEngine n fun g => { g with blanked := false } else s)
      { s with gate := { s.gate with blank := false } })

end Sys2Proof.Machine
end

