-- ==== Sys2Proof/Machine/Twin.lean ====
section
/-! DEFINITION. The checkpoint coordinator: what a checkpoint covers, commits, versions held for the twin,
exports, restores, and the Shepherd's action on an uncorrectable error (11; 06, R154). -/

namespace Sys2Proof.Machine

/-! ### What a checkpoint covers (R289, R292) -/

/-- A GiB. -/
def gib : Nat := 0x40000000

/-- The default map of a job: the bands of its partitions, with the extensions of unprotected ones, and the
windows of its images. -/
def State.defaultMap (s : State) (job : BitVec 16) : List (Nat × Nat) :=
  let parts := s.jobParts job
  let mine := fun b : Nat => parts.contains (s.band b).owner.toNat
  ((List.range 160).filter mine).map (fun b => (b * bandSize, bandSize))
  ++ ((List.range 160).filter (fun b => mine b && (s.band b).protOff)).map (fun b => (extBase + b * extSize, extSize))
  ++ (s.images.filter (fun i => decide (i.jobId = job))).flatMap (fun i =>
      (i.ctxs.filter (fun c => decide (c.windowLen ≠ 0))).map (fun c => (sliceAddr c.tile + c.windowBase, c.windowLen)))

/-- The regions that job `j` covers. -/
def State.regions (s : State) (j : Nat) : List (Nat × Nat) :=
  match (s.ckptJob j).map with
  | some m => m
  | none => s.defaultMap (s.job j).jobId

/-- Granules of a region. -/
def regionGrans (r : Nat × Nat) : List Nat :=
  if r.2 = 0 then [] else (List.range ((r.1 + r.2 - 1) / granSize - r.1 / granSize + 1)).map (r.1 / granSize + ·)
/-- Granules in a region, counted. -/
def regionCount (r : Nat × Nat) : Nat := if r.2 = 0 then 0 else (r.1 + r.2 - 1) / granSize - r.1 / granSize + 1

/-- Bytes covered. -/
def State.coveredBytes (s : State) (j : Nat) : Nat := ((s.regions j).map regionCount).foldl (· + ·) 0 * granSize
/-- A granule is covered. -/
def covers (rs : List (Nat × Nat)) (g : Nat) : Bool :=
  rs.any (fun r => decide (r.2 ≠ 0 ∧ r.1 / granSize ≤ g ∧ g ≤ (r.1 + r.2 - 1) / granSize))
/-- Granules in ascending address, each once. -/
def ascending (l : List Nat) : List Nat := sortBy id l.eraseDups
/-- Every covered granule, and the covered ones among some. -/
def State.allGrans (s : State) (j : Nat) : List Nat := ascending ((s.regions j).flatMap regionGrans)
def State.someGrans (s : State) (j : Nat) (gs : List Nat) : List Nat := ascending (gs.filter (covers (s.regions j)))

/-! ### Commit (R290, R294, R295) -/

/-- The commit hurdles of a job that every local member has arrived at and that are not reported yet. -/
def State.commitAt (s : State) (j : Nat) : Option (BitVec 12) :=
  ((s.job j).hurs.map (fun e => BitVec.ofNat 12 e.1)).find? (fun h =>
    let recs := s.slotRecs j h
    let x := (s.job j).hur h
    recs.any (fun r => r.2.commit) && hurFull recs x && !x.complete)

/-- The contexts of a job. -/
def State.jobCtxs (s : State) (j : Nat) : List (Nat × Ctx) :=
  s.ctxs.filter (fun e => decide (e.2.jobId = (s.job j).jobId ∧ e.2.jobGen = (s.job j).jobGen ∧ e.2.mode ≠ .empty))

/-- Every channel of the job is empty here: no entry in a buffer, full credit at every outbound endpoint. -/
def State.channelsEmpty (s : State) (j : Nat) : Bool :=
  (s.jobCtxs j).all (fun e => e.2.ins.all (fun i => i.2.lasts.isEmpty && i.2.early.isEmpty)
    && e.2.outs.all (fun o => decide (o.2.credits = o.2.depth)))

/-- A commit fails: the reason is kept, counted and posted, and the hurdle unit is never told ready. -/
def State.failCommit (s : State) (j : Nat) (reason : BitVec 4) : State :=
  let x := s.job j
  (s.updCkptJob j fun c => { c with state := 3, reason := reason, failed := stickAdd c.failed 1, unacked := [],
                                    fullNext := c.fullNext || decide (reason = 5) }).jobEvent x.jobId 8
    [(16, 2, x.jobId.toNat), (18, 1, x.jobGen.toNat), (19, 1, reason.toNat), (24, 8, (x.row + 1).toNat)]

/-- The coordinator reports ready to the hurdle unit (R294). -/
def State.commitReady (s : State) (j : Nat) (byHolder : Bool) : State :=
  let s1 := s.updCkptJob j fun c => { c with state := 2, sealedAt := byHolder, unacked := [] }
  match s.commitAt j with
  | some h => s1.hurAdvance j h
  | none => s1

/-! ### Checkpoint packets (job ID 0; fields: log entry 22) -/

/-- Packets of a granule. -/
def granUnits : Nat := 16
/-- Bytes of each. -/
def ckptUnitSize : Nat := granSize / granUnits

/-- Byte 23: the number of a packet within its granule, or of an acknowledgement how many more granules its run has;
`lead`: a packet about the whole stream; `back`: of a restore; `flag`: of CKPT a restore asked for, of CKPT_ACK that
the row is sealed. -/
def ckptByte (n : Nat) (lead back flag : Bool) : Byte :=
  BitVec.ofNat 8 (n % 16 + (if lead then 16 else 0) + (if back then 32 else 0) + (if flag then 64 else 0))
def ckptUnit (p : Packet) : Nat := p.b23.toNat % 16
def ckptLead (p : Packet) : Bool := p.b23.getLsbD 4
def ckptBack (p : Packet) : Bool := p.b23.getLsbD 5
def ckptFlag (p : Packet) : Bool := p.b23.getLsbD 6

/-- The argument: the row, whether the stream is a full image, and whether the version is found uncorrectable. -/
def ckptArg (row : Word) (full bad : Bool) : Word :=
  BitVec.ofNat 64 (row.toNat % 2 ^ 60 + (if full then 2 ^ 60 else 0) + (if bad then 2 ^ 61 else 0))
def argRow (p : Packet) : Word := (p.arg.setWidth 60).setWidth 64
def argFull (p : Packet) : Bool := p.arg.getLsbD 60
def argBad (p : Packet) : Bool := p.arg.getLsbD 61

/-- The granule that a checkpoint packet names. -/
def ckptGran (p : Packet) : Nat := p.dstTile.toNat + 65536 * p.srcTile.toNat

/-- A checkpoint packet for the twin: job ID 0, deterministic, the job in ident, the granule in the tile fields. -/
def State.ckptPacket (s : State) (kind : Byte) (job : BitVec 16) (gen : Byte) (g : Nat) (b23 : Byte) (arg : Word)
    (data : List Byte) : Packet :=
  { dst := s.twin.coord, src := s.shep.coord, kind := kind, vc := (vcOfKind kind).getD 0, jobId := 0, jobGen := gen, ident := job,
    len := BitVec.ofNat 13 data.length, dstTile := BitVec.ofNat 16 g, srcTile := BitVec.ofNat 16 (g / 65536), b23 := b23,
    arg := arg, payload := data }

/-- The sixteen packets of a granule leave (code of the chapter's commit). -/
def State.sendUnits (s : State) (job : BitVec 16) (gen : Byte) (g : Nat) (back : Bool) (arg : Word) (data : List Byte) : State :=
  (List.range granUnits).foldl (fun (s : State) u =>
    s.sendPacket 0 (s.ckptPacket kCkpt job gen g (ckptByte u false back false) arg (sliceB data (ckptUnitSize * u) ckptUnitSize))) s

/-- The first packet of a stream: how many granules it has, and the job's settings: E, image limit and reserve in
bands. -/
def State.sendLead (s : State) (job : BitVec 16) (gen : Byte) (back : Bool) (arg : Word) (total : Nat) (set : List Byte) : State :=
  s.sendPacket 0 (s.ckptPacket kCkpt job gen 0 (ckptByte 0 true back false) arg (leBytes 4 total ++ set))

/-- The argument of the packets of job `j`'s commit. -/
def State.commitArg (s : State) (j : Nat) (full : Bool) : Word := ckptArg ((s.job j).row + 1) full false

/-- A granule of a commit is streamed to the holder. -/
def State.streamGran (s : State) (j g : Nat) (full : Bool) : State :=
  let x := s.job j
  s.sendUnits x.jobId x.jobGen g false (s.commitArg j full) (s.readBytes (g * granSize) granSize)

/-- The stream of a commit begins. -/
def State.streamLead (s : State) (j : Nat) (full : Bool) : State :=
  let x := s.job j
  let c := s.ckptJob j
  s.sendLead x.jobId x.jobGen false (s.commitArg j full) (c.total.getD 0)
    [c.exportEvery, BitVec.ofNat 8 (c.limitGib / 16), BitVec.ofNat 8 (c.reserveGib / 16)]

/-- The granules of a list are streamed in order. -/
def State.streamAll (s : State) (j : Nat) (full : Bool) (gs : List Nat) : State :=
  gs.foldl (fun (s : State) g => s.streamGran j g full) (s.streamLead j full)

/-- A job in a lower slot has its commit before this one: streaming, or its members all there (R294). -/
def State.earlierCommit (s : State) (j : Nat) : Bool :=
  (List.range 8).any (fun i => decide (i ≠ j ∧ (s.ckptJob i).state = 1)
    || (decide (i < j ∧ (s.ckptJob i).state = 0) && (s.job i).valid && (s.commitAt i).isSome))

/-- The coordinator's commit: the checks in the order of the chapter, then the map is frozen and streamed. -/
def State.commitRun (s : State) (j : Nat) : State :=
  let c := s.ckptJob j
  let grans := if c.fullNext then s.allGrans j else s.someGrans j c.dirty
  if !s.channelsEmpty j then s.failCommit j 1
  else if (s.job j).unfit then s.failCommit j 4
  else if c.limitGib * gib < s.coveredBytes j then s.failCommit j 2
  else
    let frozen := s.setCkptJob j { c with dirty := [], frozen := s.someGrans j c.dirty, unacked := [], sealedAt := false }
    if s.twin.twinless then frozen.commitReady j false
    else if !c.fullNext && decide ((c.reserveGib - c.limitGib) * gib < grans.length * granSize) then s.failCommit j 2
    else match grans.find? (fun g => (s.firstBad (g * granSize) granSize).isSome) with
      | some g => ((s.readRange (g * granSize) granSize 4).1).failCommit j 4
      | none =>
        let s1 := frozen.updCkptJob j fun c => { c with
          state := 1, unacked := grans, total := some grans.length, bytes := BitVec.ofNat 64 (grans.length * granSize) }
        s1.streamAll j c.fullNext grans

/-- COMMIT: every local member has arrived at a commit hurdle; jobs go in slot order. -/
def execCommit (j : Nat) (s : State) : Res :=
  doIf (s.shepOn && s.pwr.transit && decide (j < 8 ∧ (s.ckptJob j).state = 0) && (s.job j).valid && (s.commitAt j).isSome
    && !s.earlierCommit j) s (s.commitRun j)

/-- COMMIT_TIMEOUT (R295). -/
def execCommitTimeout (j : Nat) (s : State) : Res :=
  let c := s.ckptJob j
  doIf (s.shepOn && decide (j < 8 ∧ c.state.toNat ≤ 1) && (s.job j).valid && (s.commitAt j).isSome
    && s.passed c.arrival s.twin.timeout.toNat) s (s.failCommit j 3)

/-! ### Versions held for the twin (R292, R293, R296) -/

/-- The slot of a reserve held for a job of the partner. -/
def State.heldFor (s : State) (job : BitVec 16) : Option Nat :=
  (List.range 8).find? (fun h => decide ((s.heldJob h).jobId = job ∧ job ≠ 0))

/-- Granules of staging: the reserve less the image limit. -/
def Held.staging (x : Held) : Nat := (x.size.toNat - x.limit.toNat) * (bandSize / granSize)

/-! #### Storage export (R296; what the spec leaves open of its form: log entry 59) -/

/-- "GXK-EXPORT". -/
def useExport : List Byte := ascii [0x47, 0x58, 0x4B, 0x2D, 0x45, 0x58, 0x50, 0x4F, 0x52, 0x54]

/-- The export key of an epoch: the XTS pair of 64 bytes, then the tag key of 32 (Table 13-6). -/
def State.exportKey (s : State) (epoch : BitVec 16) : List Byte := s.podKey epoch useExport 96

/-- The tag of an enciphered granule at an offset of the map. -/
def exportTag (key : List Byte) (off : Nat) (c : List Byte) : List Byte := kmac256 (sliceB key 64 32) (leBytes 8 off ++ c) [] 16

/-- Granule `i` of an image in the order of the map: enciphered, with its tag. -/
def exportGran (key : List Byte) (i : Nat) (data : List Byte) : List Byte :=
  let c := xts (sliceB key 0 64) (granSize * i) false (sliceB data 0 granSize)
  c ++ exportTag key (granSize * i) c

/-- The granule that an exported one deciphers to, if its tag holds. -/
def importGran (key : List Byte) (i : Nat) (g : List Byte) : Option (List Byte) :=
  let c := sliceB g 0 granSize
  if decide (g.length = granSize + 16) && decide (g.drop granSize = exportTag key (granSize * i) c) then
    some (xts (sliceB key 0 64) (granSize * i) true c)
  else none

/-- A manifest: job ID, generation, row, coordinate, image size, digest of the plaintext. -/
def exportManifest (job : BitVec 16) (gen : Byte) (row : Word) (c : Coord) (data : List (List Byte)) : List Byte :=
  leBytes 2 job.toNat ++ [gen] ++ leBytes 8 row.toNat ++ leBytes 2 c.toNat ++ leBytes 8 (granSize * data.length)
    ++ leBytes 32 (shake256 data.flatten).toNat

/-- What an export of a held version sends, under the key of the epoch in force. -/
def State.exportOut (s : State) (x : Held) (v : Version) : Output :=
  let data := v.grans.map (fun e => sliceB e.2 0 granSize)
  .exported s.flash.settings.storage (exportManifest x.jobId x.jobGen v.row x.owner data)
    (data.zipIdx.map (fun e => exportGran (s.exportKey s.flash.epoch) e.2 e.1))

/-- The export that a commit brings can begin: a target is named, and the module has the pod's keys. -/
def State.canExport (s : State) : Bool := s.flash.owned && !s.flash.settings.storage.isEmpty

/-- The sealed version becomes committed; every E commits it is exported (R293, R296). -/
def State.promote (s : State) (h : Nat) : State :=
  let x := s.heldJob h
  match x.sealed with
  | none => s
  | some v =>
    let n := x.commits + 1
    let go := decide (x.exportEvery ≠ 0 ∧ n % x.exportEvery.toNat = 0 ∧ x.exportState ≠ 1) && s.canExport
    let pinned := decide (x.exportState = 1)
    let s1 := s.setHeldJob h { x with
      committed := some v, sealed := none, commits := n,
      pinGrans := if pinned then x.pinGrans + x.wrote else 0,
      exportState := if go then 1 else x.exportState, pinned := if go then some v.row else x.pinned }
    if go then s1.emit (s.exportOut x v) else s1

/-- An export that a commit's staging needs is abandoned (R296). -/
def State.abandonExport (s : State) (h : Nat) : State :=
  if (s.heldJob h).exportState = 1 then
    (s.updHeldJob h fun x => { x with exportState := 3, pinned := none, pinGrans := 0 }).raise (.exportAbandoned h) 2
  else s

/-- The slot and the version in progress of a stream: a new row makes the sealed version before it committed,
and a full image is received after everything held is discarded (R292, R293). -/
def State.openVersion (s : State) (p : Packet) : State × Option Nat :=
  let row := argRow p
  let slot := match s.heldFor p.ident with
    | some h => some h
    | none => (List.range 8).find? (fun h => decide ((s.heldJob h).jobId = 0))
  match slot with
  | none => (s, none)
  | some h =>
    let s1 := s.updHeldJob h fun x => { x with owner := p.src, jobId := p.ident, jobGen := p.jobGen }
    let x := s1.heldJob h
    if x.inProgress.any (fun v => decide (v.row = row)) || x.sealed.any (fun v => decide (v.row = row)) then (s1, some h)
    else
      let s2 := if x.sealed.any (fun v => decide (v.row + 1 = row)) then s1.promote h else s1
      (s2.updHeldJob h fun x =>
        if argFull p then { x with committed := none, sealed := none, wrote := 0, inProgress := some { row := row } }
        else { x with wrote := 0, inProgress := some { row := row, grans := (x.committed.map (·.grans)).getD [] } }, some h)

/-- CKPT_ACK goes back: of one granule, or of none (`lead`). -/
def State.ackGran (s : State) (p : Packet) (lead back sealed bad : Bool) : State :=
  s.sendPacket 0 (s.ckptPacket kCkptAck p.ident p.jobGen (ckptGran p) (ckptByte 0 lead back sealed) (ckptArg (argRow p) false bad) [])

/-- The version in progress has every granule of its stream. -/
def Version.whole (v : Version) : Bool := v.total.any (fun n => decide (v.got.length = n))

/-- A version that is whole is sealed. -/
def State.sealVersion (s : State) (h : Nat) : State :=
  s.updHeldJob h fun x => match x.inProgress with
    | some v => if v.whole then { x with sealed := some v, inProgress := none } else x
    | none => x

/-- A packet of a granule joins those that have come. -/
def addPart (parts : Tab (List Byte)) (g u : Nat) (data : List Byte) : Tab (List Byte) :=
  tabSet (fun _ => ([] : List Byte)) parts (granUnits * g + u) (sliceB data 0 ckptUnitSize)
/-- A granule whose packets have all come: its bytes. -/
def wholeGran (parts : Tab (List Byte)) (g : Nat) : Option (List Byte) :=
  let us := (List.range granUnits).map (fun u => tabGet (fun _ => ([] : List Byte)) parts (granUnits * g + u))
  if us.any (·.isEmpty) then none else some us.flatten
/-- The packets of other granules. -/
def otherParts (parts : Tab (List Byte)) (g : Nat) : Tab (List Byte) := parts.filter (fun e => decide (e.1 / granUnits ≠ g))

/-- A packet of a granule reaches the version in progress: a granule that is whole is written once. -/
def Version.take (v : Version) (g u : Nat) (data : List Byte) : Version :=
  if v.got.contains g then v
  else
    let parts := addPart v.parts g u data
    match wholeGran parts g with
    | none => { v with parts := parts }
    | some bytes => { v with
        parts := otherParts parts g, got := v.got ++ [g], grans := tabSet (fun _ => ([] : List Byte)) v.grans g bytes }

/-- Checkpoint traffic keeps the stacks of the memory dies that the twin reserve lies on out of self-refresh in P3
(R131). -/
def State.wakeMemory (s : State) : State :=
  if s.pwr.mode = 3 then
    ((List.range 8).filter (fun n => s.bands.any (fun e => decide (e.1 / 20 = n ∧ e.2.owner = 8)))).foldl (fun (s : State) n =>
      s.updMd n fun m => { m with selfRefresh := false, twinTraffic := some s.tb }) s
  else s

/-- The first packet of the partner's stream: its length, and the job's settings. -/
def State.holdLead (s : State) (h : Nat) (p : Packet) : State :=
  (s.updHeldJob h fun x => { x with
    exportEvery := nth p.payload 4 0, limit := (nth p.payload 5 0).setWidth 7, size := (nth p.payload 6 0).setWidth 7,
    inProgress := x.inProgress.map (fun v => { v with total := some (fieldB p.payload 0 4) }) }).sealVersion h

/-- A packet of a granule of the partner's stream. -/
def State.holdUnit (s : State) (h : Nat) (p : Packet) : State :=
  let g := ckptGran p
  let x := s.heldJob h
  match x.inProgress with
  | none => s
  | some v =>
    let w := v.take g (ckptUnit p) p.payload
    let n := w.got.length
    let s1 := s.setHeldJob h { x with inProgress := some w, wrote := n }
    let s2 := if x.staging < n + x.pinGrans then s1.abandonExport h else s1
    if w.got.contains g then
      let s3 := s2.sealVersion h
      s3.ackGran p false false (s3.heldJob h).inProgress.isNone false
    else s2

/-- A packet of the partner's commit arrives at its holder. -/
def State.holdGran (s : State) (p : Packet) (uncorrectable : Bool) : State :=
  match s.wakeMemory.openVersion p with
  | (s1, none) => s1
  | (s1, some h) =>
    if uncorrectable then (s1.updHeldJob h fun x => { x with inProgress := none, wrote := 0 }).ackGran p true false false true
    else if (s1.heldJob h).sealed.any (fun v => decide (v.row = argRow p)) then s1.ackGran p (ckptLead p) false true false
    else if ckptLead p then
      let s2 := s1.holdLead h p
      if (s2.heldJob h).inProgress.isNone then s2.ackGran p true false true false else s2
    else s1.holdUnit h p

/-! ### Restore (R297, R298) -/

/-- A restore ends: what was written since and before is the version's (Table 11-4). -/
def State.restoreEnd (s : State) (j : Nat) (st : Status) : State :=
  let c := s.ckptJob j
  let s1 := if st = stOk then
      s.setCkptJob j { c with state := 0, dirty := [], frozen := [], needed := [], needAll := false, parts := [], restored := [], total := none, restoreTag := none }
    else s.setCkptJob j { c with restoreTag := none }
  match c.restoreTag with
  | some (r, tag) => s1.complete r tag st
  | none => s1

/-- A granule is written back into memory. -/
def State.putGran (s : State) (g : Nat) (data : List Byte) : State :=
  (s.writeRange (g * granSize) (sliceB data 0 granSize) 4).1

/-- A packet of a restore arrives: a granule that is whole and still needed is written back. -/
def State.restoreGran (s : State) (p : Packet) (uncorrectable : Bool) : State :=
  match s.slotOfJob p.ident with
  | none => s
  | some j =>
    let g := ckptGran p
    let c := s.ckptJob j
    if c.state ≠ 4 then s
    else if uncorrectable || argBad p then s.restoreEnd j stTwinUe
    else if ckptLead p then s.setCkptJob j { c with total := if c.needAll then some (fieldB p.payload 0 4) else none }
    else if c.restored.contains g then s.ackGran p false true false false
    else
      let parts := addPart c.parts g (ckptUnit p) p.payload
      match wholeGran parts g with
      | none => s.setCkptJob j { c with parts := parts }
      | some bytes =>
        let s1 := if c.needAll || c.needed.contains g then s.putGran g bytes else s
        (s1.updCkptJob j fun c => { c with
          parts := otherParts parts g, restored := c.restored ++ [g], needed := c.needed.filter (fun x => decide (x ≠ g)) }).ackGran
            p false true false false

/-- Everything that a restore needs has arrived. -/
def Ckpt.restoredAll (c : Ckpt) : Bool :=
  c.needed.isEmpty && (!c.needAll || c.total.any (fun n => decide (n ≤ c.restored.length)))

/-- A granule of a held version goes to the partner that restores. -/
def State.sendHeld (s : State) (h : Nat) (v : Version) (g : Nat) : State :=
  let x := s.heldJob h
  s.sendUnits x.jobId x.jobGen g true (ckptArg v.row false false) (tabGet (fun _ => ([] : List Byte)) v.grans g)

/-- The first packet of a restore goes to the partner. -/
def State.heldLead (s : State) (h : Nat) (v : Version) : State :=
  let x := s.heldJob h
  s.sendLead x.jobId x.jobGen true (ckptArg v.row false false) v.grans.length []

/-- Granules of a held version go to the partner that restores (Table 11-4). -/
def State.sendRestore (s : State) (h : Nat) (v : Version) (gs : List Nat) : State :=
  gs.foldl (fun (s : State) g => s.sendHeld h v g) (s.heldLead h v)

/-- R293 for a restore row: a sealed version of that row is committed, another is discarded, and so is one in
progress; an export of another version is abandoned (R302). -/
def State.restoreRow (s : State) (h : Nat) (row : Word) (gen : Byte) : State :=
  let s1 := if (s.heldJob h).sealed.any (fun v => decide (v.row = row)) then s.promote h
    else s.updHeldJob h fun x => { x with sealed := none }
  let s2 := s1.updHeldJob h fun x => { x with inProgress := none, wrote := 0, jobGen := gen }
  if (s2.heldJob h).pinned.any (fun r => decide (r ≠ row)) then s2.abandonExport h else s2

/-- A request for a restore arrives at the holder: it names granules, four bytes each, or asks for all. -/
def State.serveRestore (s : State) (p : Packet) : State :=
  match s.heldFor p.ident with
  | none => s
  | some h =>
    let s1 := s.wakeMemory.restoreRow h (argRow p) p.jobGen
    let gs := (List.range (p.payload.length / 4)).map (fun i => fieldB p.payload (4 * i) 4)
    match (s1.heldJob h).committed with
    | some v =>
      if v.row = argRow p then s1.sendRestore h v (if argFull p then v.grans.map (·.1) else gs) else s1
    | none => s1

/-- Lists of at most 1 024 granules: as many as one packet names. -/
def batches : Nat → List Nat → List (List Nat)
  | 0, _ => []
  | n + 1, l => if l.length ≤ 1024 then [l] else l.take 1024 :: batches n (l.drop 1024)

/-- The module asks its holder for what its restore still needs; the request names the restore row, and is sent where
nothing is needed too. -/
def State.askRestore (s : State) (j : Nat) : State :=
  let x := s.job j
  let c := s.ckptJob j
  (if c.needAll then [[]] else batches (c.needed.length + 1) c.needed).foldl (fun (s : State) gs =>
    s.sendPacket 0 (s.ckptPacket kCkpt x.jobId x.jobGen 0 (ckptByte 0 false true true) (ckptArg x.row c.needAll false)
      (gs.flatMap (leBytes 4)))) s

/-- CKPT (R294, R298): from the twin only, under the checks of any packet. -/
def execCkpt (fd : Nat) (p : Packet) (uncorrectable : Bool) (s : State) : Res :=
  rxPacket kCkpt fd p none s fun s =>
    if decide (p.src ≠ s.twin.coord) || !s.pwr.memory then s
    else if ckptBack p then (if ckptFlag p then s.serveRestore p else s.restoreGran p uncorrectable)
    else s.holdGran p uncorrectable

/-- The granules of an acknowledgement: a run from the one named, or none. -/
def ackRun (p : Packet) : List Nat := if ckptLead p then [] else (List.range (ckptUnit p + 1)).map (ckptGran p + ·)

/-- CKPT_ACK (R294): the granules are acknowledged; the seal, and no granule outstanding, make the module ready. An
acknowledgement of a restore asks nothing of the holder. -/
def execCkptAck (fd : Nat) (p : Packet) (s : State) : Res :=
  rxPacket kCkptAck fd p none s fun s =>
    if decide (p.src ≠ s.twin.coord) || ckptBack p then s
    else match s.slotOfJob p.ident with
      | none => s
      | some j =>
        if (s.ckptJob j).state ≠ 1 ∨ argRow p ≠ (s.job j).row + 1 then
          -- word that the copy held is unusable (Table 6-4)
          (if argBad p then s.updCkptJob j fun c => { c with fullNext := true } else s)
        else if argBad p then s.failCommit j 5
        else
          let s1 := s.updCkptJob j fun c => { c with
            unacked := c.unacked.filter (fun g => !(ackRun p).contains g), sealedAt := c.sealedAt || ckptFlag p }
          if (s1.ckptJob j).sealedAt && (s1.ckptJob j).unacked.isEmpty then s1.commitReady j true else s1

/-! ### Dropped checkpoint packets (R172) -/

/-- A granule of a commit that streams is sent again, if it is still outstanding. -/
def State.regran (s : State) (j g : Nat) : State :=
  if (s.ckptJob j).unacked.contains g then s.streamGran j g (s.ckptJob j).fullNext else s

/-- What the module sent of a restore as holder is sent again: the first packet, or granules. -/
def State.reheld (s : State) (p : Packet) (gs : List Nat) : State :=
  match s.heldFor p.ident with
  | none => s
  | some h => match (s.heldJob h).committed with
    | none => s
    | some v => if ckptLead p then s.heldLead h v else gs.foldl (fun (s : State) g => s.sendHeld h v g) s

/-- What the DROP of a checkpoint packet names is sent again: of a CKPT the granule that it carried, of a CKPT_ACK every
granule of its run; `acks`: the dropped packet was a CKPT_ACK. -/
def State.resendGran (s : State) (p : Packet) (acks : Bool) : State :=
  let gs := if acks then ackRun p else [ckptGran p]
  match s.slotOfJob p.ident with
  | none => s.reheld p gs
  | some j =>
    if ckptBack p then
      (if !acks && ckptFlag p then (if (s.ckptJob j).state = 4 then s.askRestore j else s) else s.reheld p gs)
    else if (s.ckptJob j).state ≠ 1 then s
    else if ckptLead p then s.streamLead j (s.ckptJob j).fullNext
    else gs.foldl (fun (s : State) g => s.regran j g) s

/-- COMMIT_NOTICE (R293). -/
def execCommitNotice (p : Packet) (row : Word) (s : State) : Res :=
  match s.heldFor p.ident with
  | some h =>
    doIf (s.shepOn && s.pwr.memory && decide (p.src = s.twin.coord ∧ p.jobGen = (s.heldJob h).jobGen)
      && (s.heldJob h).sealed.any (fun v => decide (v.row = row))) s (s.promote h)
  | none => .next s

/-- EXPORT_COMPLETE (R296). -/
def execExportComplete (h : Nat) (s : State) : Res :=
  let x := s.heldJob h
  doIf (s.shepOn && decide (h < 8 ∧ x.exportState = 1)) s
    (s.setHeldJob h { x with exportState := 2, exportRow := ((x.pinned.getD 0).setWidth 60), pinned := none, pinGrans := 0 })

/-- The module becomes twinless: a row that streams is completed on its own acknowledgement, and a restore
that waits for the holder ends (R287, R295, R298). -/
def State.goTwinless (s : State) : State :=
  let s := { s with twin := { s.twin with twinless := true, handshake := false } }
  (List.range 8).foldl (fun (s : State) j =>
    if (s.ckptJob j).state = 1 then
      (s.updCkptJob j fun c => { c with fullNext := true }).commitReady j false
    else if (s.ckptJob j).state = 4 ∧ ((s.ckptJob j).needAll ∨ (s.ckptJob j).needed ≠ []) then s.restoreEnd j stTwinUe
    else s.updCkptJob j fun c => { c with fullNext := c.fullNext || (s.job j).valid }) s

/-! ### Host commands -/

/-- CHECKPOINT_CONFIG (R292). -/
def execCheckpointConfig (r : Nat) (dmaOk : Bool) (map : List (Nat × Nat)) (s : State) : Res :=
  hostCmd s r 0x06 false fun blk tag s =>
    let job := BitVec.ofNat 16 (fieldB blk 10 2)
    let res := fieldB blk 12 2
    let lim := fieldB blk 14 2
    match s.slotOfJob job with
    | none => s.complete r tag stNoJob
    | some j =>
      if s.jobOfPart r ≠ job then s.complete r tag stNoJob
      else if !dmaOk then s.complete r tag stDmaError
      else
        let s1 := s.updCkptJob j fun c => { c with
          map := if fieldB blk 32 4 = 0 then none else some map, reserveGib := res, limitGib := lim,
          exportEvery := nth blk 16 0 }
        let others := ((List.range 8).filter (fun i => decide (i ≠ j))).map (fun i => if (s.job i).valid then (s.ckptJob i).reserveGib else 0)
        if res % 16 ≠ 0 ∨ 1024 < res ∨ lim % 16 ≠ 0 ∨ res ≤ lim then s.complete r tag stLimit
        else if lim * gib < s1.coveredBytes j then s.complete r tag stLimit
        else if !s.twin.twinless && decide (s.twin.heldGib.toNat < res + others.foldl (· + ·) 0) then s.complete r tag stNoReserve
        else s1.complete r tag stOk

/-- The granules that a restore needs of the holder (Table 11-4): none where this module holds the version
itself, all where it kept no row, else what it changed since the row. -/
def State.restoreNeeds (s : State) (j : Nat) (row : Word) (fresh : Bool) : List Nat × Bool :=
  let c := s.ckptJob j
  if fresh then ([], true)
  else if c.state = 2 ∧ row = (s.job j).row + 1 then (s.someGrans j c.dirty, false)
  else (s.someGrans j (c.dirty ++ c.frozen), false)

/-- A version of the job that this module holds itself, as the spare that takes position 7 does. -/
def State.ownVersion (s : State) (job : BitVec 16) (row : Word) : Option Version :=
  (s.heldFor job).bind (fun h => (s.heldJob h).committed.bind (fun v =>
    if v.row = row ∧ (s.heldJob h).owner = s.shep.coord then some v else none))

/-- TINK (R298): row and generation, then the restore. -/
def execTink (r : Nat) (s : State) : Res :=
  hostCmd s r 0x05 false fun blk tag s =>
    let job := BitVec.ofNat 16 (fieldB blk 10 2)
    let gen := BitVec.ofNat 8 (fieldB blk 12 1)
    let row := BitVec.ofNat 64 (fieldB blk 16 8)
    let old := s.slotOfJob job
    if old.any (fun j => (s.ckptJob j).restoreTag.isSome) then s.complete r tag stBusy
    else match s.takeSlot job gen with
      | (_, none) => s.complete r tag stLimit
      | (s1, some j) =>
        let was := s1.job j
        let s2 := match s1.heldFor job with | some h => s1.restoreRow h row gen | none => s1
        let fresh := decide (old = none)
        let own := if fresh then s2.ownVersion job row else none
        let need := s2.restoreNeeds j row fresh
        let s3 := if fresh then s2 else { s2 with jobHolds := s2.jobHolds ++ [(job, was.jobGen, s.tb)] }
        let s4 : State := { s3 with partJob := tabSet (fun _ => (0xFFFF : BitVec 16)) s3.partJob r job }
        let s5 := (s4.dropEarly j).updJob j fun x => { x with
          jobGen := gen, row := row, hasRow := true, unfit := false, hurs := [], reds := [], lastHur := 0, lastHurGen := 0 }
        let s6 := s5.updCkptJob j fun c => { c with
          state := 4, unacked := [], sealedAt := false, needed := if own.isSome then [] else need.1,
          needAll := own.isNone && need.2, parts := [], restored := [], total := none, restoreTag := some (r, tag) }
        match own with
        | some v => v.grans.foldl (fun (s : State) e => s.putGran e.1 e.2) s6
        | none =>
          if s.twin.twinless then (if need.1.isEmpty && !need.2 then s6 else s6.restoreEnd j stTwinUe)
          else s6.askRestore j

/-- RESTORE_COMPLETE (R298). -/
def execRestoreComplete (j : Nat) (s : State) : Res :=
  let c := s.ckptJob j
  doIf (s.shepOn && decide (j < 8 ∧ c.state = 4) && c.restoredAll && c.restoreTag.isSome) s
    (s.restoreEnd j stOk)

/-- The plaintext of an export for job `j` at its row, if the manifest is the one named, its fields and its digest agree
and every tag holds under an export key that is accepted (R296, R358). -/
def State.importData (s : State) (j : Nat) (named : BitVec 128) (manifest : List Byte) (grans : List (List Byte)) :
    Option (List (List Byte)) :=
  let x := s.job j
  if (shake256 manifest).setWidth 128 ≠ named then none
  else s.epochs.findSome? (fun epoch =>
    let data := grans.zipIdx.map (fun e => importGran (s.exportKey epoch) e.2 e.1)
    let plain := data.filterMap id
    let head := fun g : Byte => exportManifest x.jobId g x.row s.shep.coord plain
    if data.all (·.isSome) && decide (manifest = head (nth manifest 2 0)) && decide (plain.length = (s.allGrans j).length) then some plain
    else none)

/-- CHECKPOINT_IMPORT (R298): `manifest` and `grans` are what was fetched from storage. The holder's version is not this
row, so the next commit is full. -/
def execCheckpointImport (r : Nat) (manifest : List Byte) (grans : List (List Byte)) (s : State) : Res :=
  hostCmd s r 0x07 false fun blk tag s =>
    let job := BitVec.ofNat 16 (fieldB blk 10 2)
    let row := BitVec.ofNat 64 (fieldB blk 16 8)
    match s.slotOfJob job with
    | none => s.complete r tag stNoJob
    | some j =>
      if s.jobOfPart r ≠ job then s.complete r tag stNoJob
      else if (s.ckptJob j).restoreTag.isSome then s.complete r tag stBusy
      else if (s.job j).row ≠ row then s.complete r tag stRowMismatch
      else match s.importData j (BitVec.ofNat 128 (fieldB blk 24 16)) manifest grans with
      | none => s.complete r tag stAuth
      | some plain =>
        let s1 := ((s.allGrans j).zip plain).foldl (fun (s : State) e => s.putGran e.1 e.2) s
        (s1.updCkptJob j fun c => { c with state := 0, dirty := [], frozen := [], needed := [], needAll := false, fullNext := true }).complete
          r tag stOk

/-! ### Uncorrectable errors (R153, R154, Table 6-4) -/

/-- UE_REPORT: the Shepherd takes the oldest report and acts by the owner of the location. -/
def execUeReport (s : State) : Res :=
  match s.ueReports with
  | [] => .next s
  | u :: us =>
    if !s.shepOn then .next s
    else
      let s1 : State := { s with ueReports := us }
      let s2 := s1.raise (.ue u.addr) 3
      let detail := [(16, 8, u.addr.toNat), (24, 1, u.source.toNat), (25, 1, u.owner.toNat)]
      if u.owner.toNat < 8 then
        let s3 := match s.slotOfPart u.owner.toNat with
          | some j => s2.updJob j fun x => { x with unfit := true }
          | none => s2
        .next (s3.event u.owner.toNat 5 detail)
      else if u.owner = 8 then
        -- the copies held are unusable, and the partner's Shepherd is told
        .next ((List.range 8).foldl (fun (s : State) h =>
          let x := s.heldJob h
          if x.jobId = 0 then s
          else
            let row := match x.inProgress with | some v => v.row | none => 0
            (s.setHeldJob h { x with committed := none, sealed := none, inProgress := none, wrote := 0 }).sendPacket 0
              (s.ckptPacket kCkptAck x.jobId x.jobGen 0 (ckptByte 0 true false false) (ckptArg row false true) [])) s2)
      else .next s2

end Sys2Proof.Machine
end

