-- ==== Sys2Proof/Machine/Reset.lean ====
section
/-! DEFINITION. Power domains going off, what each loses, and the start of a run of cast-on (01, R12 to R18;
12, R304 to R306). -/

namespace Sys2Proof.Machine

/-! ### What a domain loses (R13, R14) -/

/-- Island `p` goes off: its dies' registers return to Reset, its contexts, instruction stores and slices are
gone, and with them the images of partition `p`. -/
def State.islandOff (s : State) (p : Nat) : State :=
  let lo := sliceAddr (1200 * p)
  let hi := sliceAddr (1200 * (p + 1))
  let s1 := { s with
    pwr := { s.pwr with islands := s.pwr.islands &&& ~~~((1 : BitVec 8) <<< p) },
    dies := s.dies.filter (fun e => decide (e.1 / 5 ≠ p)),
    tiles := s.tiles.filter (fun e => decide (partOfTile e.1 ≠ p)),
    ctxs := s.ctxs.filter (fun e => decide (partOfTile (e.1 / 4) ≠ p)),
    istore := s.istore.filter (fun e => decide (partOfTile (e.1 / 32768) ≠ p)),
    images := s.images.filter (fun i => decide (i.part ≠ p)),
    faultRecs := s.faultRecs.filter (fun f => decide (partOfTile f.tile ≠ p)),
    partJob := tabSet (fun _ => (0xFFFF : BitVec 16)) s.partJob p 0xFFFF,
    mem := s.mem.filter (fun e => decide (e.1 < lo ∨ hi ≤ e.1)),
    bad := s.bad.filter (fun e => decide (e.1 < lo ∨ hi ≤ e.1)),
    upsets := s.upsets.filter (fun e => decide (e.1 < lo ∨ hi ≤ e.1)) }
  s1.freeSlots

/-- The transit domain goes off: fabric dies, links, engines, Crooks, and the job slots and hurdle unit of
FAB0. A job whose slot is gone has no commit here. -/
def State.transitOff (s : State) : State :=
  { s with
    pwr := { s.pwr with transit := false },
    fabs := [], links := [], engines := [], skeins := [], olanes := [], slotInfo := [], elems := [], jobs := [],
    jobHolds := [], hurTimeout := 100000000, tests := s.tests.filter (fun e => decide (640 ≤ e.1)),
    twin := { s.twin with
      jobs := (s.twin.jobs.map (fun e => (e.1, e.2.kept))).filter (fun e => decide (e.2 ≠ ({} : Ckpt))) } }

/-- Where the scrubber of a memory die stands, which outlasts the domain: a pass is resumed at its line (R137). -/
def MemDie.place (m : MemDie) : MemDie :=
  { scrubLine := m.scrubLine, passInForce := m.passInForce,
    stk := (m.stk.map (fun e => (e.1, ({ passCorr := e.2.passCorr } : Stack)))).filter (fun e => decide (e.2 ≠ ({} : Stack))) }

/-- The memory domain goes off: LPDDR5X contents are lost, the reserve held for the twin among them, and
writes that wait for their line (R151) with them. -/
def State.memoryOff (s : State) : State :=
  { s with
    pwr := { s.pwr with memory := false },
    mem := s.mem.filter (fun e => decide (sliceBase ≤ e.1)), bad := s.bad.filter (fun e => decide (sliceBase ≤ e.1)),
    upsets := s.upsets.filter (fun e => decide (sliceBase ≤ e.1)), lineKeys := [],
    mds := (s.mds.map (fun e => (e.1, e.2.place))).filter (fun e => decide (e.2 ≠ ({} : MemDie))), ueReports := [], gate := { s.gate with merge := [] },
    twin := { s.twin with held := [], handshake := false } }

/-- Every main domain goes off, the partitions first (R13). The run that made the module ready is over with it:
ready and CAST.PLAN.valid are cleared (log entry 45). -/
def State.mainOff (s : State) : State :=
  let s := (List.range 8).foldl State.islandOff s
  let s := s.transitOff.memoryOff
  { s with cast := { s.cast with ready := false, coordValid := false } }

/-- Every comb source is written into safe mode (R223). -/
def State.sourcesSafe (s : State) : State :=
  [0, 1, 2, 3].foldl (fun (s : State) x =>
    if (s.ecsOf x).present then (s.updEcs x fun c => { c with full := false }).ecsControl x 2 else s) s

/-! ### Runs of cast-on (Table 12-2) -/

/-- The stages of a run, in order. -/
def CastRun.stages : CastRun → List Nat
  | .full => [0, 1, 2, 3, 4, 5, 6, 7, 8, 9]
  | .main => [2, 3, 4, 5, 6, 7, 8, 9]
  | .island _ => [2, 3, 5]
  | .joining => [8, 9]
  | .paddock => [2, 3, 4, 5, 6, 7]
  | .refclk => [4, 6]

/-- The stage after `n` in a run. -/
def CastRun.next (r : CastRun) (n : Nat) : Option Nat := r.stages.find? (fun m => decide (n < m))

/-- A run that leaves the rest of the module in service. -/
def CastRun.partial_ : CastRun → Bool
  | .island _ => true
  | .refclk => true
  | _ => false

/-- A run of cast-on starts at its stage `first`: the records of its stages are cleared (R305). -/
def State.runFrom (s : State) (r : CastRun) (first : Nat) : State :=
  let st := r.stages.filter (fun m => decide (first ≤ m))
  { s with
    cast := { s.cast with
      run := r, running := true, begun := true, stage := BitVec.ofNat 4 first, stageStart := s.tb, firstTry := s.tb,
      held := false, hold := 0, degraded := false, ready := r.partial_ && s.cast.ready,
      coordValid := r.partial_ && s.cast.coordValid, planWait := false, refclkRestart := false,
      fastCnt := if r.partial_ then s.cast.fastCnt else [],
      reports := st.foldl (fun t m => tabSet (fun _ => {}) t m {}) s.cast.reports } }

/-- A run starts at its first stage, under the next run number (CAST.INFO.run). -/
def State.startRun (s : State) (r : CastRun) : State :=
  let s1 := { s with cast := { s.cast with retried := false, redivided := false, fullRun := s.flash.fullNext }, flash := { s.flash with run := s.flash.run + 1 } }
  s1.runFrom r (r.stages.headD 0)

/-- An island is to come up: at once, or after the run that is under way (Table 12-11). -/
def State.queueIsland (s : State) (p : Nat) (cmd : Option (Nat × BitVec 16)) : State :=
  if s.cast.running then
    { s with cast := { s.cast with islandQ := sortBy (·.1) (s.cast.islandQ ++ [(p, cmd)]) } }
  else { s with cast := { s.cast with islandCmd := cmd } }.startRun (.island p)

/-- Commands in flight on the partition rings end with ABORTED when main power goes (R394); `keep` on ring 8
is not touched. What cast-on still owed them is gone. -/
def State.abortMain (s : State) : State :=
  { s.abortPartitions with cast := { s.cast with islandQ := [], islandCmd := none } }

end Sys2Proof.Machine
end

