-- ==== Sys2Proof/Machine/Flock.lean ====
section
/-! DEFINITION. The flock: messages heard, election, verdicts, pens, admissions, expulsion, accusations and
directed probes (10, R260 to R285). -/

namespace Sys2Proof.Machine

/-! ### Times of chapter 10, in ticks -/

def ticks10ms : Nat := 1000000
def ticks20ms : Nat := 2000000
def ticks30ms : Nat := 3000000
def ticks200ms : Nat := 20000000
def ticks10s : Nat := 1000000000
def ticksMin : Nat := 6000000000
def ticksHour : Nat := 360000000000

/-! ### Members and eligibility (R265) -/

/-- The observation of a coordinate of the own group, and its update. -/
def State.obsC (s : State) (c : Coord) : Obs := s.obsOf (posOf c)
def State.updObsC (s : State) (c : Coord) (f : Obs → Obs) : State :=
  if s.inGroup c then s.updObs (posOf c) f else s

/-- This Shepherd is eligible. -/
def State.selfEligible (s : State) : Bool :=
  s.shep.member && !s.shep.penned && !s.shep.paddock && !s.shep.hard
    && decide (s.shep.expelThr.toNat ≤ s.shep.score.toNat)

/-- Member `m` has been heard by gossip within 30 ms and is eligible. -/
def State.eligible (s : State) (m : Nat) : Bool :=
  let o := s.obsOf m
  o.valid && !s.passed o.gossipAt ticks30ms && !o.penned && !o.paddock && !o.dead && !o.d
    && decide (s.shep.expelThr.toNat ≤ o.score.toNat)

/-- The lowest eligible position, the own among them. -/
def State.lowest (s : State) : Option Nat :=
  (List.range 16).find? (fun m => if m = posOf s.shep.coord then s.selfEligible else s.eligible m)

/-- A Shepherd holds the lowest eligible member as its bellwether, and one that has the role gives it up to a lower one, or
where it is eligible no more; its reports pass with its next GOSSIP. The lowest takes the role by its claim (R265,
R266). -/
def State.learnBell (s : State) : State :=
  if s.lowest = some (posOf s.shep.coord) then s
  else { s with shep := { s.shep with
    bellwether := false, passReports := s.shep.passReports || s.shep.bellwether,
    bell := (s.lowest.map (coordAt s.ownGroup)).getD s.shep.bell, bellValid := s.lowest.isSome } }

/-! ### Receiving (R193, R378) -/

/-- One drop by the first check failed: length and CRC, version and type, pod, tag, repeat, jump. -/
def State.flockDrop (s : State) (i : Nat) : State :=
  let x := tabGet (fun _ => (0 : BitVec 32)) s.gate.flockDrop i
  { s with gate := { s.gate with flockDrop := tabSet (fun _ => (0 : BitVec 32)) s.gate.flockDrop i (stickAdd x 1) } }

/-- The alive state of a sender. -/
def State.sender (s : State) (key : Nat) : Alive := tabGet (fun _ => {}) s.shep.senders key

/-- A withdrawn request ends at the bellwether (R276): the subject's score has come back. -/
def State.dropRequest (s : State) (c : Coord) : State :=
  if s.shep.requests.any (fun r => decide (r.subject = c ∧ r.cause = 1)) then
    { s with shep := { s.shep with
        requests := s.shep.requests.filter (fun r => !decide (r.subject = c ∧ r.cause = 1)),
        exState := if s.shep.exSubject = c then 5 else s.shep.exState } }
  else s

/-- What the frame of an accepted message tells of a member of the group. -/
def State.noteSender (s : State) (h : FlockHdr) : State :=
  let s1 := s.updObsC h.sender fun o => { o with
    alive := h.alive, score := h.score, heard := s.tb, valid := o.valid || s.shep.member, term := h.term,
    penned := h.penned, paddock := h.paddock, spare := h.spare }
  if s.shep.expelThr.toNat + 8 ≤ h.score.toNat then s1.dropRequest h.sender else s1

/-- The way that a message comes by is open: the service port is enabled, or the fabric is up (R192). -/
def State.flockOpen (s : State) (h : FlockHdr) : Bool :=
  match h.via.toNat with
  | 0 => s.gate.port0En
  | 1 => s.gate.port1En
  | _ => s.gate.fabricEn && s.pwr.transit

/-- A FLOCK packet of a fenced source is dropped by the fabric die (R189). -/
def State.flockFenced (s : State) (h : FlockHdr) : Bool := decide (2 ≤ h.via.toNat) && (s.fab (h.via.toNat - 2)).fenced h.sender

/-- A flock message is checked in the order of R193; one that passes has the effect `f`. A Shepherd without
an owner's keys hears none (R323). -/
def flockRx (s : State) (h : FlockHdr) (b : FlockBody) (key : Nat) (f : State → State) : Res :=
  if !s.shepOn || !s.flash.owned || !s.flockOpen h then .next s
  else if s.flockFenced h then .next (s.countDrop (h.via.toNat - 2) dFenced)
  else if !flockWhole h b then .next (s.flockDrop 0)
  else if h.version ≠ 1 ∨ flockTypeKnown h.type = false then .next (s.flockDrop 1)
  else if s.flash.settings.plan.map (·.pod) ≠ some h.pod then .next (s.flockDrop 2)
  else if !s.flockSigned h b then .next (s.flockDrop 3)
  else if h.type ≠ b.type then .next s
  else
    let r := (s.sender key).hear h.alive
    let s1 := { s with shep := { s.shep with senders := tabSet (fun _ => {}) s.shep.senders key r.1 } }
    match r.2 with
    | .again => .next (s1.flockDrop 4)
    | .jump => .next (s1.flockDrop 5)
    | .accepted _ => .next (f (s1.noteSender h)).learnBell

/-! ### The budget and requests (R277 to R280) -/

/-- The digest of the unit at a coordinate, by the plan and the spares admitted since. -/
def State.digestOf (s : State) (c : Coord) : Option Word :=
  match s.flash.settings.standins.find? (fun x => decide (x.2 = c)) with
  | some x => some x.1
  | none => s.flash.settings.plan.bind (fun p => (p.digests.find? (fun d => decide (d.2 = c))).map (·.1))

/-- The spare of a group stands under another coordinate, and no unit has returned to take its place (R278). -/
def State.spareOut (s : State) (g : Nat) : Bool :=
  match s.digestOf (coordAt g 15) with
  | some d => s.flash.settings.standins.any (fun x => decide (x.1 = d ∧ x.2 ≠ coordAt g 15))
  | none => false

/-- The spare of the own group is free to be admitted: it stands under its own coordinate, has been heard, and is neither
penned nor declared dead (R278, R284; log entry 58). -/
def State.spareFree (s : State) : Bool :=
  let o := s.obsOf 15
  !s.spareOut s.ownGroup && (if posOf s.shep.coord = 15 then !s.shep.penned && !s.shep.hard
    else o.valid && !o.penned && !o.paddock && !o.dead && !o.d)

/-- Slots in use. -/
def State.slotsUsed (s : State) : Nat := ((List.range 8).filter (fun i => decide (s.slotAt i ≠ 0))).length
/-- A free slot within the allowance; used slots above a lowered allowance stand to expiry (Table 10-8). -/
def State.freeBudget (s : State) : Option Nat :=
  if s.slotsUsed < s.shep.allowed.toNat then (List.range 8).find? (fun i => decide (i < s.shep.allowed.toNat ∧ s.slotAt i = 0))
  else none
/-- When a slot taken now frees. -/
def State.slotExpiry (s : State) : Word := s.tb + BitVec.ofNat 64 (s.shep.windowHours.toNat * ticksHour)

/-- Reasons against a request (R278). -/
def State.expelReasons (s : State) : BitVec 4 :=
  (if s.freeBudget.isSome then 0 else 1) ||| (if s.spareFree then 0 else 2)
    ||| (if s.shep.floor.toNat ≤ s.shep.reserve.toNat then 0 else 4) ||| (if s.shep.trusted then 0 else 8)

/-- A bind-off begins (R300, step 1). -/
def State.beginBindOff (s : State) (cmd : Option (Nat × BitVec 16)) : State :=
  let s1 := { s with twin := { s.twin with
    bindOff := some (cmd, s.tb), jobs := s.twin.jobs.map (fun (j : Nat × Ckpt) => (j.1, { j.2 with bound := false })) } }
  s1.selfReport 5 0

/-- An order is entered: the slot is used, and the subject begins its bind-off (R279, R280). -/
def State.enterOrder (s : State) (c : Coord) (slot : Nat) : State :=
  let s1 := s.setBudget slot s.slotExpiry
  let s2 := { s1 with shep := { s1.shep with orders := s1.shep.orders ++ [(c, slot, s.tb)] } }
  if s.isMine c && s.twin.bindOff.isNone then
    { s2 with shep := { s2.shep with expelOpen := false } }.beginBindOff none
  else s2

/-- The bellwether evaluates a request: an order stamped with its slot, or a refusal with every reason. -/
def State.evaluate (s : State) (r : ExpelReq) : State :=
  let why := s.expelReasons
  let s1 := { s with shep := { s.shep with
    exSubject := r.subject, exScore := r.score, exReasons := why, exState := if why = 0 then 3 else 2,
    requests := s.shep.requests.filter (fun (x : ExpelReq) => decide (x.subject ≠ r.subject))
      ++ (if why = 0 then [] else [{ r with lastEval := s.tb }]) } }
  match (if why = 0 then s.freeBudget else none) with
  | some i =>
    let left := s.shep.allowed.toNat - s.slotsUsed - 1
    (s1.flock (.expelOrder r.subject (BitVec.ofNat 8 i) (BitVec.ofNat 8 left))).enterOrder r.subject i
  | none =>
    let s2 := if s1.isMine r.subject then { s1 with shep := { s1.shep with watch := true } } else s1
    s2.flock (.expelRefused r.subject why)

/-- Every open request is evaluated again. -/
def State.evaluateAll (s : State) : State :=
  if s.shep.bellwether then s.shep.requests.foldl State.evaluate s else s

/-! ### Spares and admissions (R284, R287) -/

/-- The plan's pair of a position: the coordinate of the twin in the same group (R286). -/
def State.twinOf (s : State) (c : Coord) : Option Coord :=
  (s.flash.settings.plan.bind (fun p => p.twins.findSome? (fun t =>
    if t.1.toNat = posOf c then some t.2.toNat else if t.2.toNat = posOf c then some t.1.toNat else none))).map
    (coordAt (groupOf c))

/-- The plan's spare variant for a coordinate. -/
def State.variantOf (s : State) (c : Coord) : Option Variant :=
  s.flash.settings.plan.bind (fun p =>
    p.variants.find? (fun v => decide (v.group.toNat = groupOf c ∧ v.pos.toNat = posOf c)))

/-- A base route entry is written (R175). -/
def State.setRoute (s : State) (fd : Nat) (c : Coord) (e : RouteEntry) : State :=
  s.updFab fd fun f => { f with routes := tabSet (fun _ => {}) f.routes c.toNat e }

/-- The route entries of a coordinate's variant are written. -/
def State.variantRoutes (s : State) (c : Coord) : State :=
  match s.variantOf c with
  | none => s
  | some v => if s.pwr.transit then v.routes.foldl (fun (s : State) r => s.setRoute r.1.toNat r.2.1 r.2.2) s else s

/-- The yarn moves of a coordinate's variant are issued. -/
def State.variantMoves (s : State) (c : Coord) : State :=
  match s.variantOf c with
  | none => s
  | some v =>
    if !s.pwr.transit then s
    else (List.range 4).foldl (fun (s : State) n =>
        let ms := (v.moves.filter (fun m => decide (m.1 = n))).map (·.2)
        if (s.engine n).railHolds then s else s.moveAll n (ms.map (s.moveSpan n)) ms []) s

/-- The variant of a coordinate is applied; a module whose transit domain is off applies it at its CO8. -/
def State.applyVariant (s : State) (c : Coord) : State := (s.variantRoutes c).variantMoves c

/-- Coordinates that spares have taken, the latest last. -/
def State.takenOver (s : State) : List Coord := (s.flash.settings.standins.map (·.2)).reverse.filter (fun c => decide (posOf c ≠ 15))

/-- Every job's next commit sends a full image. -/
def State.allFull (s : State) : State :=
  (List.range 8).foldl (fun (s : State) j =>
    if (s.job j).valid then s.updCkptJob j fun c => { c with fullNext := true } else s) s

/-- The twin relation after an admission (R287): it belongs to coordinates. -/
def State.twinAfter (s : State) (c prev : Coord) : State :=
  if !s.twin.paired then s
  else if s.twin.coord = c then
    { s.allFull with twin := { s.allFull.twin with twinless := false, penned := false, handshake := false } }
  else if prev ≠ 0x7FF ∧ s.twin.coord = prev then s.goTwinless
  else s

/-- Blank is lifted: rings stay parked until they are moved (R222, R243). -/
def State.unblank (s : State) : State :=
  let s := { s with gate := { s.gate with blank := false } }
  if s.pwr.transit then (List.range 4).foldl (fun (s : State) n => s.updEngine n fun g => { g with blanked := false }) s else s

/-- The spare role, which the settings store keeps (SHEP.STATUS.spare, class F). -/
def State.setSpare (s : State) (on : Bool) : State :=
  { s with shep := { s.shep with spare := on }, flash := { s.flash with settings := { s.flash.settings with spare := on } } }

/-- This module takes a coordinate as the spare: its twin is the coordinate's, and CO8 and CO9 run. Its membership of a
group ends, and with it the trust in its counter (R277). -/
def State.takeCoord (s : State) (c : Coord) : State :=
  let s := s.unblank.setSpare (decide (posOf c = 15))
  { s with
    shep := { s.shep with coord := c, hasCoord := true, penned := false, paddock := false, padGroup := none,
                          member := false, trusted := false, clean := 0, selfFail := false, bellwether := false },
    twin := { s.twin with coord := (s.twinOf c).getD 0x7FF, paired := (s.twinOf c).isSome, handshake := false,
                          held := keptFor c ((s.twinOf c).getD 0x7FF) s.twin.held } }.startRun .joining

/-- ADMIT as every Shepherd applies it: the variant, the spare's state, the twin relation, the fence that waits
for READY; the unit named takes the coordinate, after CO9 where it is in CO8 or CO9 (Table 12-11). -/
def State.applyAdmit (s : State) (c prev : Coord) (digest : Word) : State :=
  let s1 := s.applyVariant c
  let s2 := { s1 with shep := { s1.shep with
    admits := s1.shep.admits.filter (fun (a : Admission) => decide (a.coord ≠ c)) ++ [({ coord := c, prev := prev, digest := digest } : Admission)],
    admitted := s1.shep.admitted || (s1.shep.paddock && decide (c = s1.shep.padCoord)) } }
  let s2 := { s2 with flash := { s2.flash with settings := { s2.flash.settings with
    standins := (digest, c) :: s2.flash.settings.standins.filter (fun (x : Word × Coord) => decide (x.1 ≠ digest)) } } }
  let s3 := (((s2.updObsC prev fun _ => {}).updObsC c fun o => { gossipAt := o.gossipAt, unsub := [] }).twinAfter c prev).evaluateAll
  let me := decide (digest = s.ownDigest) && (if prev = 0x7FF then s.shep.paddock else s.shep.hasCoord && decide (s.shep.coord = prev))
  if !me then s3
  else if s.cast.running ∧ (s.cast.stage = 8 ∨ s.cast.stage = 9) then
    { s3 with cast := { s3.cast with admitLater := some c } }
  else s3.takeCoord c

/-- The bellwether admits the group spare under a coordinate of its group, if it is free (R284). -/
def State.sendAdmit (s : State) (c : Coord) : State :=
  let sp := coordAt (groupOf c) 15
  match s.digestOf sp with
  | some d => if s.spareFree && decide (posOf c ≠ 15) then (s.flock (.admission c sp d)).applyAdmit c sp d else s
  | none => s

/-! ### Pens and verdicts (R267, R268, R271) -/

/-- PEN as every Shepherd applies it (R268): fences; the subject's own Shepherd blanks it and stops its chains;
its twin goes on alone (R295). -/
def State.applyPen (s : State) (c : Coord) : State :=
  let s1 := (s.fenceModule c).updObsC c fun o => { o with penned := true }
  let s2 := { s1 with shep := { s1.shep with
    penHold := tabSet (fun _ => (0 : Word)) s1.shep.penHold c.toNat s.tb,
    requests := s1.shep.requests.filter (fun r => decide (r.subject ≠ c)),
    orders := s1.shep.orders.filter (fun o => decide (o.1 ≠ c)) } }
  let s3 := if s2.twin.paired && decide (s2.twin.coord = c) then
      { s2 with twin := { s2.twin with penned := true } }.goTwinless else s2
  if s.isMine c then
    ({ s3.blankAll.stopAll with shep := { s3.blankAll.stopAll.shep with penned := true } } : State).learnBell
  else s3

/-- The jobs of this module that reach the subject. -/
def State.jobsWith (s : State) (c : Coord) : List (BitVec 16) :=
  ((s.images.filter (fun i => i.peers.contains c || s.isMine c)).map (·.jobId)).eraseDups

/-- An accepted verdict: recorded, posted on the rings of the jobs that have the subject; a probe of it is
abandoned (Table 10-8), and an admission of the unit stops. -/
def State.acceptVerdict (s : State) (c : Coord) (classes : BitVec 4) (term : BitVec 32) : State :=
  let s1 := { s with shep := { s.shep with
    vSubject := c, vClasses := classes, vTerm := term.setWidth 31, vValid := true,
    probes := s.shep.probes.filter (fun p => decide (p.subject ≠ c)),
    runs := s.shep.runs.filter (fun p => decide (p.subject ≠ c)),
    admits := s.shep.admits.filter (fun a => decide (a.coord ≠ c ∧ a.prev ≠ c)) } }
  let s2 := s1.updObsC c fun o => { o with dead := true }
  (s.jobsWith c).foldl (fun (s : State) j =>
    s.jobEvent j 7 [(16, 2, c.toNat), (18, 1, classes.toNat), (20, 4, term.toNat)]) s2

/-- Classes standing for a member: bit 0 (a), bit 1 (b), bit 3 (d) (R263, R267). -/
def Obs.classes (o : Obs) : BitVec 4 :=
  (if o.a && !o.suspended then 1 else 0) ||| (if o.b && !o.suspended then 2 else 0) ||| (if o.d then 8 else 0)
/-- Two classes or more. -/
def twoClasses (c : BitVec 4) : Bool := decide (c = 3 ∨ c = 9 ∨ c = 10 ∨ c = 11)

/-- The verdict engine (R267): two classes standing for a member bring the verdict, its PEN, and the spare. -/
def State.verdictCheck (s : State) (m : Nat) : State :=
  let o := s.obsOf m
  let c := coordAt s.ownGroup m
  if s.shep.bellwether && s.shep.hasCoord && !o.dead && twoClasses o.classes && decide (m < 16) then
    let n := stickAdd s.shep.verdicts 1
    let s1 := ({ s with shep := { s.shep with verdicts := n, ovf := s.shep.ovf || decide (n = stickMax 64) } }.stuck
      0x100200 s.shep.verdicts n)
    let s2 := (s1.flock (.verdict c o.classes)).acceptVerdict c o.classes s1.shep.term
    ((s2.flock (.pen c 1)).applyPen c).sendAdmit c
  else s

/-- Every member is judged. -/
def State.verdictAll (s : State) : State := (List.range 16).foldl State.verdictCheck s

/-! ### Own reports (R260, R261) -/

/-- Class (a) of this module: a link partner is silent. -/
def State.ownA (s : State) (c : Coord) : Bool := s.links.any (fun e => e.2.silent && decide (e.2.partner = c))
/-- Class (b): the twin's sideband is silent. -/
def State.ownB (s : State) (c : Coord) : Bool := s.shep.sbSilent && s.twin.paired && decide (s.twin.coord = c)

/-- A member's entry of the own GOSSIP. -/
def State.gossipEntry (s : State) (m : Nat) : Option GossipEntry :=
  let c := coordAt s.ownGroup m
  let o := s.obsOf m
  let a := s.ownA c || (s.shep.passReports && o.a)
  let b := s.ownB c || (s.shep.passReports && o.b)
  if m = posOf s.shep.coord ∨ (!a && !b && !o.c) then none
  else some { subject := c, a := a, b := b, c := o.c, alive := o.alive,
              ageMs := if o.valid then BitVec.ofNat 16 (min 65535 ((s.tb.toNat - o.heard.toNat) / 100000)) else 0xFFFF }

/-- The own reports stand at the own verdict engine from now. -/
def State.ownReports (s : State) : State :=
  (List.range 16).foldl (fun (s : State) m =>
    let c := coordAt s.ownGroup m
    if m = posOf s.shep.coord then s
    else s.updObs m fun o => { o with
      a := o.a || s.ownA c, aAt := if s.ownA c then s.tb else o.aAt,
      b := o.b || s.ownB c, bAt := if s.ownB c then s.tb else o.bAt }) s

/-- GOSSIP leaves. -/
def State.gossipNow (s : State) : State :=
  let es := (List.range 16).filterMap s.gossipEntry
  let s1 := s.flock (.gossip (if s.twin.paired then s.twin.coord else 0x7FF) es)
  ({ s1 with shep := { s1.shep with lastGossip := some s.tb, passReports := false } }.ownReports).verdictAll

/-- GOSSIP_SEND: every 10 ms, by a member that is not in the paddock (R261, R281). -/
def execGossipSend (s : State) : Res :=
  let due := match s.shep.lastGossip with | some t => s.passed t ticks10ms | none => true
  doIf (s.shepOn && s.shep.member && !s.shep.paddock && due) s s.gossipNow

/-- GOSSIP: the standing reports of its subjects, and the election (R261, R265). -/
def execGossip (h : FlockHdr) (twin : Coord) (es : List GossipEntry) (s : State) : Res :=
  flockRx s h (.gossip twin es) h.sender.toNat fun s =>
    if !s.inGroup h.sender then s
    else
      let s1 := s.updObsC h.sender fun o => { o with gossipAt := s.tb, c := false }
      let s2 := (es.take 15).foldl (fun (s : State) e =>
        (s.updObsC e.subject fun o => { o with
          a := o.a || e.a, aAt := if e.a then s.tb else o.aAt, b := o.b || e.b, bAt := if e.b then s.tb else o.bAt })) s1
      s2.learnBell.verdictAll

/-- REPORT_LAPSE: 200 ms after its latest repetition. -/
def execReportLapse (m : Nat) (s : State) : Res :=
  let late := fun (on : Bool) (t : Word) => on && !s.passed t ticks200ms
  doIf (s.shepOn && decide (m < 16)) s (s.updObs m fun o => { o with a := late o.a o.aAt, b := late o.b o.bAt, d := late o.d o.dAt })

/-- GOSSIP_LOST (R260): for election and probing only. -/
def execGossipLost (m : Nat) (s : State) : Res :=
  doIf (s.shepOn && decide (m < 16) && (s.obsOf m).valid && s.passed (s.obsOf m).gossipAt ticks30ms) s
    (s.updObs m fun o => { o with c := true }).learnBell

/-! ### Election (R266) -/

/-- `t` is newer than `u`. -/
def newerTerm (t u : BitVec 32) : Bool := decide (1 ≤ (t - u).toNat ∧ (t - u).toNat < 2 ^ 31)

/-- Members heard within 30 ms, bit by position. -/
def State.heardMap (s : State) : BitVec 16 :=
  (List.range 16).foldl (fun (b : BitVec 16) m =>
    if m = posOf s.shep.coord || ((s.obsOf m).valid && !s.passed (s.obsOf m).gossipAt ticks30ms) then b ||| (1 <<< m) else b) 0

/-- The bellwether held is lost, higher-positioned, or none is held. -/
def State.bellLost (s : State) : Bool :=
  !s.shep.bellValid || decide (posOf s.shep.coord < posOf s.shep.bell) || !s.eligible (posOf s.shep.bell)

/-- BELLWETHER_LOST: the lowest eligible member claims, and judges the reports that stand. -/
def execBellwetherLost (s : State) : Res :=
  doIf (s.shepOn && s.shep.member && !s.shep.bellwether && s.shep.hasCoord
    && decide (s.lowest = some (posOf s.shep.coord)) && s.bellLost) s
    (let s1 := { s with shep := { s.shep with
        term := s.shep.term + 1, bellwether := true, bell := s.shep.coord, bellValid := true } }
     (s1.flock (.claim s.heardMap)).verdictAll)

/-- CLAIM. -/
def execClaim (h : FlockHdr) (members : BitVec 16) (s : State) : Res :=
  flockRx s h (.claim members) h.sender.toNat fun s =>
    let ok := newerTerm h.term s.shep.term
      || (decide (h.term = s.shep.term) && s.shep.bellValid && decide (posOf h.sender < posOf s.shep.bell))
    if s.inGroup h.sender && ok then
      { s with shep := { s.shep with
          term := h.term, bell := h.sender, bellValid := true, bellwether := false,
          passReports := s.shep.passReports || s.shep.bellwether } }
    else s

/-! ### Budget and expulsion (R277 to R280) -/

/-- EXPEL_REQ. -/
def execExpelReq (h : FlockHdr) (score cause : Byte) (ind : List (BitVec 16)) (s : State) : Res :=
  flockRx s h (.expelReq score cause ind) h.sender.toNat fun s =>
    if s.shep.bellwether && s.inGroup h.sender then
      s.evaluate { subject := h.sender, cause := cause, score := score, lastEval := s.tb }
    else s

/-- EXPEL_ORDER: entered in the own counter, or ignored and counted where that has no free slot. -/
def execExpelOrder (h : FlockHdr) (subject : Coord) (slot left : Byte) (s : State) : Res :=
  flockRx s h (.expelOrder subject slot left) h.sender.toNat fun s =>
    if !s.inGroup subject then s
    else match s.freeBudget with
      | none => { s with shep := { s.shep with rejected := stickAdd s.shep.rejected 1 } }
      | some i => s.enterOrder subject (if slot.toNat < 8 ∧ s.slotAt slot.toNat = 0 then slot.toNat else i)

/-- EXPEL_REFUSED: the module stays in service on watch; the refusal is shown. -/
def execExpelRefused (h : FlockHdr) (subject : Coord) (reasons : BitVec 4) (s : State) : Res :=
  flockRx s h (.expelRefused subject reasons) h.sender.toNat fun s =>
    if s.isMine subject then
      { s with shep := { s.shep with
          exSubject := subject, exState := 2, exReasons := reasons, exScore := s.shep.score, watch := true } }
    else s

/-- BUDGET_SLOT_EXPIRY. -/
def execBudgetSlotExpiry (i : Nat) (s : State) : Res :=
  doIf (s.shepOn && decide (i < 8 ∧ s.slotAt i ≠ 0 ∧ (s.slotAt i).toNat ≤ s.tb.toNat)) s (s.setBudget i 0).evaluateAll

/-- COUNTER_TRUSTED: 24 h of membership without interruption. -/
def execCounterTrusted (s : State) : Res :=
  doIf (s.shepOn && s.shep.member && !s.shep.trusted && s.passed s.shep.memberSince (24 * ticksHour)) s
    ({ s with shep := { s.shep with trusted := true } } : State).evaluateAll

/-- EXPEL_REEVALUATION: at least once an hour. -/
def execExpelReevaluation (s : State) : Res :=
  doIf (s.shepOn && s.shep.bellwether) s
    ((s.shep.requests.filter (fun r => s.passed r.lastEval ticksHour)).foldl State.evaluate s)

/-- RESERVE_REPORT (R278): the reserve, and open requests again. -/
def execReserveReport (h : CtlHdr) (reserve : BitVec 16) (s : State) : Res :=
  ctlMsg s h false fun s => ({ s with shep := { s.shep with reserve := reserve } } : State).evaluateAll

/-- BIND_OFF_DEADLINE (R280): a subject not bound off within 10 minutes is penned with cause 2. -/
def execBindOffDeadline (s : State) : Res :=
  match s.shep.orders.find? (fun o => s.passed o.2.2 (10 * ticksMin)) with
  | none => .next s
  | some o => doIf (s.shepOn && s.shep.bellwether) s (((s.flock (.pen o.1 2)).applyPen o.1).sendAdmit o.1)

/-! ### Messages about modules -/

/-- SELF_REPORT (R263, R267, R282): its alive counter is keyed by the digest for kind 4. -/
def execSelfReport (h : FlockHdr) (kind code group : Byte) (detail : Word) (s : State) : Res :=
  flockRx s h (.selfReport kind code group detail) (if kind = 4 then 2048 + detail.toNat else h.sender.toNat) fun s =>
    let m := posOf h.sender
    if kind = 4 then
      let c := coordAt group.toNat 15
      if s.shep.bellwether && s.inGroup c && s.spareOut s.ownGroup then
        (s.flock (.admission c 0x7FF detail)).applyAdmit c 0x7FF detail
      else s
    else if !s.inGroup h.sender then s
    else if kind = 1 ∨ kind = 3 then
      (((s.withdrawOrder h.sender).updObs m fun o => { o with d := true, dAt := s.tb, suspended := false }).evaluateAll).verdictCheck m
    else if kind = 2 ∨ kind = 5 then s.updObs m fun o => { o with suspended := true, suspAt := s.tb }
    else s

/-- SUSPENSION_EXPIRY: 20 minutes. -/
def execSuspensionExpiry (m : Nat) (s : State) : Res :=
  doIf (s.shepOn && decide (m < 16) && (s.obsOf m).suspended && s.passed (s.obsOf m).suspAt (20 * ticksMin)) s
    ((s.updObs m fun o => { o with suspended := false }).verdictCheck m)

/-- VERDICT. -/
def execVerdict (h : FlockHdr) (subject : Coord) (classes : BitVec 4) (s : State) : Res :=
  flockRx s h (.verdict subject classes) h.sender.toNat fun s => s.acceptVerdict subject classes h.term

/-- PEN: with cause 3 it ends a bind-off, and the bellwether admits the spare (R284, R300). -/
def execPen (h : FlockHdr) (subject : Coord) (cause : Byte) (s : State) : Res :=
  flockRx s h (.pen subject cause) h.sender.toNat fun s =>
    let s1 := s.applyPen subject
    if cause = 3 && s.shep.bellwether && s.inGroup subject then
      { s1 with shep := { s1.shep with
          exState := if s1.shep.exSubject = subject ∧ s1.shep.exState = 3 then 4 else s1.shep.exState } }.sendAdmit subject
    else s1

/-- UNPEN as every Shepherd applies it (R269): the link fences are lifted when the unit named passes its identity check. -/
def State.applyUnpen (s : State) (c : Coord) (digest : Word) : State :=
  { s with shep := { s.shep with unpen := s.shep.unpen.filter (fun u => decide (u.2 ≠ digest)) ++ [(c, digest)] } }

/-- The bellwether sends UNPEN on the pod manager's order (R269). -/
def State.sendUnpen (s : State) (c : Coord) (digest : Word) : State :=
  if s.shep.bellwether && s.inGroup c then (s.flock (.unpen c digest)).applyUnpen c digest else s

/-- UNPEN. -/
def execUnpen (h : FlockHdr) (subject : Coord) (digest : Word) (s : State) : Res :=
  flockRx s h (.unpen subject digest) h.sender.toNat fun s => s.applyUnpen subject digest

/-- ADMIT. -/
def execAdmitMsg (h : FlockHdr) (coord prev : Coord) (digest : Word) (s : State) : Res :=
  flockRx s h (.admission coord prev digest) h.sender.toNat fun s => s.applyAdmit coord prev digest

/-! ### Accusations and directed probes (R272, R273) -/

/-- An accusation that is ignored or unsubstantiated: a Tally event names the job. -/
def State.nameAccusers (s : State) (jobs : List (BitVec 16)) : State :=
  jobs.foldl (fun (s : State) j => s.raise (.accusation j) 1) s

/-- PROBE flits of a loopback (R272). -/
def loopFlits : Nat := 1024

/-- The prober of a subject: its twin, or, if that is accused or penned, its lowest-positioned link partner:
the model takes the lowest position of the group that has been heard (Table 7-1: the 16 modules of a group
reach each other directly). -/
def State.proberFor (s : State) (c : Coord) : Coord :=
  let bad := fun (t : Coord) => (s.obsC t).penned || (s.obsC t).dead || s.shep.probes.any (fun p => decide (p.subject = t))
  let lowest := coordAt (groupOf c) (((List.range 16).find? (fun m =>
    decide (m ≠ posOf c ∧ some (coordAt (groupOf c) m) ≠ s.twinOf c)
      && (decide (m = posOf s.shep.coord) || ((s.obsOf m).valid && !(s.obsOf m).c))
      && !(s.obsOf m).penned && !(s.obsOf m).dead)).getD 0)
  match s.twinOf c with
  | some t => if bad t then lowest else t
  | none => lowest

/-- Tile 0 of every die of the subject in service, after the named tile. Which dies are in service the prober knows by means
that the spec does not give: a free value (log entry 23). -/
def probeTiles (tile : BitVec 16) (dies : BitVec 40) : List Nat :=
  ((if tile = 0xFFFF then [] else [tile.toNat])
    ++ ((List.range 40).filter (fun d => dies.getLsbD d)).map (240 * ·)).eraseDups

/-- The Shepherd sends PROBE packets to tiles of the subject, and 1 024 around a link to it (log entry 23). -/
def State.startProbe (s : State) (c : Coord) (tile : BitVec 16) : State :=
  let asked := probeTiles tile ((Config.freeWord s.free).setWidth 40)
  let s1 := { s with free := s.free + 1, shep := { s.shep with
    runs := s.shep.runs.filter (fun p => decide (p.subject ≠ c)) ++ [{ subject := c, asked := asked, since := s.tb }] } }
  let s2 := asked.foldl (fun (s : State) t =>
    s.sendPacket 0 { dst := c, src := 0, kind := kProbe, vc := 3, dstTile := BitVec.ofNat 16 t, srcTile := 0xFFFF }) s1
  match (s.linksTo c).head? with
  | some key =>
    let p : Packet := { dst := s.shep.coord, src := s.shep.coord, kind := kProbe, vc := 3, dstTile := 0xFFFF }
    (s2.updLink (key / 176) (key % 176) fun l => { l with
      txq := l.txq ++ List.replicate loopFlits { packet := p, since := s.tb } }).pump (key / 176) (key % 176)
  | none => s2

/-- The bellwether orders a probe, or joins the accusation to the one that runs. -/
def State.orderProbe (s : State) (c : Coord) (job : BitVec 16) (tile : BitVec 16) : State :=
  if (s.obsC c).penned || (s.obsC c).paddock || (s.obsC c).dead then s.nameAccusers [job]
  else if s.shep.probes.any (fun p => decide (p.subject = c)) then
    { s with shep := { s.shep with
        probes := s.shep.probes.map (fun p => if p.subject = c then { p with jobs := p.jobs ++ [job] } else p) } }
  else
    let pr := s.proberFor c
    let s1 := ({ s with shep := { s.shep with
      probes := s.shep.probes ++ [{ subject := c, prober := pr, tile := tile, jobs := [job], since := s.tb }] } } : State).flock
        (.probeOrder c pr tile)
    if s.isMine pr then s1.startProbe c tile else s1

/-- An accusation reaches a Shepherd: counted by the one accused, acted on by the bellwether. -/
def State.takeAccuse (s : State) (c : Coord) (job : BitVec 16) (tile : BitVec 16) : State :=
  let s1 := if s.isMine c then { s with shep := { s.shep with accTotal := stickAdd s.shep.accTotal 1, accOpen := s.shep.accOpen + 1 } } else s
  if s.shep.bellwether && s.inGroup c then s1.orderProbe c job tile else s1

/-- ACCUSE. -/
def execAccuse (h : FlockHdr) (subject : Coord) (job : BitVec 16) (gen : Byte) (tile : BitVec 16) (row : Word)
    (s : State) : Res :=
  flockRx s h (.accuse subject job gen tile row) h.sender.toNat fun s => s.takeAccuse subject job tile

/-- The subject of a probe learns which tile it names. -/
def State.noteNamed (s : State) (c : Coord) (tile : BitVec 16) : State :=
  if s.isMine c then { s with shep := { s.shep with named := if tile.toNat < 9600 then some tile.toNat else none } } else s

/-- PROBE_ORDER. -/
def execProbeOrder (h : FlockHdr) (subject prober : Coord) (tile : BitVec 16) (s : State) : Res :=
  flockRx s h (.probeOrder subject prober tile) h.sender.toNat fun s =>
    let s1 := s.noteNamed subject tile
    if s.isMine prober then s1.startProbe subject tile else s1

/-- Unsubstantiated accusations against a member in the last 60 minutes. -/
def State.recentUnsub (s : State) (c : Coord) : List Word := (s.obsC c).unsub.filter (fun t => !s.passed t ticksHour)

/-- `n` accusations have been found unsubstantiated: three within 60 minutes bring an expulsion request (R273). -/
def State.countUnsub (s : State) (c : Coord) (n : Nat) : State :=
  let recent := s.recentUnsub c ++ List.replicate n s.tb
  let s1 := s.updObsC c fun o => { o with unsub := recent }
  if s.shep.bellwether && s.inGroup c && decide (3 ≤ recent.length) then
    s1.evaluate { subject := c, cause := 2, score := if s.isMine c then s.shep.score else (s.obsC c).score, lastEval := s.tb }
  else s1

/-- A tile that a probe has found failing is treated as a tile failure, unless it has failed already (R56, R74). -/
def State.probedTile (s : State) (t : Nat) : State :=
  if s.dieOn (dieOfTile t) && !(s.tile t).failed then s.failTile t else s

/-- The failing tiles that a result names to its subject: on each die of the bitmap the named tile, where it is on that die,
else tile 0 (log entry 23). -/
def State.failingTiles (s : State) (dies : BitVec 40) : List Nat :=
  ((List.range 40).filter (fun d => dies.getLsbD d)).map (fun d =>
    (s.shep.named.filter (fun t => decide (dieOfTile t = d))).getD (240 * d))

/-- What follows a probe's result (Table 10-6), on every Shepherd that learns it. -/
def State.probeOutcome (s : State) (c prober : Coord) (result : Byte) (dies : BitVec 40) : State :=
  let mine := s.shep.accusing.filter (fun a => decide (a.1 = c))
  let jobs := (s.shep.probes.filter (fun p => decide (p.subject = c))).flatMap (·.jobs)
  let n := if s.isMine c && !s.shep.bellwether then max 1 s.shep.accOpen else max 1 jobs.length
  let s1 := { s with shep := { s.shep with
    accusing := s.shep.accusing.filter (fun a => decide (a.1 ≠ c)),
    probes := s.shep.probes.filter (fun p => decide (p.subject ≠ c)),
    accOpen := if s.isMine c then 0 else s.shep.accOpen, named := if s.isMine c then none else s.shep.named } }
  let s2 := mine.foldl (fun (s : State) a =>
    s.jobEvent a.2 10 [(16, 2, c.toNat), (18, 2, a.2.toNat), (20, 1, result.toNat)]) s1
  if result = 0 then (s2.nameAccusers jobs).countUnsub c n
  else if result = 1 then
    if s.isMine c then (s.failingTiles dies).foldl State.probedTile s2 else s2
  else if result = 2 then
    if s.isMine c then ((s2.linksTo prober).take 1).foldl (fun (s : State) key => s.failLink (key / 176) (key % 176)) s2
    else s2
  else if result = 3 && s.inGroup c then
    (s2.updObsC c fun o => { o with a := true, aAt := s.tb }).verdictCheck (posOf c)
  else s2

/-- PROBE_RESULT. -/
def execProbeResult (h : FlockHdr) (subject : Coord) (result : Byte) (dies : BitVec 40) (s : State) : Res :=
  flockRx s h (.probeResult subject result dies) h.sender.toNat fun s => s.probeOutcome subject h.sender result dies

/-- The dies of a probe with an echo that has failed. -/
def ProbeRun.failedDies (r : ProbeRun) : BitVec 40 :=
  (r.asked.filter (fun t => !r.answered.contains t)).foldl (fun (b : BitVec 40) t => b ||| (1 <<< dieOfTile t)) 0

/-- Every flit of the loopback has come back. -/
def ProbeRun.loopback (r : ProbeRun) : Bool := decide (loopFlits ≤ r.looped)

/-- Every tile asked has answered. -/
def ProbeRun.allAnswered (r : ProbeRun) : Bool := r.asked.all r.answered.contains

/-- The result of a probe (Table 10-6); echoes missing together with the loopback, but not all, count as
result 1. -/
def ProbeRun.result (r : ProbeRun) : Byte :=
  if r.allAnswered then (if r.loopback then 0 else 2)
  else if r.answered.isEmpty && decide (r.looped = 0) then 3 else 1

/-- The prober reports: by PROBE_RESULT and to itself; with result 2 it fails its link to the subject. -/
def State.reportProbe (s : State) (r : ProbeRun) : State :=
  let s1 := { s with shep := { s.shep with runs := s.shep.runs.filter (fun (x : ProbeRun) => decide (x.subject ≠ r.subject)) } }
  let s2 := s1.flock (.probeResult r.subject r.result r.failedDies)
  let s3 := if r.result = 2 then
      ((s2.linksTo r.subject).take 1).foldl (fun (s : State) key => s.failLink (key / 176) (key % 176)) s2 else s2
  s3.probeOutcome r.subject s.shep.coord r.result r.failedDies

/-- A probe whose every answer is in is reported at once. -/
def State.probeAnswered (s : State) (c : Coord) (f : ProbeRun → ProbeRun) : State :=
  let s1 := { s with shep := { s.shep with runs := s.shep.runs.map (fun (r : ProbeRun) => if r.subject = c then f r else r) } }
  match s1.shep.runs.find? (fun (r : ProbeRun) => decide (r.subject = c)) with
  | some r => if r.allAnswered && r.loopback then s1.reportProbe r else s1
  | none => s1

/-- PROBE_DEADLINE: answers missing at 20 ms count against the subject. A bellwether whose prober has not
reported by then finds that nothing answered. -/
def execProbeDeadline (s : State) : Res :=
  match s.shep.runs.find? (fun r => s.passed r.since ticks20ms) with
  | some r => doIf s.shepOn s (s.reportProbe r)
  | none =>
    match s.shep.probes.find? (fun p => s.passed p.since ticks20ms) with
    | some p => doIf s.shepOn s (s.probeOutcome p.subject p.prober 3 0)
    | none => .next s

/-- ACCUSE_COMMAND (R272): the accusation of a job goes to the bellwether of the subject's group. -/
def execAccuseCommand (r : Nat) (s : State) : Res :=
  hostCmd s r 0x08 false fun blk tag s =>
    let c := BitVec.ofNat 11 (fieldB blk 8 2)
    let job := BitVec.ofNat 16 (fieldB blk 10 2)
    let gen := BitVec.ofNat 8 (fieldB blk 12 1)
    let tile := BitVec.ofNat 16 (fieldB blk 14 2)
    let s1 := { s with shep := { s.shep with accusing := s.shep.accusing ++ [(c, job)] } }
    let s2 := s1.flock (.accuse c job gen tile (BitVec.ofNat 64 (fieldB blk 16 8)))
    (if s.inGroup c then s2.takeAccuse c job tile else s2).complete r tag stOk

/-! ### Condition score (R262, R274 to R276) -/

/-- HARD_FAULT (R262, Table 10-4). -/
def execHardFault (code : Byte) (s : State) : Res :=
  doIf (s.shepOn && decide (1 ≤ code.toNat ∧ code.toNat ≤ 7)) s (s.hardFault code)

/-- A sum of counters. -/
def total {α : Type} (l : List α) (f : α → Nat) : Nat := (l.map f).foldl (· + ·) 0

/-- Source counters as they read now, by key: store corrections, lines corrected, codewords, lanes removed, beat deficits,
the Crooks' counts, and corrections by channel. -/
def State.indReads (s : State) : List (Tab Nat) :=
  [ s.dies.map (fun e => (e.1, e.2.storeCorr.toNat)),
    s.mds.flatMap (fun e => e.2.stk.map (fun k => (5 * e.1 + k.1, k.2.corr.toNat))),
    s.links.map (fun e => (e.1, e.2.fecUncorr.toNat)),
    [(0, s.shep.lanesRemoved)],
    s.dies.map (fun e => (e.1, e.2.beatDeficit.toNat)),
    s.elems.flatMap (fun e => [(4 * e.1, e.2.expiries.toNat), (4 * e.1 + 1, e.2.slips.toNat), (4 * e.1 + 2, e.2.lcFail.toNat)])
      ++ s.engines.map (fun e => (4 * e.1 + 3, e.2.slotMissCnt.toNat)),
    s.mds.flatMap (fun e => e.2.stk.flatMap (fun k => k.2.chanCorr.map (fun c => (18 * (5 * e.1 + k.1) + c.1, c.2.toNat)))) ]

/-- What a counter has counted since it was last read: it starts again at 0 with its power domain. -/
def countedSince (old new : Nat) : Nat := if new < old then new else new - old

/-- What the counters of a list have counted. -/
def countedAll (old new : Tab Nat) : Nat :=
  total new (fun e => countedSince (((old.find? (fun o => decide (o.1 = e.1))).map (·.2)).getD 0) e.2)

/-- The sums of what the sources have counted, with this collection. -/
def State.indSums (s : State) : List Nat :=
  s.indReads.zipIdx.map (fun e => nth s.shep.indAcc e.2 0 + countedAll (nth s.shep.indReads e.2 []) e.1)

/-- Events of the last hour by sum `i`: the present sum less the oldest of the hour. -/
def State.indHour (s : State) (i : Nat) : Nat :=
  let past := s.shep.indPast.filter (fun p => !s.passed p.1 ticksHour)
  let old := match past with | p :: _ => nth p.2 i 0 | [] => 0
  nth s.indSums i 0 - old

/-- A class E source of an indicator stands at its largest value. -/
def State.indStuck (s : State) (i : Nat) : Bool :=
  match i with
  | 0 => s.dies.any (fun e => decide (e.2.storeCorr = stickMax 32))
  | 1 => s.mds.any (fun e => e.2.stk.any (fun k =>
      decide (k.2.corr = stickMax 32) || k.2.chanCorr.any (fun c => decide (c.2 = stickMax 32))))
  | 2 => s.links.any (fun e => decide (e.2.fecUncorr = stickMax 16))
  | 6 => s.dies.any (fun e => decide (e.2.beatDeficit = stickMax 32))
  | 8 => s.elems.any (fun e => decide (e.2.expiries = stickMax 32 ∨ e.2.slips = stickMax 32 ∨ e.2.lcFail = stickMax 32))
      || s.engines.any (fun e => decide (e.2.slotMissCnt = stickMax 32))
  | _ => false

/-- Rows without a healthy spare, on dies that are up. -/
def State.rowsUsed (s : State) : Nat :=
  total ((List.range 40).filter s.dieOn) (fun n => ((List.range 16).filter (fun r => !((s.die n).row r).healthy)).length)

/-- Indicator `i` of Table 10-5 as a number. -/
def State.indicator (s : State) (i : Nat) : Nat :=
  match i with
  | 0 => s.indHour 0 + total s.dies (fun e => e.2.repairPending.toNat)
  | 1 => max (s.indHour 1) (s.indHour 6) + total s.mds (fun e => total e.2.stk (fun k => k.2.erasedN))
  | 2 => s.indHour 2
  | 3 => if s.shep.marginWorst.any (fun t => !s.passed t ticksHour) then 0xFFFF else s.indHour 3 + s.shep.lanesMarginal
  | 4 => (s.skeins.map (fun e => if e.2.secUnfit then 0xFFFF else e.2.fade.toNat)).foldl max 0
  | 5 => (s.dies.map (fun e => if e.2.senseValid ∧ 0 ≤ e.2.tj.toInt then e.2.tj.toNat else 0)).foldl max 0
  | 6 => s.indHour 4
  | 7 => s.rowsUsed + total s.dies (fun e => (if e.2.degraded then 1 else 0) + (if e.2.outOfService then 1 else 0))
  | _ => s.indHour 5

/-- SHEP.IND of an indicator. -/
def State.indValue (s : State) (i : Nat) : BitVec 16 :=
  if s.indStuck i then 0xFFFF else BitVec.ofNat 16 (min 0xFFFF (s.indicator i))

/-- INDICATOR_COLLECT: every 10 s. -/
def execIndicatorCollect (s : State) : Res :=
  let due := match s.shep.indPast.getLast? with | some p => s.passed p.1 ticks10s | none => true
  doIf (s.pwr.aux && due) s
    { s with shep := { s.shep with
        ind := (List.range 9).foldl (fun t i => tabSet (fun _ => (0 : BitVec 16)) t i (s.indValue i)) s.shep.ind,
        indReads := s.indReads, indAcc := s.indSums,
        indPast := s.shep.indPast.filter (fun p => !s.passed p.1 ticksHour) ++ [(s.tb, s.indSums)] } }

/-- The indicators as EXPEL_REQ carries them. -/
def State.indList (s : State) : List (BitVec 16) :=
  (List.range 9).map (fun i => tabGet (fun _ => (0 : BitVec 16)) s.shep.ind i)

/-- A bellwether evaluates its own request (R276, R278). -/
def State.ownRequest (s : State) (score : Byte) : State :=
  if s.shep.bellwether && s.shep.hasCoord then
    s.evaluate { subject := s.shep.coord, cause := 1, score := score, lastEval := s.tb }
  else s

/-- SCORE_WRITE: the floor of 1, 0 while hard; watch and the expulsion request follow (R275, R276). -/
def execScoreWrite (score : Byte) (s : State) : Res :=
  let v := if s.shep.hard then 0 else if score = 0 then 1 else score
  let n := v.toNat
  let watch := if n < s.shep.watchThr.toNat then true else if s.shep.watchThr.toNat + 8 ≤ n then false else s.shep.watch
  let ask := decide (n < s.shep.expelThr.toNat) && !s.shep.hard && !s.shep.expelOpen && s.shep.member && s.twin.bindOff.isNone
  let s1 := { s with shep := { s.shep with
    score := v, watch := watch,
    expelOpen := if ask then true else if s.shep.expelThr.toNat + 8 ≤ n then false else s.shep.expelOpen } }
  let s2 := if s.shep.expelThr.toNat + 8 ≤ n && s.shep.hasCoord then s1.dropRequest s.shep.coord else s1
  doIf s.shepOn s (if ask then (s2.flock (.expelReq v 1 s.indList)).learnBell.ownRequest v else s2.learnBell)

/-! ### Paddock (R270, R281, R282) -/

/-- The module enters the paddock: penned, without a coordinate, a member no more, and with main off until the ramp. -/
def State.enterPaddock (s : State) : State :=
  let s := if s.mainOn then s.abortMain.sourcesSafe.mainOff else s
  { s with
    cast := { s.cast with running := false },
    shep := { s.shep with
      paddock := true, penned := true, padCoord := s.shep.coord, coord := 0x7FF, hasCoord := false, member := false,
      trusted := false, bellwether := false, clean := 0, passes := 0, padPhase := 0, lastPass := none, padSince := s.tb,
      padWait := some s.tb, padGroup := none,
      admitted := s.flash.settings.standins.any (fun x => decide (x.2 = s.shep.coord)), padProgressAt := s.tb } }

/-- A penned module that R270 lets into the paddock. -/
def State.padReady (s : State) : Bool := s.shep.penned && !s.shep.paddock && !s.shep.hard && !s.shep.selfFail

/-- PADDOCK_MAIN_RAMP: the spare stands in the module's place, or 10 s have gone. -/
def execPaddockMainRamp (s : State) : Res :=
  match s.shep.padWait with
  | none => .next s
  | some t =>
    doIf (s.shepOn && s.shep.paddock && s.gate.sig.mainEn && !s.pwr.mainBarred && !s.cast.running
      && (s.shep.admitted || s.passed t ticks10s)) s
      (({ s with shep := { s.shep with padWait := none } } : State).startRun .paddock)

/-- The sweep has written every LPDDR5X line: what it held is gone (R281; log entry 58). -/
def State.sweepMemory (s : State) : State :=
  { s with
    mem := s.mem.filter (fun e => decide (sliceBase ≤ e.1)), bad := s.bad.filter (fun e => decide (sliceBase ≤ e.1)),
    upsets := s.upsets.filter (fun e => decide (sliceBase ≤ e.1)), lineKeys := [] }

/-- The lane tests of a pass: PRBS31 on every electrical lane in near-end loopback, checked through the FEC (R281, R380). -/
def padLaneTest (t : LaneTest) : LaneTest :=
  { t with gen := 6, chk := 6, loop := 1, fec := true, invert := false, started := true, lock := false,
           bits := 0, errs := 0, efr := 0, efrMax := 0 }

/-- Every electrical lane's test changes. -/
def State.eachLane (s : State) (f : LaneTest → LaneTest) : State :=
  (List.range 384).foldl (fun (s : State) i => s.setTest (i / 192) (i % 192) (f (s.test (i / 192) (i % 192)))) s

/-- The bits that a pass checks on a lane. -/
def padBits : Nat := 100000000000

/-- The phase of a pass after `n` begins: 1 the memory sweep, 2 the self-test, 3 the lane patterns. -/
def State.nextPhase (s : State) : State :=
  let s1 := if s.shep.padPhase = 1 then s.sweepMemory else if s.shep.padPhase = 2 then s.eachLane padLaneTest else s
  { s1 with shep := { s1.shep with padPhase := s1.shep.padPhase + 1 } }

/-- PADDOCK_PASS: idle after CO7, passes at least 1 h apart, and none after the third clean one. While a pass runs the
command takes it to its next phase: the spec says the order of the three and gives them no times (log entry 58). -/
def execPaddockPass (s : State) : Res :=
  let due := match s.shep.lastPass with | some t => s.passed t ticksHour | none => true
  let idle := s.shepOn && s.shep.paddock && s.shep.padWait.isNone && s.pwr.transit && !s.cast.running && !s.cast.held
    && decide (s.shep.clean ≠ 3)
  if idle && decide (s.shep.padPhase = 0) && due then
    .next ({ s with shep := { s.shep with passes := stickAdd s.shep.passes 1, lastPass := some s.tb } } : State).nextPhase
  else doIf (idle && decide (s.shep.padPhase = 1 ∨ s.shep.padPhase = 2)) s s.nextPhase

/-- The graduate's SELF_REPORT of kind 4, for the group that it left or one with a vacancy that the pod manager has named
(R282). -/
def State.graduateReport (s : State) : State :=
  ({ s with shep := { s.shep with padReportAt := s.tb } } : State).flock
    (.selfReport 4 0 (((s.shep.padGroup.map (·.toNat)).getD (groupOf s.shep.padCoord) : Nat)) s.ownDigest)

/-- PADDOCK_PASS_END: it ends clean after its third phase, or fails in any; a third clean pass in a row ends the stay; a pass that fails is a hard fault. -/
def execPaddockPassEnd (clean : Bool) (code : Byte) (s : State) : Res :=
  let n := s.shep.clean + 1
  let s0 := if s.shep.padPhase = 3 then s.eachLane fun t => { t with
      gen := 0, chk := 0, loop := 0, started := false, lock := false, bits := if clean then stickAdd t.bits padBits else t.bits }
    else s
  doIf (s.shepOn && s.shep.paddock && decide (s.shep.padPhase = 3 ∨ (s.shep.padPhase ≠ 0 ∧ clean = false))) s
    (if clean then
      let s1 := { s0 with shep := { s0.shep with padPhase := 0, clean := n } }
      if n = 3 then s1.graduateReport else s1
     else ({ s0 with shep := { s0.shep with padPhase := 0, clean := 0 } } : State).hardFault code)

/-- The pod manager names a group with a vacancy to a graduate (R282). -/
def State.nameVacancy (s : State) (g : BitVec 7) : State :=
  if s.shep.paddock then
    let s1 := { s with shep := { s.shep with padGroup := some g } }
    if s.shep.clean = 3 then s1.graduateReport else s1
  else s

/-- PADDOCK_PROGRESS: every 60 s, in an authenticated control message. -/
def execPaddockProgress (s : State) : Res :=
  doIf (s.shepOn && s.flash.owned && s.shep.paddock && s.passed s.shep.padProgressAt ticksMin) s
    (({ s with shep := { s.shep with padProgressAt := s.tb } } : State).sendCtl 1
      [s.ownDigest.toNat, s.shep.clean.toNat, s.shep.padPhase.toNat, s.shep.passes.toNat])

/-- PADDOCK_REPORT_REPEAT: every 10 minutes while the graduate waits. -/
def execPaddockReportRepeat (s : State) : Res :=
  doIf (s.shepOn && s.shep.paddock && decide (s.shep.clean = 3) && s.passed s.shep.padReportAt (10 * ticksMin)) s s.graduateReport

end Sys2Proof.Machine
end

