-- ==== Sys2Proof/Machine/Link.lean ====
section
/-! DEFINITION. The link layer: flits, retry, training and the identity check, keepalives, drain, transit,
DROP notices, probes, and the Shepherd's writes to fences and routes (07, R155 to R191; 08, R205, R211 to
R213). -/

namespace Sys2Proof.Machine

/-! ### Flits received (R155, R160, R161, R165) -/

/-- The link takes flits. -/
def Link.live (l : Link) : Bool := decide (l.state = 2 ∨ l.state = 3 ∨ l.state = 4) && !l.member

/-- The first `n` flits outstanding on a VC have their credits back. -/
def dropHeld (vc : Nat) : Nat → List (Nat × Nat) → List (Nat × Nat)
  | 0, l => l
  | _, [] => []
  | n + 1, x :: xs => if x.1 = vc then dropHeld vc n xs else x :: dropHeld vc (n + 1) xs

/-- Credits that a flit returns. -/
def Link.credited (l : Link) (h : FlitHdr) : Link :=
  { l with held := dropHeld 3 h.creditCtl.toNat (dropHeld 2 h.creditCol.toNat
      (dropHeld 1 h.creditRsp.toNat (dropHeld 0 h.creditReq.toNat l.held))) }

/-- Flits up to `a` are acknowledged and leave the replay buffer. -/
def Link.acked (l : Link) (a : BitVec 12) (now : Word) : Link :=
  let n := (a - l.lastAcked).toNat
  if n = 0 ∨ l.replay.length < n then l
  else { l with replay := l.replay.drop n, lastAcked := a, ackProgress := now }

/-- A NAK carrying the last sequence in order. -/
def State.sendNak (s : State) (fd k : Nat) : State :=
  (s.updLink fd k fun l => { l with nakSent := true }).sendFlit fd k ftNak (s.link fd k).nextSeq none

/-- A gap in seq brings one NAK: what follows is discarded until the replay arrives. -/
def State.nakGap (s : State) (fd k : Nat) : State := if (s.link fd k).nakSent then s else s.sendNak fd k

/-- What the decoder met with a flit is counted on its link (R155). -/
def State.countFec (s : State) (fd k : Nat) (h : FlitHdr) : State :=
  let l := s.link fd k
  let c := stickAdd l.fecCorr h.fecCorr
  let u := stickAdd l.fecUncorr h.fecUncorr
  (s.setLink fd k { l with fecCorr := c, fecUncorr := u }).updFab fd fun x =>
    { x with ovf := x.ovf || decide (c = stickMax 48 ∨ u = stickMax 16) }

/-- A failed flit is counted (LINK_CNT). -/
def State.countCrc (s : State) (fd k : Nat) : State := s.updLink fd k fun l => { l with crcErr := stickAdd l.crcErr 1 }

/-- The link keeps the time at which a retrain was announced (R164). -/
def Link.retrain (l : Link) (on : Bool) (now : Word) : Link :=
  { l with retrainRx := on, retrainAt := if on && !l.retrainRx then now else l.retrainAt }

/-- A flit of type `type` reaches a link: FEC is counted; one with a bad CRC or an uncorrectable codeword counts and
brings a NAK; a good one acknowledges, returns credits, and has the effect `f`; what then holds credits leaves. A good
flit of types 5 to 15 is dropped as malformed (Table 7-2); one of another type is another command's. -/
def takeFlit (type : BitVec 4) (s : State) (fd k : Nat) (h : FlitHdr) (d : Option FlitData) (f : State → State) : Res :=
  let l := s.link fd k
  if !(s.pwr.transit && decide (fd < 2 ∧ k < 176) && l.live) then .next s
  else
    let s1 := s.countFec fd k h
    if !flitGood h d then .next ((s1.countCrc fd k).sendNak fd k)
    else if h.type ≠ type then .next s1
    else
      let s2 := s1.updLink fd k fun l =>
        let l := if h.ackValid then l.acked h.ack s.tb else l
        (l.credited h).retrain h.retrain s.tb
      .next ((f s2).pump fd k)

/-- A flit without DATA names the next DATA sequence: one ahead of it is a gap. -/
def State.seqGap (s : State) (fd k : Nat) (seq : BitVec 12) : State :=
  let d := (seq - (s.link fd k).expected).toNat
  if 0 < d ∧ d < 2048 then s.nakGap fd k else s

/-- One credit more to return on a VC. -/
def oweMore (vc : Nat) (l : List Nat) : List Nat := (l.zipIdx).map (fun x => if x.2 = vc then x.1 + 1 else x.1)

/-- A DATA flit in order is accepted: its payload joins its packet, which goes to the router whole with the
last one; a CTL packet other than a KEEPALIVE counts as hearing the partner. -/
def State.acceptData (s : State) (fd k : Nat) (d : FlitData) : State :=
  let l := s.link fd k
  let vc := d.vc.toNat
  let n := stickAdd l.flits 1
  let bytes := (if d.sop then [] else tabGet (fun _ => ([] : List Byte)) l.partials vc) ++ d.payload
  let ctl := d.eop && decide (vc = 3 ∧ nth bytes 4 0 ≠ (0x0B : Byte))
  let l1 := { l with
    flits := n, expected := l.expected + 1, nakSent := false, unacked := l.unacked + 1,
    unackedSince := if l.unacked = 0 then s.tb else l.unackedSince, owe := oweMore vc l.owe,
    partials := tabSet (fun _ => ([] : List Byte)) l.partials vc (if d.eop then [] else bytes),
    lastCtlRx := if ctl then s.tb else l.lastCtlRx, silent := if ctl then false else l.silent }
  let s1 := (s.setLink fd k l1).stuck (fabOff fd (0x10018 + 0x40 * k)) l.flits n
  let s2 := if n = stickMax 64 then s1.updFab fd fun x => { x with ovf := true } else s1
  let s3 := if d.eop then s2.emit (.toRouter fd k bytes) else s2
  if 16 ≤ (s3.link fd k).unacked then s3.sendFlit fd k ftAck (s3.link fd k).nextSeq none else s3

/-- DATA_FLIT. -/
def execDataFlit (fd : Nat) (k : Nat) (h : FlitHdr) (d : FlitData) (s : State) : Res :=
  takeFlit ftData s fd k h (some d) fun s =>
    let diff := (h.seq - (s.link fd k).expected).toNat
    if diff = 0 then s.acceptData fd k d
    else if diff < 2048 then s.nakGap fd k
    else s

/-- ACK_FLIT. -/
def execAckFlit (fd : Nat) (k : Nat) (h : FlitHdr) (s : State) : Res :=
  takeFlit ftAck s fd k h none fun s => s.seqGap fd k h.seq

/-- NAK_FLIT: the sender replays from ack + 1. -/
def execNakFlit (fd : Nat) (k : Nat) (h : FlitHdr) (s : State) : Res :=
  takeFlit ftNak s fd k h none fun s =>
    ((s.updLink fd k fun l => { l with replays := stickAdd l.replays 1 }).resend fd k).seqGap fd k h.seq

/-- IDLE_FLIT. -/
def execIdleFlit (fd : Nat) (k : Nat) (h : FlitHdr) (s : State) : Res :=
  takeFlit ftIdle s fd k h none fun s => s.seqGap fd k h.seq

/-- ACK_TIMER: at most 20 ticks after an accept not acknowledged. -/
def execAckTimer (fd : Nat) (k : Nat) (s : State) : Res :=
  let l := s.link fd k
  doIf (s.pwr.transit && l.live && decide (0 < l.unacked) && s.passed l.unackedSince 20) s
    (s.sendFlit fd k ftAck l.nextSeq none)

/-- LINK_FAIL: 10 ms without progress while flits are outstanding, or down for 10 ms (R163). -/
def execLinkFail (fd : Nat) (k : Nat) (s : State) : Res :=
  let l := s.link fd k
  let stuck := !l.replay.isEmpty && s.passed l.ackProgress 1000000 && l.live
  let down := (match l.downSince with | some t => s.passed t 1000000 | none => false)
    && decide (l.state ≠ 5 ∧ l.state ≠ 0 ∧ l.state ≠ 2)
  doIf (s.pwr.transit && decide (fd < 2 ∧ k < 176) && !l.member && (stuck || down)) s (s.failLink fd k)

/-- This end announces a commanded retrain: retrain is set in its flits, the next of which leaves at once (R164). -/
def State.announce (s : State) (fd k : Nat) : State :=
  (s.updLink fd k fun l => { l with retrainTx := true, retrainAt := s.tb }).sendFlit fd k ftIdle (s.link fd k).nextSeq none

/-- COMMANDED_RETRAIN (R164, R190): retrain is announced, then DRAIN with reason 3; the link stops sending. -/
def execCommandedRetrain (fd : Nat) (k : Nat) (s : State) : Res :=
  let l := s.link fd k
  doIf (s.pwr.transit && decide (fd < 2 ∧ k < 176 ∧ (l.state = 2 ∨ l.state = 4)) && !l.member) s
    (((s.announce fd k).sendOnLink fd k kDrain (drainArg 3) []).updLink fd k fun l =>
      { l with state := 3, downSince := some s.tb })

/-- LANE_REMOVE (R159): an electrical lane 0-191, or optical strand 192-319 of the die. -/
def execLaneRemove (fd : Nat) (lane : Nat) (lost : Bool) (uncorr : Nat) (s : State) : Res :=
  let q := 32 * fd + (lane - 192) / 4
  let j := (lane - 192) % 4
  let served := if lane < 192 then (s.link fd (s.linkOfLane fd lane)).lanes.contains (lane % 16)
    else decide ((s.olane q j).state = 5)
  doIf (s.pwr.transit && decide (fd < 2 ∧ lane < 320) && (lost || decide (16 ≤ uncorr)) && served) s
    (if lane < 192 then s.removeElec fd lane else s.laneOut q j 2)

/-! ### Discovery (R324 to R326, Table 12-10) -/

/-- The coordinate of a digest: of a spare that has taken one, else the plan's (R284, R322). -/
def State.coordOfDigest (s : State) (d : Word) : Option Coord :=
  match s.flash.settings.standins.find? (fun x => decide (x.1 = d)) with
  | some x => some x.2
  | none => s.flash.settings.plan.bind (fun p => (p.digests.find? (fun x => decide (x.1 = d))).map (·.2))

/-- The planned partner of an electrical link. -/
def State.plannedOf (s : State) (fd k : Nat) : Option Coord :=
  s.flash.settings.plan.bind (fun p =>
    (p.partners.find? (fun x => decide (x.1.toNat = fd ∧ x.2.1.toNat = k))).map (·.2.2))

/-- A link that the plan gives to `c`, of the same division and ply as link `k`. -/
def State.otherLink (s : State) (fd k : Nat) (c : Coord) : Option Nat :=
  s.flash.settings.plan.bind (fun p =>
    (p.partners.find? (fun x => decide (x.2.2 = c ∧ ¬(x.1.toNat = fd ∧ x.2.1.toNat = k)
      ∧ s.division x.1.toNat (x.2.1.toNat / 4) = s.division fd (k / 4)
      ∧ (s.link x.1.toNat x.2.1.toNat).lanes.length = (s.link fd k).lanes.length))).map
      (fun x => linkKey x.1.toNat x.2.1.toNat))

/-- Statuses of CAST.DISC. -/
def dscOk : BitVec 3 := 1
def dscMissing : BitVec 3 := 2
def dscUnplanned : BitVec 3 := 3
def dscCrossed : BitVec 3 := 4
def dscHeld : BitVec 3 := 5
def dscForeign : BitVec 3 := 6
def dscMismatch : BitVec 3 := 7

/-- Protocol revisions within the window (R325). -/
def State.revOk (s : State) (rev : Byte) : Bool :=
  decide ((Int.ofNat rev.toNat - Int.ofNat s.cast.protoRev.toNat).natAbs ≤ 1)

/-- The plan accepts swapped cables. -/
def State.swapsOk (s : State) : Bool := (s.flash.settings.plan.map (·.acceptSwaps)).getD false

/-- Link `k` of a die against the plan; its partner has sent a digest and a revision. -/
def State.judgeLink (s : State) (fd k : Nat) : BitVec 3 :=
  let l := s.link fd k
  let found := s.coordOfDigest l.partnerDigest
  if l.lanes.isEmpty then (if (s.plannedOf fd k).isSome then dscMissing else 0)
  else if !s.revOk l.partnerRev then dscMismatch
  else match s.plannedOf fd k, found with
    | none, _ => dscUnplanned
    | some c, some c' =>
      if c = c' then dscOk
      else if (s.otherLink fd k c').isSome then (if s.swapsOk then dscCrossed else dscHeld) else dscForeign
    | some _, none => dscForeign

/-- The discovery entry of a link. -/
def State.setDisc (s : State) (fd k : Nat) (st : BitVec 3) : State :=
  let l := s.link fd k
  let d : Disc := { planned := (s.plannedOf fd k).getD 0x7FF,
                    found := if l.lanes.isEmpty then 0x7FF else (s.coordOfDigest l.partnerDigest).getD 0x7FF,
                    status := st, rev := l.partnerRev }
  { s with cast := { s.cast with disc := tabSet (fun _ => {}) s.cast.disc (48 * fd + k) d } }

/-- Route choices of a die that name link `old` name link `new` (CROSSED accepted). -/
def swapChoice (old new : Nat) (e : RouteEntry) : RouteEntry :=
  { e with choices := e.choices.map (fun c => if c.1.toNat = old then (BitVec.ofNat 8 new, c.2) else c) }

/-- An UNPEN has named the unit that a link reaches. -/
def State.unpenned (s : State) (fd k : Nat) : Bool := s.shep.unpen.any (fun u => decide (u.2 = (s.link fd k).partnerDigest))

/-- The link fence of a repaired unit is lifted at its identity check (R269). -/
def State.unpenLink (s : State) (fd k : Nat) : State :=
  if s.unpenned fd k then s.updLink fd k fun l => { l with fenced := false, penFence := false } else s

/-- A link is judged, and stands as its status says: up, up without routes, held down, or held in training; a swap accepted
and a link missing are reported to the pod manager (Table 12-10). -/
def State.settleLink (s : State) (fd k : Nat) : State :=
  let st := s.judgeLink fd k
  let s1 := s.setDisc fd k st
  let c := (s.coordOfDigest (s.link fd k).partnerDigest).getD 0x7FF
  if st = dscOk ∨ st = dscUnplanned ∨ st = dscCrossed then
    let s2 := (s1.updLink fd k fun l => { l with partner := c }).unpenLink fd k
    let s3 := if st = dscCrossed then ((match s.otherLink fd k c with
      | some key => if key / 176 = fd then s2.updFab fd fun f =>
          { f with routes := f.routes.map (fun (e : Nat × RouteEntry) => (e.1, swapChoice (key % 176) k e.2)) } else s2
      | none => s2).sendCtl 3 [fd, k, (s.link fd k).partnerDigest.toNat]) else s2
    if (s3.link fd k).state = 2 ∨ (s3.link fd k).state = 4 then s3 else s3.linkUp fd k
  else if st = dscHeld ∨ st = dscForeign then
    s1.updLink fd k fun l => { l with state := 6, partner := (s.coordOfDigest l.partnerDigest).getD 0x7FF }
  else if st = dscMismatch then s1.updLink fd k fun l => { l with state := 1 }
  else if st = dscMissing then (s1.updLink fd k fun l => { l with state := 7 }).sendCtl 6 [fd, k]
  else s1

/-! ### The identity check (R205, R211 to R213) -/

/-- A ring of a lane is misrouted: it parks and seeks again; a second time it is faulted, and where it is the
spare, on the slot on which the lane's own ring had misrouted twice, the slot is marked mismatched and reported. -/
def State.misroute (s : State) (q j : Nat) (tx : Bool) : State :=
  let n := q / 16
  let o := s.olane q j
  let r := (if tx then o.txRing else o.rxRing).toNat
  let e := elemOfRing q r tx
  let x := s.elem n e
  let s1 := (s.updSkein q fun k => { k with misroute := stickAdd k.misroute 1 }).updOlane q j fun o =>
    let o := { o with state := 6, txOk := false, rxOk := false }
    if tx then { o with misroutes := stickAdd o.misroutes 1 } else { o with rxMisroutes := stickAdd o.rxMisroutes 1 }
  let s2 := s1.updElem n e fun x => { x with misroutes := x.misroutes + 1 }
  let k : BitVec 3 := x.slot.setWidth 3
  if x.misroutes + 1 < 2 then s2.autoPark n e (some k) false
  else
    let s3 := (if r = 4 then s2 else s2.updOlane q j fun o =>
      if tx then { o with txLost := some k } else { o with rxLost := some k }).faultElem n e
    if r = 4 ∧ (if tx then o.txLost else o.rxLost) = some k then
      let bit : Byte := 1 <<< k.toNat
      let st := s3.flash.settings
      let st := { st with
        mismatch := tabSet (fun _ => (0 : Byte)) st.mismatch q (tabGet (fun _ => (0 : Byte)) st.mismatch q ||| bit) }
      ((({ s3 with flash := { s3.flash with settings := st } } : State).updSkein q fun x =>
        { x with mismatch := x.mismatch ||| bit }).raise (.mismatch q k) 3).sendCtl 2 [q, k.toNat]
    else s3

/-- The sender that the plan expects on the lane's receive slot. -/
def State.expected (s : State) (q j : Nat) : Option (Coord × BitVec 6) := (s.slotI q (s.olane q j).rxSlot.toNat).expectCoord

/-- The identity check is passed both ways: the lane is in service, and its strand joins a link (R205). -/
def State.laneServes (s : State) (fd i : Nat) (t : TrainInfo) : State :=
  let s1 := s.updOlane (32 * fd + i / 4) (i % 4) fun o =>
    { o with state := 5, txOk := true, rxOk := true, misroutes := 0, rxMisroutes := 0, txLost := none, rxLost := none }
  let s2 := s1.joinStrand fd i t.coord t.digest t.rev
  match s2.linkOfStrand fd i with
  | some k => s2.unpenLink fd k
  | none => s2

/-- A TRAIN flit on an optical lane in training: the identity it brings is reported back and judged, and so is what the far
end reports; while it has nothing to report yet, or the lane is under test, the lane waits (R211, Table 14-8). -/
def State.trainOptical (s : State) (fd i : Nat) (t : TrainInfo) : State :=
  let q := 32 * fd + i / 4
  let j := i % 4
  if (s.olane q j).state ≠ 4 then s
  else
    let s1 := (s.updOlane q j fun o => { o with heard := some (t.coord, t.skein), rxOk := true }).sendTrain q j
    if s.expected q j ≠ some (t.coord, t.skein) then s1.misroute q j false
    else match t.heard with
      | none => s1
      | some w => if w = (s.shep.coord, BitVec.ofNat 6 q) then (if s.underTest fd (192 + i) then s1 else s1.laneServes fd i t)
          else s1.misroute q j true

/-- What this module's TRAIN flits say on an electrical link (R315). -/
def State.ownTrain (s : State) : TrainInfo :=
  { coord := s.shep.coord, skein := 0, lane := 0, slot := 0, heard := none, digest := s.ownDigest, rev := s.cast.protoRev }

/-- A TRAIN flit on an electrical link that is not up: the partner is recorded and answered, and the link
settles once a plan is held (R315) and none of its lanes is under test (Table 14-8). -/
def State.trainElec (s : State) (fd k : Nat) (t : TrainInfo) : State :=
  let l := s.link fd k
  if l.state = 2 ∨ l.state = 4 then s
  else
    let s1 := (s.updLink fd k fun l => { l with
      partnerDigest := t.digest, partnerRev := t.rev, state := if l.state = 0 ∨ l.state = 5 then 1 else l.state }).emit
        (.flit fd k (sealFlit { type := ftTrain, seq := l.nextSeq } (some (trainData s.ownTrain))) (some (trainData s.ownTrain)))
    if s.cast.coordValid && !l.lanes.isEmpty && !l.lanes.any (fun i => s.underTest fd (16 * (k / 4) + i)) then s1.settleLink fd k else s1

/-- TRAIN_FLIT: its codewords and its CRC are counted on its context as any flit's. -/
def execTrainFlit (fd : Nat) (k : Nat) (h : FlitHdr) (i : TrainInfo) (s : State) : Res :=
  if !(s.pwr.transit && decide (fd < 2 ∧ k < 176)) then .next s
  else
    let s1 := s.countFec fd k h
    if !flitGood h (some (trainData i)) then .next (s1.countCrc fd k)
    else if h.type ≠ ftTrain then .next s1
    else if k < 48 then .next (s1.trainElec fd k i)
    else .next (s1.trainOptical fd (k - 48) i)

/-- IDENTITY_REPORT_TIMEOUT: no report within 3 ms of training. -/
def execIdentityReportTimeout (fd : Nat) (k : Nat) (s : State) : Res :=
  let q := 32 * fd + (k - 48) / 4
  let j := (k - 48) % 4
  doIf (s.pwr.transit && decide (fd < 2 ∧ 48 ≤ k ∧ k < 176 ∧ (s.olane q j).state = 4)
    && s.passed (s.olane q j).trainSince 300000) s (s.misroute q j true)

/-! ### Keepalives (R186, R187) -/

/-- The payload of a KEEPALIVE (R186; layout: log entry 20). -/
def State.keepalivePayload (s : State) (l : Link) : List Byte :=
  sliceB (leBytes 2 s.shep.coord.toNat ++ [l.aliveTx, BitVec.ofNat 8 ((if s.shep.penned then 1 else 0)
    + (if s.shep.draining then 2 else 0) + (if l.retrainTx then 4 else 0))] ++ leBytes 8 s.ownDigest.toNat) 0 64

/-- KEEPALIVE_SEND: after 10 000 ticks without a CTL packet; a module with a hard fault sends none (R262). -/
def execKeepaliveSend (fd : Nat) (k : Nat) (s : State) : Res :=
  let l := s.link fd k
  doIf (s.pwr.transit && decide (fd < 2 ∧ k < 176 ∧ (l.state = 2 ∨ l.state = 4)) && !l.member && !s.shep.hard
    && s.passed l.lastCtlTx 10000) s
    ((s.updLink fd k fun l => { l with aliveTx := l.aliveTx + 1, lastCtlTx := s.tb }).sendOnLink fd k kKeepalive 0
      (s.keepalivePayload l))

/-- A keepalive with another digest: the link is crossed and judged again (R187, R326). -/
def State.crossedLink (s : State) (fd k : Nat) (digest : Word) : State :=
  let s1 := (s.updLink fd k fun l => { l with state := 6, partnerDigest := digest }).raise .crossed 3
  if 48 ≤ k then s1.sendCtl 3 [fd, k, digest.toNat]
  else
    let st := s1.judgeLink fd k
    if st = dscCrossed ∨ st = dscOk then s1.settleLink fd k
    else (s1.setDisc fd k st).sendCtl 3 [fd, k, digest.toNat]

/-- KEEPALIVE: fenced, or judged by the alive-counter rule; then its digest is checked. -/
def execKeepalive (fd : Nat) (k : Nat) (sender : Coord) (alive : Byte) (_penned _draining retrain : Bool) (digest : Word)
    (s : State) : Res :=
  let l := s.link fd k
  if !(s.pwr.transit && decide (fd < 2 ∧ k < 176) && l.live) then .next s
  else if l.fenced || (s.fab fd).fenced sender then .next (s.countDrop fd dFenced)
  else
    let r := l.aliveRx.hear alive
    let s1 := s.setLink fd k { l with aliveRx := r.1 }
    match r.2 with
    | .accepted n =>
      let s2 := s1.updLink fd k fun l => { l.retrain (retrain || l.retrainRx) s.tb with lastCtlRx := s.tb, silent := false }
      let s3 := if n = 0 then s2 else s2.raise (.aliveLost fd k n) 1
      .next (if digest = l.partnerDigest then s3 else s3.crossedLink fd k digest)
    | _ => .next s1

/-- PARTNER_SILENT: 1 ms without a CTL packet is a class (a) report, on a link that has failed too, but not on a
draining link, nor for a commanded retrain until its 10 ms have gone (R164, R186). -/
def execPartnerSilent (fd : Nat) (k : Nat) (s : State) : Res :=
  let l := s.link fd k
  let retrain := (l.retrainTx || l.retrainRx) && !s.passed l.retrainAt 1000000
  doIf (s.pwr.transit && decide (fd < 2 ∧ k < 176 ∧ (l.state = 2 ∨ l.state = 3 ∨ l.state = 5 ∨ l.state = 7) ∧ l.drainReason = 0)
    && !l.member && !retrain && !l.silent && s.passed l.lastCtlRx 100000) s
    (let s1 := s.updLink fd k fun l => { l with silent := true }
     if s1.shepOn && s1.shep.hasCoord then s1.ownReports.verdictAll else s1)

/-! ### Drain (R190) -/

/-- A control packet of a neighbour comes over link `k`: neither the link nor its source is fenced (R189). -/
def State.ctlFenced (s : State) (fd k : Nat) (src : Coord) : Bool := (s.link fd k).fenced || (s.fab fd).fenced src

/-- DRAIN: links to the sender leave route choices, those with a retrain announced under reason 3. -/
def execDrain (fd k : Nat) (src : Coord) (reason : Byte) (s : State) : Res :=
  if !(s.pwr.transit && decide (fd < 2 ∧ k < 176) && (s.link fd k).live) then .next s
  else if s.ctlFenced fd k src then .next (s.countDrop fd dFenced)
  else .next ((s.linksTo src).foldl (fun (s : State) key =>
    s.updLink (key / 176) (key % 176) fun l =>
      if reason = 3 ∧ l.retrainRx = false then l
      else { l with drainReason := reason, state := if l.state = 2 then 4 else l.state }) s)

/-- READY: draining for a reset or a bind-off ends, silence reports count again (R263), and the fence of a coordinate admitted is lifted,
not within its 4 ms hold (R189, R284). READY of a fenced coordinate that no ADMIT has named is dropped. -/
def execReady (fd k : Nat) (src : Coord) (s : State) : Res :=
  let admitted := s.shep.admits.any (fun a => decide (a.coord = src))
  if !(s.pwr.transit && decide (fd < 2 ∧ k < 176) && (s.link fd k).live) then .next s
  else if (s.link fd k).fenced || ((s.fab fd).fenced src && !admitted) then .next (s.countDrop fd dFenced)
  else
    let s1 := (s.linksTo src).foldl (fun (s : State) key =>
      if (s.link (key / 176) (key % 176)).drainReason = 3 then s else s.endDrain (key / 176) (key % 176)) s
    let s2 := s1.updObsC src fun o => { o with suspended := false }
    .next (if !admitted then s2
      else if s2.coordHeld src then
        ({ s2 with shep := { s2.shep with
          admits := s2.shep.admits.map (fun (a : Admission) => if a.coord = src then { a with ready := true } else a) } } : State).countHold fd 3
      else s2.liftCoord src)

/-- An ADMIT has named the coordinate, and its spare has sent READY. -/
def State.admittedReady (s : State) (c : Coord) : Bool := s.shep.admits.any (fun a => decide (a.coord = c) && a.ready)

/-- COORDINATE_HOLD_END (R174): a READY that came within the hold now lifts the fence. -/
def execCoordinateHoldEnd (c : Coord) (s : State) : Res :=
  doIf (s.shepOn && s.pwr.transit && (s.penTime c).isSome && !s.coordHeld c) s
    (if s.admittedReady c then s.liftCoord c else s)

/-- FENCE_WRITE: the Shepherd's own writes; a coordinate fence is not lifted within the hold (Table 7-6). A fence that a
PEN has set is lifted by ADMIT alone, or, of a link, by UNPEN alone (R269). -/
def execFenceWrite (coord : Option Coord) (link : Option (Nat × Nat)) (set : Bool) (s : State) : Res :=
  if !(s.shepOn && s.pwr.transit) then .next s
  else
    let s1 := match coord with
      | some c =>
        if !set && s.coordHeld c then (s.countHold 0 3).countHold 1 3
        else if set then (s.fenceCoord c true).endDrains c
        else if (s.penTime c).isNone || s.admittedReady c then s.liftCoord c else s
      | none => s
    .next (match link with
      | some (fd, k) =>
        if decide (fd < 2 ∧ k < 176) && (set || !(s1.link fd k).penFence || s1.unpenned fd k) then s1.fenceLink fd k set else s1
      | none => s1)

/-! ### Transit and routes (R169, R170, R175, R179) -/

/-- The packet has reached its intermediate group. -/
def State.viaHere (s : State) (p : Packet) : Packet :=
  if p.nonmin && !p.viaDone && decide (s.ownGroup = p.interGroup.toNat) then { p with viaDone := true } else p

/-- TRANSIT_PACKET: a packet that link `k` has received whole, `residence` ticks after its first flit. -/
def execTransitPacket (fd : Nat) (k : Nat) (p : Packet) (residence : Nat) (s : State) : Res :=
  let l := s.link fd k
  if !(s.pwr.transit && decide (fd < 2 ∧ k < 176) && l.live) then .next s
  else if l.fenced && !s.ownProbe p then .next (s.dropPacket fd dFenced p)
  else
    let s1 := if s.forUs fd p then s else { s with pwr := { s.pwr with lastTransit := s.tb } }
    .next (s1.forward fd { s.viaHere p with age := addAge p.age residence })

/-- ROUTE_ENTRY_WRITE: a base entry, or entry `i` of the overlay `o` under its job key, written whole. -/
def execRouteEntryWrite (fd : Nat) (overlay : Option (Nat × BitVec 16 × Nat)) (coord : Coord) (e : RouteEntry)
    (s : State) : Res :=
  let e1 := { e with choices := e.choices.take 4 }
  match overlay with
  | none => doIf (s.shepOn && s.pwr.transit && decide (fd < 2)) s (s.setRoute fd coord e1)
  | some (o, job, i) =>
    doIf (s.shepOn && s.pwr.transit && decide (fd < 2 ∧ o < 8 ∧ i < 512)) s
      (s.updFab fd fun f =>
        let old : Overlay := tabGet (fun _ => {}) f.ovls o
        let entries := if old.jobId = job then old.entries else []
        let v : Overlay := { jobId := job, entries := tabSet (fun _ => (0, {})) entries i (coord, e1) }
        { f with ovls := tabSet (fun _ => {}) f.ovls o v })

/-! ### DROP (R172) -/

/-- Reason and kind that a DROP names. -/
def dropReason (p : Packet) : Nat := (p.arg.setWidth 8 : Byte).toNat
def droppedKind (p : Packet) : Byte := p.arg.extractLsb' 8 8

/-- A loss that leaves a channel or a hurdle incomplete: FABRIC_LOSS on the job's rings. -/
def State.fabricLoss (s : State) (p : Packet) (ep hur : Nat) : State :=
  s.jobEvent p.jobId 6 [(16, 2, p.jobId.toNat), (18, 1, p.jobGen.toNat), (20, 2, p.dstTile.toNat), (22, 1, ep),
    (24, 2, hur), (26, 1, dropReason p)]

/-- What a DROP of each kind does. -/
def State.dropped (s : State) (fd : Nat) (p : Packet) : State :=
  let k := droppedKind p
  let tag := p.b23.toNat % 16
  let i := p.ident.toNat
  let wait := fun (t : Nat) (kind : XferKind) =>
    if s.awaited t p.ctx.toNat tag i kind p.jobId p.jobGen then
      s.updCtx t p.ctx.toNat fun x => x.answered tag i 4
    else s.countDrop fd dLate
  if k = kPut then wait p.srcTile.toNat .fabPut
  else if k = kGetReq then wait p.srcTile.toNat .fabGet
  else if k = kPutAck then wait p.dstTile.toNat .fabPut
  else if k = kGetData then wait p.dstTile.toNat .fabGet
  else if k = kRedUp ∨ k = kRedDown then
    match s.slotOfJob p.jobId with
    | some j => s.redFail j (p.ident.setWidth 12) (s.hurGenOf p.jobId (p.ident.setWidth 12)) 4 true
    | none => s
  else if k = kChEntry ∨ k = kChCredit then s.fabricLoss p p.ep.toNat 0xFFFF
  else if k = kHurArrive ∨ k = kHurRelease then s.fabricLoss p 0xFF (i % 4096)
  else if k = kCkpt ∨ k = kCkptAck then s.resendGran p (decide (k = kCkptAck))
  else s

/-- DROP. -/
def execDrop (fd : Nat) (p : Packet) (s : State) : Res :=
  rxPacket kDrop fd p none s fun s => s.dropped fd p

/-! ### Probes (R75, R272) -/

/-- PROBE: the named tile answers unless it has failed or its island is down, whatever its contexts do; the
Shepherd's own packets around a loop are counted. -/
def execProbe (fd : Nat) (p : Packet) (s : State) : Res :=
  let t := p.dstTile.toNat
  rxPacket kProbe fd p (if t < 9600 then some (partOfTile t) else none) s fun s =>
    if s.isMine p.src then
      match s.shep.runs.find? (fun r => !r.loopback) with
      | some r => s.probeAnswered r.subject fun r => { r with looped := r.looped + 1 }
      | none => s
    else if decide (t < 9600) && s.dieOn (dieOfTile t) && !(s.tile t).failed && !s.tileAbsent t then
      (s.emit (.probeEcho t true)).sendPacket fd
        { dst := p.src, src := 0, kind := kProbeReply, vc := 3, dstTile := p.srcTile, srcTile := p.dstTile, ident := p.ident }
    else s

/-- PROBE_REPLY. -/
def execProbeReply (fd : Nat) (p : Packet) (s : State) : Res :=
  rxPacket kProbeReply fd p none s fun s =>
    s.probeAnswered p.src fun r =>
      if r.answered.contains p.srcTile.toNat then r else { r with answered := r.answered ++ [p.srcTile.toNat] }

end Sys2Proof.Machine
end

