-- ==== Sys2Proof/Machine/Tally.lean ====
section
/-! DEFINITION. The Tally Book, the black-box ring and the lane tests (14). -/

namespace Sys2Proof.Machine

/-- An empty record (Table 14-3, code 0). -/
def noRec : Nat → Rec := fun _ => {}

/-- Records in use. -/
def Tally.used (t : Tally) : Nat := t.book.length

/-- The index of the record keyed (code, source) (R364). -/
def findRec (book : Tab Rec) (code source : BitVec 16) : Option Nat :=
  (book.find? (fun p => decide (p.2.code = code ∧ p.2.source = source))).map (·.1)

/-- Rate and burst of a code (R368): its override, or the default; 0 is replaced by 1. -/
def rateOf (t : Tally) (code : BitVec 16) : Nat × Nat :=
  match t.overrides.find? (fun p => decide (p.2.1 = code ∧ code ≠ 0)) with
  | some p => (max 1 p.2.2.1.toNat, max 1 p.2.2.2.toNat)
  | none => (max 1 t.rateDef.toNat, max 1 t.burstDef.toNat)

/-- Tokens of a code: its bucket, or a new full one (R368). -/
def tokensOf (t : Tally) (code : BitVec 16) : Nat :=
  match t.buckets.find? (fun p => p.1 = code) with
  | some p => p.2.1
  | none => (rateOf t code).2

/-- The tick from which the next token of a code is timed: its bucket's, or now where the bucket is full (R368). -/
def State.tokenFrom (s : State) (code : BitVec 16) : Word :=
  match s.tally.buckets.find? (fun p => p.1 = code) with
  | some p => if (rateOf s.tally code).2 ≤ p.2.1 then s.tb else p.2.2
  | none => s.tb

/-- Ticks in which a bucket gains a token: 1/rate s, in whole ticks (R368; log entry 60). -/
def tokenTicks (rate : Nat) : Nat := (100000000 + rate - 1) / rate

/-- The buckets with this code's set to `n` tokens, the next one timed from `since`. -/
def setBucket (bs : List (BitVec 16 × Nat × Word)) (code : BitVec 16) (n : Nat) (since : Word) :
    List (BitVec 16 × Nat × Word) :=
  (code, n, since) :: bs.filter (fun p => decide (p.1 ≠ code))

/-- The bin of a value (R365). -/
def binOf (v : BitVec 32) : Nat :=
  if v = 0 then 0 else min 15 (Nat.log2 v.toNat + 1)

/-- Two severities: the larger. -/
def sevMax (a b : BitVec 3) : BitVec 3 := if a.toNat < b.toNat then b else a

/-- An occurrence refused by rate: it counts in suppressed and nothing else (R368). -/
def Rec.refuse (r : Rec) : Rec :=
  let n := stickAdd r.suppressed 1
  { r with suppressed := n, ovf := r.ovf || decide (n = stickMax 16) }

/-- An occurrence recorded in a record (R366); `fresh`: the record is new. One that refused occurrences alone have made
has no first yet. -/
def Rec.note (r : Rec) (fresh : Bool) (tb : Word) (e : Event) : Rec :=
  let count := stickAdd r.count 1
  let r1 := { r with count := count, last := tb, first := if fresh || decide (r.count = 0) then tb else r.first,
                     severity := sevMax r.severity e.severity,
                     ovf := r.ovf || decide (count = stickMax 32) }
  match e.value with
  | none => r1
  | some v =>
    let sum := stickAdd r.sum v.toNat
    let b := binOf v
    let bin := stickAdd (tabGet (fun _ => (0 : Byte)) r.bins b) 1
    let isFirst := r.valued = false || r.count = 0
    { r1 with valued := true, sum := sum,
              min := if isFirst || decide (v.toNat < r.min.toNat) then v else r.min,
              max := if isFirst || decide (r.max.toNat < v.toNat) then v else r.max,
              bins := tabSet (fun _ => (0 : Byte)) r.bins b bin,
              ovf := r1.ovf || decide (sum = stickMax 64) || decide (bin = stickMax 8) }

/-- The first index of the book that holds no record. -/
def freeIndex (book : Tab Rec) : Nat → Nat → Option Nat
  | 0, _ => none
  | fuel + 1, i => if (book.any (fun p => p.1 = i)) then freeIndex book fuel (i + 1) else some i

/-- The record that a new key overwrites in a full book (R367): of the lowest severity that is not
above `sev`, and among equals the one of the oldest last. -/
def victim (sev : BitVec 3) : Tab Rec → Option (Nat × Rec)
  | [] => none
  | (i, r) :: t =>
    match victim sev t with
    | none => if r.severity.toNat ≤ sev.toNat then some (i, r) else none
    | some (j, q) =>
      if r.severity.toNat ≤ sev.toNat
          ∧ (r.severity.toNat < q.severity.toNat
              ∨ (r.severity = q.severity ∧ r.last.toNat ≤ q.last.toNat)) then some (i, r)
      else some (j, q)

/-- The record a new key starts with. -/
def newRec (e : Event) : Rec := { code := e.code, source := e.source, severity := e.severity }

/-- The buckets after a record of `code` has gone: with the last record goes the bucket (R368). -/
def dropBucket (book : Tab Rec) (bs : List (BitVec 16 × Nat × Word)) (code : BitVec 16) : List (BitVec 16 × Nat × Word) :=
  if book.any (fun p => p.2.code = code) then bs else bs.filter (fun p => decide (p.1 ≠ code))

/-- An event, with its tick and rate decision, applied to the book (R364 to R368). -/
def State.record (s : State) (tb : Word) (e : Event) (refused : Bool) : State :=
  let t := s.tally
  let s := if refused then
      let n := stickAdd t.suppressed 1
      { s with tally := { t with suppressed := n } }.stuck 0x180020 t.suppressed n
    else s
  let t := s.tally
  match findRec t.book e.code e.source with
  | some i =>
    let r := tabGet noRec t.book i
    { s with tally := { t with book := tabSet noRec t.book i
                                 (if refused then r.refuse else r.note false tb e) } }
  | none =>
    let r := if refused then (newRec e).refuse else (newRec e).note true tb e
    match freeIndex t.book 8192 0 with
    | some i => { s with tally := { t with book := tabSet noRec t.book i r } }
    | none =>
      match victim e.severity t.book with
      | some (i, old) =>
        let book := tabSet noRec t.book i r
        { s with tally := { t with book := book, buckets := dropBucket book t.buckets old.code } }
      | none =>
        let n := stickAdd t.lost 1
        { s with tally := { t with lost := n, buckets := dropBucket t.book t.buckets e.code } }.stuck
          0x180018 t.lost n

/-- An entry enters the ring of 4 096 (R374). -/
def Tally.enter (t : Tally) (x : Entry) : Tally :=
  { t with ring := (if t.ring.length < 4096 then t.ring else t.ring.drop 1) ++ [x],
           bbNewest := if t.ring.isEmpty then 0 else t.bbNewest + 1 }

/-- A severity 5 event is fatal (R363). -/
def evFatal (e : Event) : Bool := e.severity = 5

/-- The own events of the Tally Book (Table 14-6), of the Shepherd die (code 99). -/
def tallyOwn (code : BitVec 16) (sev : BitVec 3) (v : BitVec 32) : Event :=
  { code := code, source := 99, severity := sev, value := some v }

/-- A fatal entry that finds the ring running (R375): it freezes the ring when the fatal area is
free; else the write it would bring is skipped and counted. Answers whether RING_SKIPPED is due. -/
def Tally.fatalFreeze (t : Tally) (held : Bool) : Tally × Bool :=
  if held then ({ t with bbSkipped := stickAdd t.bbSkipped 1 }, true)
  else ({ t with bbFrozen := true, bbCause := 1, bbWriting := true, bbReleased := false }, false)

/-- An event arrives at the ring (R374, R375). -/
def State.ringArrive (s : State) (x : Entry) : State × Bool :=
  let t := s.tally
  if t.bbFrozen then
    if t.hold.length < 256 then ({ s with tally := { t with hold := t.hold ++ [x] } }, false)
    else
      let n := stickAdd t.bbLost 1
      ({ s with tally := { t with bbLost := n } }.stuck 0x180208 t.bbLost n, false)
  else
    let t := t.enter x
    if evFatal x.ev then
      let p := t.fatalFreeze s.flash.fatalHeld
      ({ s with tally := p.1 }, p.2)
    else ({ s with tally := t }, false)

/-- Staging is in force: a freeze, or the copy into the shadow (R370, R372). -/
def Tally.staged (t : Tally) : Bool := t.freeze || t.copying

/-- Apply the staged events in order, with their own ticks (R370). -/
def State.applyStaged (s : State) : State :=
  let es := s.tally.staging
  es.foldl (fun s x => s.record x.tb x.ev x.refused) { s with tally := { s.tally with staging := [] } }

/-- One event as it arrives: the rate decision (R368), the ring (R374), and the book or the staging
buffer (R370); it does not look at R371. -/
def State.arrive (s : State) (e : Event) : State × Bool :=
  let t := s.tally
  let n := tokensOf t e.code
  let refused := !evFatal e && decide (n = 0)
  let t := { t with buckets := setBucket t.buckets e.code (n - 1) (s.tokenFrom e.code) }
  let x : Entry := { tb := s.tb, ev := e, refused := refused }
  let (s, skipped) := { s with tally := t }.ringArrive x
  let t := s.tally
  if t.staged then
    if t.staging.length < 256 then ({ s with tally := { t with staging := t.staging ++ [x] } }, skipped)
    else
      let n := stickAdd t.stageOvf 1
      ({ s with tally := { t with stageOvf := n, stagedOver := t.stagedOver + 1 } }.stuck
        0x180010 t.stageOvf n, skipped)
  else (s.record s.tb e refused, skipped)

/-- An event of the Tally Book itself is recorded like any other. -/
def State.own (s : State) (code : BitVec 16) (sev : BitVec 3) (v : BitVec 32) : State :=
  (s.arrive (tallyOwn code sev v)).1

/-- The end of a freeze or of the staging of a shadow copy (R370): staged events are applied, then one
STAGE_OVERFLOW when the buffer was found full. -/
def State.endStaging (s : State) : State :=
  if s.tally.staged then s
  else
    let n := s.tally.stagedOver
    let s := s.applyStaged
    if n = 0 then s
    else { s with tally := { s.tally with stagedOver := 0 } }.own 0xF002 2 (BitVec.ofNat 32 n)

/-- The event that a raised event of a code fixed by the spec must be (Table 14-1, Table 14-6). -/
def EvKind.code : EvKind → Option (BitVec 16)
  | .castReport st => some (0x6000 + st.setWidth 16)
  | .counterStuck _ => some 0xF001
  | .aliveLost _ _ _ => some 0x4020
  | _ => none

/-- The value that a raised event carries by the spec (Table 14-6, R378). -/
def EvKind.value : EvKind → Option (BitVec 32)
  | .counterStuck off => some (BitVec.ofNat 32 off)
  | .aliveLost _ _ n => some (BitVec.ofNat 32 n)
  | _ => none

/-- The event `e` can be the one that a block raised. -/
def Raised.fits (r : Raised) (e : Event) : Bool :=
  decide (r.severity = e.severity) && (r.kind.value.isNone || decide (r.kind.value = e.value)) &&
    (match r.kind.code with
      | some c => decide (c = e.code)
      | none => true)

/-- TALLY_EVENT (R363 to R371, R374, R375): the event at the head of those raised, or one that
firmware hands over, is judged, recorded and entered in the ring; a fatal event ends a freeze,
brings a mirror, freezes the ring and sets the fatal cause. Code 0 is never used. -/
def execTallyEvent (e : Event) (s : State) : Res :=
  let s0 := match s.raised with
    | [] => s
    | r :: rs => if r.fits e then { s with raised := rs } else s
  let s1 := if evFatal e && s0.tally.freeze then
      { s0 with tally := { s0.tally with freeze := false, freezeBroken := true } }.endStaging
    else s0
  let (s2, skipped) := s1.arrive e
  let s3 := if skipped then s2.own 0xF005 3 (s2.tally.bbSkipped.setWidth 32) else s2
  let s4 := if evFatal e then
      let s := { s3 with tally := { s3.tally with mirrorDue := true } }.misc 3
      if s.mgmt.ibiEn && s.mgmt.dynAddr.isSome then s.emit (.ibi 2) else s
    else s3
  doIf (s.pwr.aux && decide (e.code ≠ 0)) s s4

/-- TOKEN_REFILL (R368): the bucket of a code gains one token every 1/rate s, and none while full. -/
def execTokenRefill (code : BitVec 16) (s : State) : Res :=
  let t := s.tally
  match t.buckets.find? (fun p => p.1 = code) with
  | none => .next s
  | some p =>
    let k := tokenTicks (rateOf t code).1
    doIf (s.pwr.aux && decide (p.2.1 < (rateOf t code).2) && s.passed p.2.2 k) s
      { s with tally := { t with buckets := setBucket t.buckets code (p.2.1 + 1) (p.2.2 + BitVec.ofNat 64 k) } }

/-- The 64 stored bytes of a record, less its CRC, and bins 12-15 (Table 14-3, R365). -/
def recBytes (r : Rec) : List Byte :=
  let flags : Nat := r.severity.toNat + (if r.ovf then 8 else 0) + (if r.prior then 16 else 0)
    + (if r.valued then 32 else 0)
  leBytes 2 r.code.toNat ++ leBytes 2 r.source.toNat ++ [BitVec.ofNat 8 flags, 0]
    ++ leBytes 2 r.suppressed.toNat ++ leBytes 4 r.count.toNat ++ leBytes 4 0
    ++ leBytes 8 r.first.toNat ++ leBytes 8 r.last.toNat ++ leBytes 4 r.min.toNat
    ++ leBytes 4 r.max.toNat ++ leBytes 8 r.sum.toNat
    ++ (List.range 16).map (fun b => tabGet (fun _ => (0 : Byte)) r.bins b)

/-- The 68 bytes that the window presents (R365): bytes 0-63 and the CRC over them. -/
def winBytes (r : Rec) : List Byte := recBytes r ++ leBytes 4 (crc32c (recBytes r)).toNat

/-- The book that TALLY.CTL.source selects (R369). -/
def State.bookOf (s : State) : Tab Rec :=
  match s.tally.source.toNat with
  | 0 => s.tally.book
  | 1 => ((s.flash.mirrors.filter (·.complete)).map (·.book)).getD []
  | 2 => ((s.flash.mirrors2.filter (·.complete)).map (·.book)).getD []
  | _ => []

/-- The record at an index is latched into TALLY.WIN (R369). -/
def State.latch (s : State) (i : BitVec 13) : State :=
  { s with tally := { s.tally with cursor := i, win := winBytes (tabGet noRec s.bookOf i.toNat) } }

/-- CURSOR_WRITE (R369). -/
def execCursorWrite (index : BitVec 13) (s : State) : Res := doIf s.pwr.aux s (s.latch index)

/-- WINDOW_AUTO_ADVANCE (R369): the last window word is read; with auto_inc the cursor advances and
the next record is latched. -/
def execWindowAutoAdvance (s : State) : Res :=
  let s1 := s.emit (.window (BitVec.ofNat 32 (fieldB s.tally.win 64 4)))
  doIf s.pwr.aux s (if s.tally.autoInc then s1.latch (s.tally.cursor + 1) else s1)

/-- FREEZE (R370): recording into the book stops; events are staged. -/
def execFreeze (s : State) : Res :=
  doIf (s.pwr.aux && !s.tally.freeze) s { s with tally := { s.tally with freeze := true, freezeAt := s.tb } }

/-- UNFREEZE (R370): the staged events are applied in order, before any new event. -/
def execUnfreeze (s : State) : Res :=
  doIf (s.pwr.aux && s.tally.freeze) s { s with tally := { s.tally with freeze := false } }.endStaging

/-- FREEZE_TIMEOUT (R370): 100 000 000 ticks after it was set, a freeze ends by itself. -/
def execFreezeTimeout (s : State) : Res :=
  doIf (s.pwr.aux && s.tally.freeze && s.passed s.tally.freezeAt 100000000) s
    { s with tally := { s.tally with freeze := false, freezeTimeout := true } }.endStaging

/-- The sequence of the newest mirror. -/
def State.mirrorSeq (s : State) : BitVec 32 := (s.flash.mirrors.map (·.seq)).getD 0

/-- MIRROR (R372): every 10 minutes, and after a fatal event, the book is copied into the shadow while
events are staged; during a reader's freeze it waits. -/
def execMirror (s : State) : Res :=
  let t := s.tally
  let due := t.mirrorDue || s.passed t.lastMirror 60000000000
  if s.pwr.aux && due && !t.copying && !t.mirroring then
    if t.freeze then .next { s with tally := { t with mirrorDue := true } }
    else .next { s with tally := { t with
      shadow := some { seq := s.mirrorSeq + 1, tb := s.tb, life := s.flash.life, book := t.book },
      copying := true, mirrorDue := false, lastMirror := s.tb } }
  else .next s

/-- SHADOW_COPY_END (R370, R372): the copy ends and the events staged meanwhile are applied; the write over the older
area begins, which is not complete until it ends. -/
def execShadowCopyEnd (s : State) : Res :=
  doIf (s.pwr.aux && s.tally.copying) s
    ({ s with
      flash := { s.flash with mirrors2 := s.tally.shadow.map fun m => { m with complete := false } },
      tally := { s.tally with copying := false, mirroring := true } } : State).endStaging

/-- MIRROR_WRITE_END (R372): the older area, its CRC complete, becomes the newest mirror. -/
def execMirrorWriteEnd (s : State) : Res :=
  match s.tally.shadow with
  | none => .next s
  | some m =>
    doIf (s.pwr.aux && s.tally.mirroring) s
      { s with flash := { s.flash with mirrors := some m, mirrors2 := s.flash.mirrors },
               tally := { s.tally with mirroring := false, shadow := none, mirrorTime := m.tb } }

/-- Held entries enter the ring as it resumes (R375): a fatal one freezes it again when the area has
been released meanwhile, and the rest wait; else its write is skipped. Answers the skips. -/
def resume (held : Bool) : Tally → List Entry → Nat → Tally × Nat
  | t, [], n => ({ t with hold := [] }, n)
  | t, x :: xs, n =>
    let t := t.enter x
    if evFatal x.ev then
      let p := t.fatalFreeze held
      if p.2 then resume held p.1 xs (n + 1) else ({ p.1 with hold := xs }, n)
    else resume held t xs n

/-- One RING_SKIPPED event for each skipped write. -/
def State.skips (s : State) : Nat → State
  | 0 => s
  | n + 1 => (s.own 0xF005 3 (s.tally.bbSkipped.setWidth 32)).skips n

/-- RING_WRITE_END (R375, Table 14-8): the fatal area holds the ring as frozen until it is released;
the ring resumes and takes the held events in order. -/
def execRingWriteEnd (s : State) : Res :=
  let t := s.tally
  let area : RingCopy := { entries := t.ring, cause := t.bbCause, life := s.flash.life }
  let held := !t.bbReleased
  let s1 := { s with flash := { s.flash with fatalArea := some area, fatalHeld := held } }
  let p := resume held { t with bbFrozen := false, bbWriting := false, bbReleased := false } t.hold 0
  doIf (s.pwr.aux && t.bbFrozen && t.bbWriting) s ({ s1 with tally := p.1 }.skips p.2)

/-- BB_RELEASE (R375): the fatal area is freed; a release during the flash write counts at its end. -/
def execBbRelease (s : State) : Res :=
  doIf s.pwr.aux s
    (if s.tally.bbWriting then { s with tally := { s.tally with bbReleased := true } }
     else { s with flash := { s.flash with fatalHeld := false } })

/-- The 32 bytes of an entry (Table 14-4). -/
def entryBytes (x : Entry) : List Byte :=
  let e := x.ev
  let inJob := e.jobId ≠ 0
  leBytes 8 x.tb.toNat ++ leBytes 2 e.code.toNat ++ leBytes 2 e.source.toNat
    ++ [BitVec.ofNat 8 (e.severity.toNat + (if x.refused then 8 else 0) + (if inJob then 16 else 0)), e.jobGen]
    ++ leBytes 2 e.jobId.toNat ++ leBytes 4 (e.value.getD 0).toNat ++ leBytes 2 e.hurId.toNat
    ++ [e.hurGen, 0] ++ leBytes 8 e.row.toNat

/-- The entries that BB_CTL.source selects (R376). -/
def State.bbEntries (s : State) (source : BitVec 2) : List Entry :=
  match source.toNat with
  | 0 => s.tally.ring
  | 1 => (s.flash.fatalArea.map (·.entries)).getD []
  | 2 => (s.flash.powerArea.map (·.entries)).getD []
  | _ => []

/-- BB_CURSOR_WRITE: the entry counted back from the newest is latched (R376). -/
def execBbCursorWrite (cursor : BitVec 12) (source : BitVec 2) (s : State) : Res :=
  let es := (s.bbEntries source).reverse
  let w := ((es[cursor.toNat]?).map entryBytes).getD []
  doIf s.pwr.aux s
    { s with tally := { s.tally with bbCursor := cursor, bbSource := source, bbWin := w } }

/-! ### Lane tests (R379, R380) -/

/-- The link context that a fabric lane belongs to at present: an electrical lane through the division
of its port, an optical strand through the bundles' lane lists. -/
def laneLink (s : State) (fd lane : Nat) : Option Nat :=
  (List.range 176).find? (fun k =>
    if k < 48 then decide (lane < 192 ∧ k / 4 = lane / 16) && (s.link fd k).lanes.contains (lane % 16)
    else decide (192 ≤ lane) && (s.link fd k).lanes.contains (lane - 192))

/-- A lane can be tested (R380): an electrical lane whose link context is not up, an optical strand in no link; a PCIe
lane (GATE lanes 0-7) in loopback or compliance, an Ethernet lane while its port is down. No register shows either state:
a PCIe lane is taken while the link has no width, an Ethernet lane by the port's enable (log entry 13). -/
def State.testable (s : State) (fd lane : Nat) : Bool :=
  if fd = 2 then
    if lane < 8 then decide (s.gate.pcieWidth = 0)
    else if lane < 12 then !s.gate.port0En else !s.gate.port1En
  else
    s.pwr.transit && (match laneLink s fd lane with
      | some k => decide (lane < 192 ∧ (s.link fd k).state ≠ 2 ∧ (s.link fd k).state ≠ 4)
      | none => true)

/-- TEST_START (R380): the counters are zeroed and counting begins at the next lock; in any other state
of the lane the command is ignored and refused is set. -/
def execTestStart (fd : Nat) (lane : Nat) (s : State) : Res :=
  let t := s.test fd lane
  let t1 := if s.testable fd lane then
      { t with bits := 0, errs := 0, efr := 0, efrMax := 0, started := true, lock := false }
    else { t with refused := true }
  doIf (decide (fd = 2) || s.pwr.transit) s (s.setTest fd lane t1)

/-- CHECKER_LOCK (R379): 64 consecutive correct bits, and the checker counts from here. -/
def execCheckerLock (fd : Nat) (lane : Nat) (s : State) : Res :=
  let t := s.test fd lane
  doIf (decide (t.chk ≠ 0) && !t.lock && s.testable fd lane) s
    (s.setTest fd lane { t with lock := true, efr := 0 })

/-- CHECKER_LOCK_LOST (R379): more than 32 errors in 1 024 bits. What was counted while locked is
added: bits, errors, the longest error-free run, and with fec = 1 the uncorrectable codewords. -/
def execCheckerLockLost (fd : Nat) (lane : Nat) (bits errs efrMax uncorr : Nat) (s : State) : Res :=
  let t := s.test fd lane
  let b := stickAdd t.bits bits
  let e := stickAdd t.errs errs
  let base := if fd = 2 then 0x4000 + 0x40 * lane else 0xC00000 + 0x200000 * fd + 0xA0000 + 0x40 * lane
  let t1 : LaneTest := { t with
    lock := false, lockLost := stickAdd t.lockLost 1, bits := b, errs := e, efr := 0,
    efrMax := if t.efrMax.toNat < efrMax then stickAdd 0 efrMax else t.efrMax,
    uncorr := if t.fec then stickAdd t.uncorr uncorr else t.uncorr }
  doIf (t.lock && decide (32 < errs ∧ errs ≤ bits)) s (((s.setTest fd lane t1).stuck (base + 0x10) t.bits b).stuck (base + 0x18) t.errs e)

end Sys2Proof.Machine
end

