-- ==== Sys2Proof/Machine/Stage.lean ====
section
/-! DEFINITION. The end of a stage of cast-on, the hold states, service requests, and the twin sideband with its
handshake and the bind-off (12, R304 to R310, R327, R328; 11, R288, R300, R301; 16, R406, R415). -/

namespace Sys2Proof.Machine

/-! ### Limits, faults and hold states (Tables 12-1 and 12-5) -/

/-- The limit of a stage in ticks. -/
def stageLimit (st : Nat) : Nat := nth [5, 20, 10, 10, 120, 30, 60, 120, 600, 30] st 0 * 100000000

/-- Stage faults. -/
def sfTimeout : Nat := 1
def sfPuf : Nat := 2
def sfNoImage : Nat := 3
def sfPower : Nat := 4
def sfMissingDie : Nat := 5
def sfSignature : Nat := 6
def sfMemory : Nat := 7
def sfDieOut : Nat := 8
def sfNoEcs : Nat := 9
def sfCrook : Nat := 10
def sfNotInPlan : Nat := 11
def sfNoLinks : Nat := 12
def sfRefclk : Nat := 13
def sfNoOwner : Nat := 14

/-- The hold state that a fault of a stage leads to; TIMEOUT holds as the stage's other faults do. -/
def holdOf (st fault : Nat) : BitVec 2 :=
  if fault = sfTimeout then (if st < 2 then 1 else if st = 7 ∨ st = 8 then 3 else 2)
  else if fault = sfPuf ∨ fault = sfNoImage then 1
  else if fault = sfNoEcs ∨ fault = sfCrook ∨ fault = sfNotInPlan ∨ fault = sfNoLinks ∨ fault = sfNoOwner then 3
  else 2

/-- How a stage ends: result 0 PASS, 1 DEGRADED, 2 FAIL, 3 ABORTED; the detail words; whether an item was
fast-started; the hard-fault code that the fault brings. -/
structure StageEnd where
  result : Byte := 0
  fault : Nat := 0
  d : List (BitVec 32) := []
  fast : Bool := false
  hard : Option Byte := none
  deriving DecidableEq, Repr

/-- A count that the stage did not form (R307). -/
def noCount : BitVec 32 := 0xFFFFFFFF

/-! ### Service requests (R415) -/

/-- Main is switched off at once and stays off for the rest of this aux life (R406). -/
def State.serviceOff (s : State) : State :=
  let s1 := s.abortMain.sourcesSafe.mainOff
  { s1 with pwr := { s1.pwr with mainBarred := true, drain := none },
            cast := { s1.cast with running := false }, shep := { s1.shep with padWait := none } }

/-- What follows a service request, by the module's state; a running cast-on holds it back. -/
def State.serviceAct (s : State) : State :=
  let s0 := { s with gate := { s.gate with sig := { s.gate.sig with attnHeld := false } } }
  if s.shep.penned || s.cast.held || s.shep.hard then s0.serviceOff
  else if s.cast.running then { s with gate := { s.gate with sig := { s.gate.sig with attnHeld := true } } }
  else if s.cast.ready && s.twin.bindOff.isNone && s.pwr.drain.isNone then s0.beginBindOff none
  else s0

/-- A request held back is taken at the end of the run. -/
def State.serviceHeld (s : State) : State := if s.gate.sig.attnHeld then s.serviceAct else s

/-! ### Report records (R306, Table 12-3) -/

/-- The record of a stage that ends now. -/
def State.stageReport (s : State) (e : StageEnd) : Report :=
  { stage := s.cast.stage.setWidth 8, result := e.result, fault := BitVec.ofNat 16 e.fault, valid := true, fast := e.fast,
    island := (match s.cast.run with | .island p => some (BitVec.ofNat 3 p) | _ => none),
    retried := s.cast.retried, run := s.flash.run, start := s.cast.stageStart, duration := s.tb - s.cast.stageStart,
    hold := if e.result = 2 then (holdOf s.cast.stage.toNat e.fault).setWidth 32 else 0,
    d := e.d ++ List.replicate (7 - e.d.length) 0 }

/-- Severity of a report in the Tally Book, by its result. -/
def reportSeverity (result : Byte) : BitVec 3 := if result = 0 then 0 else if result = 1 then 2 else if result = 2 then 4 else 1

/-- A record is entered in the Tally Book and posted on the module ring. -/
def State.postReport (s : State) (st : Nat) : State :=
  let r := s.report st
  (s.raise (.castReport (BitVec.ofNat 8 st)) (reportSeverity r.result)).event 8 0x0B
    [(16, 48, leVal ((reportBytes r).take 48))]

/-- The record is written; Shepherd firmware, which starts after CO1, enters those of CO0 and CO1 then. -/
def State.writeReport (s : State) (e : StageEnd) : State :=
  let st := s.cast.stage.toNat
  let s1 := { s with cast := { s.cast with reports := tabSet (fun _ => {}) s.cast.reports st (s.stageReport e) } }
  if st = 0 ∨ (st = 1 ∧ e.result = 2) then s1
  else if st = 1 then (s1.postReport 0).postReport 1
  else s1.postReport st

/-! ### The end of a stage (R304, R308) -/

/-- Commands that wait for an island end with a status. -/
def State.endIslandCmds (s : State) (st : Status) : State :=
  let cmds := (s.cast.islandCmd.toList ++ s.cast.islandQ.filterMap (·.2))
  let s1 := cmds.foldl (fun (s : State) c => s.complete c.1 c.2 st) s
  { s1 with cast := { s1.cast with islandCmd := none, islandQ := [] } }

/-- The partition resets of the partitions that `p` names are over: their bands are no longer busy (R145). -/
def State.freeBusy (s : State) (p : Nat → Bool) : State :=
  let s1 := (List.range 8).foldl (fun (s : State) o => if p o then s.setPart o { s.part o with resetting := false } else s) s
  { s1 with bands := s1.bands.foldl (fun t e =>
      if p e.2.owner.toNat then tabSet (fun _ => ({} : Band)) t e.1 { e.2 with busy := false } else t) s1.bands }

/-- The module stops in a hold state: 2 switches every main domain off; an Indicator cause, and the request that
waited. -/
def State.holdState (s : State) (e : StageEnd) : State :=
  let st := s.cast.stage
  let h := holdOf st.toNat e.fault
  let s1 := { s with cast := { s.cast with
    running := false, held := true, hold := h, ready := false, failedStage := st, lastReport := s.tb,
    planWait := decide (st = 8 ∧ h = 3) } }
  let s2 := (s1.freeBusy fun _ => true).endIslandCmds stAborted
  let s3 := if h = 2 then s2.abortMain.sourcesSafe.mainOff else s2
  let s4 := match e.hard with | some c => s3.hardFault c | none => s3
  (s4.misc 2).serviceHeld

/-- The next stage starts; at the start of CO4 the full_next that this run used is cleared. -/
def State.startStage (s : State) (n : Nat) : State :=
  { s with
    cast := { s.cast with stage := BitVec.ofNat 4 n, stageStart := s.tb, firstTry := s.tb, ecsGone := 0,
                           redivided := s.cast.redivided && decide (n ≠ 6) },
    flash := { s.flash with fullNext := s.flash.fullNext && !(decide (n = 4) && s.cast.fullRun) } }

/-- The next island that waits comes up. -/
def State.nextIsland (s : State) : State :=
  match s.cast.islandQ with
  | [] => s
  | (p, cmd) :: rest => { s with cast := { s.cast with islandQ := rest, islandCmd := cmd } }.startRun (.island p)

/-- The envelope mode is set: in P3 the stacks refresh themselves and the islands stand at retention voltage;
out of it they leave both (R23, R24, R131). -/
def State.setMode (s : State) (m : BitVec 2) : State :=
  let was := s.pwr.mode
  let s1 := { s with pwr := { s.pwr with mode := m, vcore := if m = 3 then 500 else if was = 3 then 600 else s.pwr.vcore } }
  if s.pwr.memory && decide (m = 3 ∨ was = 3) then
    (List.range 8).foldl (fun (s : State) n => s.updMd n fun x => { x with selfRefresh := decide (m = 3), twinTraffic := none }) s1
  else s1

/-- A run has ended with its last stage: the command of an island completes; after CO9 the module is ready, in
the mode that the settings store records (R25), and what waited for the end of the run happens. -/
def State.endRun (s : State) : State :=
  let s1 := { s with cast := { s.cast with running := false } }
  match s.cast.run with
  | .island p =>
    let s0 := s1.freeBusy fun o => decide (o = p)
    let s2 := match s.cast.islandCmd with | some c => s0.complete c.1 c.2 stOk | none => s0
    ({ s2 with cast := { s2.cast with islandCmd := none } } : State).nextIsland
  | .refclk => (if s1.pwr.mode = 3 then s1.setMode 3 else s1).nextIsland
  | .paddock => s1.serviceHeld
  | _ =>
    let s0 := if s.pwr.modeDue then ({ s1 with pwr := { s1.pwr with modeDue := false } } : State).setMode (s.flash.settings.mode.getD 1) else s1
    let s2 := { s0 with cast := { s0.cast with ready := true, admitLater := none } }
    let s3 := match s.cast.admitLater with | some c => s2.takeCoord c | none => s2
    if s3.cast.running then s3 else s3.serviceHeld.nextIsland

/-- A stage ends: its record is written, and the next stage starts, or the run ends, or the module holds. A penned module
whose cast-on after a main reset has found no hard fault enters the paddock once it has passed CO7 (R270; log entry 58). -/
def State.endStage (s : State) (e : StageEnd) : State :=
  let s1 := s.writeReport e
  let s2 := { s1 with cast := { s1.cast with degraded := s1.cast.degraded || decide (e.result = 1) } }
  if e.result = 2 then s2.holdState e
  else if e.result = 3 then { s2 with cast := { s2.cast with running := false } }
  else if decide (s.cast.stage = 7 ∧ s.cast.run = .main) && s2.padReady then s2.enterPaddock
  else match s2.cast.run.next s2.cast.stage.toNat with
    | some n => s2.startStage n
    | none => s2.endRun

/-- Stage `st` of the run is under way, and the block that sequences it runs. -/
def State.atStage (s : State) (st : Nat) : Bool :=
  s.pwr.aux && s.cast.running && decide (s.cast.stage.toNat = st) && s.pwr.drain.isNone

/-- The end of CO9 (R327, R338): DEGRADED for any stage that was, and with the handshake outstanding; the
deadline of a trial image. -/
def State.endCo9 (s : State) : State :=
  let late := s.twin.paired && !s.twin.handshake
  let dl := min (s.tb.toNat + 60000000000) (s.cast.co1End.toNat + 180000000000)
  let dl : Word := if s.sec.trial then BitVec.ofNat 64 dl else 0
  let s1 := { s with
    sec := { s.sec with deadline := dl },
    twin := { s.twin with twinless := s.twin.twinless || late } }
  s1.endStage {
    result := if late || s.cast.degraded then 1 else 0,
    d := [s.shep.term, if s.shep.bellValid then s.shep.bell.setWidth 32 else 0x7FF,
          s.twin.coord.setWidth 32 ||| (if s.twin.handshake then 0x10000 else 0),
          s.pwr.mode.setWidth 32, dl.setWidth 32, (dl >>> 32).setWidth 32, 0] }

/-! ### The twin sideband (R288) -/

/-- HEARTBEAT_SEND, every 1 ms. -/
def execHeartbeatSend (s : State) : Res :=
  doIf (s.shepOn && s.shep.sbSentAt.all (fun t => s.passed t 100000)) s
    (({ s with shep := { s.shep with sbSentAt := some s.tb } } : State).sendSide 1 0)

/-- What any accepted frame tells of the twin. -/
def State.sideHeard (s : State) (f : SideFrame) (lost : Nat) : State :=
  { s with
    shep := { s.shep with sbLost := stickAdd s.shep.sbLost lost },
    twin := { s.twin with mainOn := f.mainOn, bindingOff := f.bindingOff, penned := f.penned || s.twin.penned,
                          heldGib := f.heldGib, heldRow := f.heldRow } }

/-- A frame on the sideband: its CRC, then the alive-counter rule, then its effect `g`. A frame whose sender
is not the twin of the plan tells nothing of the twin. -/
def sideRx (s : State) (type : Byte) (f : SideFrame) (g : State → State) : Res :=
  if !s.shepOn then .next s
  else if !sideGood type f then .next { s with shep := { s.shep with sbCrc := stickAdd s.shep.sbCrc 1 } }
  else
    let r := s.shep.sbAlive.hear f.alive
    let s1 := { s with shep := { s.shep with sbAlive := r.1 } }
    match r.2 with
    | .accepted n =>
      .next (g (if s.twin.paired && decide (f.sender = s.twin.coord) then s1.sideHeard f n
        else { s1 with shep := { s1.shep with sbLost := stickAdd s1.shep.sbLost n } }))
    | _ => .next s1

/-- HEARTBEAT: the silence of 10 ms starts again, and a report of class (b) is withdrawn. -/
def execHeartbeat (f : SideFrame) (s : State) : Res :=
  sideRx s 1 f fun s => { s with shep := { s.shep with sbUp := true, sbLast := s.tb, sbSilent := false } }

/-- HEARTBEAT_SILENCE: no heartbeat accepted for 10 ms. -/
def execHeartbeatSilence (s : State) : Res :=
  doIf (s.shepOn && !s.shep.sbSilent && s.passed s.shep.sbLast ticks10ms) s
    (let s1 := { s with shep := { s.shep with sbUp := false, sbSilent := s.twin.paired } }
     if s1.shep.hasCoord && s1.twin.paired then s1.ownReports.verdictAll else s1)

/-- SIDEBAND_SELF_REPORT: the twin's own word, counted as its SELF_REPORT is (R263, R267). The reserve of a
holder whose main power goes is lost with it, so that this module goes twinless (Table 11-6). -/
def execSidebandSelfReport (f : SideFrame) (s : State) : Res :=
  sideRx s 3 f fun s =>
    if !(s.twin.paired && decide (f.sender = s.twin.coord)) then s
    else
      let s1 := if f.kind = 1 ∨ f.kind = 2 then s.goTwinless else s
      if f.kind = 1 ∨ f.kind = 3 then
        ((s1.withdrawOrder f.sender).updObsC f.sender fun o => { o with d := true, dAt := s.tb, suspended := false }).verdictCheck
          (posOf f.sender)
      else if f.kind = 2 ∨ f.kind = 5 then
        s1.updObsC f.sender fun o => { o with suspended := true, suspAt := s.tb }
      else s1

/-! ### The handshake (R301) -/

/-- A HANDSHAKE frame leaves. -/
def State.sendHandshake (s : State) : State :=
  { s with twin := { s.twin with sentHandshake := true } }.sendSide 2 0

/-- Both sides have the other's frame: no side is twinless, and both send full images next. -/
def State.shakeHands (s : State) : State :=
  let s1 := { s.allFull with twin := { s.allFull.twin with handshake := true, twinless := false, penned := false } }
  if s1.atStage 9 && s1.shep.member then s1.endCo9 else s1

/-- HANDSHAKE: a sender that the plan does not name as the twin shows a crossed sideband, reported to the pod
manager. The model answers a frame that did not answer its own: before its own was sent, after its handshake was
complete, and once its own has been out for 1 ms. -/
def execHandshake (f : SideFrame) (s : State) : Res :=
  sideRx s 2 f fun s =>
    if !s.twin.paired then s
    else if f.sender ≠ s.twin.coord ∨ s.coordOfDigest f.digest ≠ some f.sender then
      (({ s with twin := { s.twin with crossed := true, twinless := true, handshake := false } } : State).raise .crossed 3).sendCtl 4
        [f.sender.toNat, f.digest.toNat]
    else if !(s.shep.hasCoord && s.cast.coordValid) then s
    else
      let answer := s.twin.handshake || !s.twin.sentHandshake || !s.atStage 9 || s.passed s.cast.stageStart 100000
      (if answer then s.sendHandshake else s).shakeHands

/-! ### Bind-off (R300) -/

/-- BIND_OFF: SELF_REPORT kind 5, and binding_off on the sideband; the command completes when main is off. -/
def execBindOff (r : Nat) (s : State) : Res :=
  hostCmd s r 0x24 false fun _ tag s =>
    match s.twin.bindOff with
    | some (some _, _) => s.complete r tag stBusy
    | some (none, t) => { s with twin := { s.twin with bindOff := some (some (r, tag), t) } }
    | none => if s.pwr.drain.isSome then s.complete r tag stBusy else s.beginBindOff (some (r, tag))

/-- Steps 2 and 3 of R300 can be taken: every job has passed a commit hurdle since, and no version that this
module holds is in progress. -/
def State.boundOff (s : State) : Bool :=
  s.jobs.all (fun e => !e.2.valid || (s.ckptJob e.1).bound) && s.twin.held.all (fun h => h.2.inProgress.isNone)

/-- The BIND_OFF event of every job. -/
def State.bindOffEvents (s : State) : State :=
  (s.jobs.filter (·.2.valid)).foldl (fun (s : State) e =>
    s.jobEvent e.2.jobId 9 [(16, 2, e.2.jobId.toNat), (18, 1, e.2.jobGen.toNat), (24, 8, e.2.row.toNat)]) s

/-- BIND_OFF_COMMIT: the chains stop, the completions name the rows, the module stops holding, drains, is penned
with cause 3 and blanked; main power goes with MAIN_POWER_REMOVE. -/
def execBindOffCommit (s : State) : Res :=
  doIf (s.shepOn && s.twin.bindOff.isSome && s.pwr.drain.isNone && s.pwr.transit && s.boundOff) s
    (let s1 := s.stopAll.bindOffEvents
     let s2 := ({ s1 with twin := { s1.twin with held := [] } } : State).drainSend 2
     let expelled := s2.shep.hasCoord && s2.shep.orders.any (fun o => decide (o.1 = s2.shep.coord))
     let s3 := (s2.flock (.pen s2.shep.coord 3)).applyPen s2.shep.coord
     let s4 := s3.blankAll.sourcesSafe
     { s4 with pwr := { s4.pwr with drain := some (.bindOff expelled, s.tb) }, shep := { s4.shep with penned := true } })

end Sys2Proof.Machine
end

