-- ==== Sys2Proof/Machine/CastOn.lean ====
section
/-! DEFINITION. Stages CO0 to CO5 of cast-on: identity, image choice, the ramp, the defect map, LPDDR5X training
and the self-test (12, R311, R312, R314; 13, R329, R335, R341; 06, R125, R126, R130). -/

namespace Sys2Proof.Machine

/-- A word of a detail list. -/
def dw (n : Nat) : BitVec 32 := BitVec.ofNat 32 n

/-- The run covers the whole module, and not one island. -/
def CastRun.whole : CastRun → Bool
  | .island _ => false
  | _ => true

/-- The islands that a run brings up: the one of an island run, else those assigned (R12). -/
def State.runIslands (s : State) : BitVec 8 :=
  match s.cast.run with
  | .island p => (1 : BitVec 8) <<< p
  | _ => s.flash.settings.islands

/-- The tile dies of a run. -/
def State.runDies (s : State) : List Nat := (List.range 40).filter (fun n => s.runIslands.getLsbD (n / 5))

/-! ### CO0 (R329, R335, R349) -/

/-- The first candidate of CO0: the TRIAL slot if it has never been booted, else the ACTIVE one (R335). -/
def State.co0Slot (s : State) : Option Nat :=
  match s.trialSlot with
  | some n => if (s.slotOf n).booted then [0, 1].find? (fun n => (s.slotOf n).state = slotActive) else some n
  | none => [0, 1].find? (fun n => (s.slotOf n).state = slotActive)

/-- The unit identity digest: SHAKE256 of "GXUNIT" followed by the seed. -/
def unitDigest (seed : BitVec 256) : BitVec 256 := shake256 (ascii [0x47, 0x58, 0x55, 0x4E, 0x49, 0x54] ++ digBytes seed)

/-- CAST_ON_CO0: the unit identity, and the boot ROM measured; a PUF fault fails it. -/
def execCastOnCo0 (status : BitVec 2) (corrections : BitVec 16) (seed : BitVec 256) (romVersion : BitVec 32)
    (romDigest gateDigest shepDigest : BitVec 256) (s : State) : Res :=
  if !s.atStage 0 then .next s
  else
    let s1 := { s with sec := { s.sec with pufStatus := status, pufCorr := corrections } }
    if status ≠ 0 then
      .next (s1.endStage { result := 2, fault := sfPuf, d := [status.setWidth 32, romVersion, noCount, noCount] })
    else
      let s2 := { s1 with sec := { s1.sec with unitId := unitDigest seed } }.measure 1
        (shake256 (leBytes 4 romVersion.toNat ++ digBytes romDigest))
      -- the first candidate's components (R335)
      let word := fun (t : Nat) (d : BitVec 256) => match s2.co0Slot with
        | some n => if (s2.slotOf n).shipped then d.setWidth 32 else (compDigest (s2.slotOf n) t).setWidth 32
        | none => noCount
      .next (s2.endStage { d := [0, romVersion, word 1 gateDigest, word 2 shepDigest] })

/-! ### CO1 (R333 to R335, R341) -/

/-- Step 1 of R335: a TRIAL slot that has been booted is frogged. -/
def State.frogTrial (s : State) : State :=
  match s.trialSlot with
  | some n =>
    if (s.slotOf n).booted then
      let s1 := s.setSlot n { s.slotOf n with state := slotFrogged, reason := 6 }
      { s1 with flash := { s1.flash with frogs := stickAdd s1.flash.frogs 1 } }
    else s
  | none => s

/-- The first candidate: a TRIAL slot, else the ACTIVE one. -/
def State.candidate (s : State) : Option Nat :=
  match s.trialSlot with
  | some n => some n
  | none => [0, 1].find? (fun n => (s.slotOf n).state = slotActive)

/-- A slot that the boot ROM may try after the candidate. -/
def fallback (x : Slot) : Bool := decide (x.state = slotActive ∨ x.state = slotStandby ∨ x.state = slotStaged)

/-- The choice of R335: the slot that boots, whether CO1 is DEGRADED by it, and the state after the checks. -/
def State.chooseSlot (s : State) (info : Nat → ImageInfo) : State × Option (Nat × Bool) :=
  let c := s.candidate
  let r := match c with | some n => imageReason s (info n) | none => 1
  match c with
  | some n =>
    if r = 0 then (s, some (n, false))
    else
      let s1 := s.setSlot n { s.slotOf n with state := slotRefused, reason := r }
      let m := 1 - n
      if fallback (s1.slotOf m) && decide (imageReason s1 (info m) = 0) then
        (s1.setSlot m { s1.slotOf m with state := slotActive }, some (m, decide ((s1.slotOf m).state ≠ slotActive)))
      else (s1, none)
  | none =>
    match [0, 1].find? (fun m => fallback (s.slotOf m) && decide (imageReason s (info m) = 0)) with
    | some m => (s.setSlot m { s.slotOf m with state := slotActive }, some (m, true))
    | none => (s, none)

/-- The fixed section of a settings store in the place of another's (R341). -/
def Settings.fixedFrom (t f : Settings) : Settings :=
  { t with fieldRepair := f.fieldRepair, erased := f.erased, faulted := f.faulted, mismatch := f.mismatch }

/-- Settings under the booted image's format (R341): the store, and whether it was migrated or started from
defaults. -/
def State.migrate (s : State) (fmt : BitVec 16) : State × Bool × Bool :=
  let f := s.flash
  if f.format.toNat < fmt.toNat then
    ({ s with flash := { f with format := fmt, oldSettings := some (f.format, f.settings) } }, true, false)
  else if f.format = fmt then (s, false, false)
  else match f.oldSettings with
    | some (g, t) =>
      if g = fmt then ({ s with flash := { f with format := fmt, settings := t.fixedFrom f.settings, oldSettings := none } }, false, false)
      else ({ s with flash := { f with format := fmt, settings := ({} : Settings).fixedFrom f.settings, oldSettings := none } }, false, true)
    | none => ({ s with flash := { f with format := fmt, settings := ({} : Settings).fixedFrom f.settings } }, false, true)

/-- The reasons slots were refused, as d5 of CO1 packs them. -/
def State.refusals (s : State) : BitVec 32 :=
  ((s.slotOf 0).reason.setWidth 32) ||| (((s.slotOf 1).reason.setWidth 32) <<< 4)

/-- The chosen image boots: it is measured, and its settings format taken. -/
def State.bootImage (s : State) (n : Nat) (i : ImageInfo) (late : Bool) : State :=
  let trial := decide ((s.slotOf n).state = slotTrial)
  let s1 := s.setSlot n { s.slotOf n with booted := true, headDigest := i.headerDigest, version := i.version,
                                           svn := i.securityVersion, settingsFormat := i.settingsFormat, keyId := i.keyId }
  let fmt := s1.flash.format
  let m := s1.migrate i.settingsFormat
  let s2 := { m.1 with
    sec := { m.1.sec with
      slot := BitVec.ofNat 1 n, trial := trial, migrated := m.2.1, protoRev := i.protoRev, version := i.version,
      ucodeDigest := i.ucodeDigest, ucodeVersion := i.ucodeVersion, loopDigest := i.loopDigest,
      deadline := if trial then s.tb + 180000000000 else 0 },
    cast := { m.1.cast with protoRev := i.protoRev, protoMin := i.protoRev - 1, co1End := s.tb } }
  let s3 := ((s2.measure 2 i.gateDigest 1 (i.version.setWidth 96)).measure 3 i.shepDigest 2 (i.version.setWidth 96)).measure 4
    (s2.headDigest i.headerDigest)
  s3.endStage {
    result := if late || m.2.2 then 1 else 0,
    d := [dw n, i.version, i.securityVersion, fmt.setWidth 32, i.settingsFormat.setWidth 32, s3.refusals] }

/-- CAST_ON_CO1: `a` and `b` say whether the signatures of the slots' images verify, and what an image as shipped shows. -/
def execCastOnCo1 (a b : ImageInfo) (s : State) : Res :=
  let info := fun (n : Nat) => s.slotFacts n (if n = 0 then a else b)
  if !s.atStage 1 then .next s
  else
    let c := s.frogTrial.chooseSlot info
    match c.2 with
    | some (n, late) => .next (c.1.bootImage n (info n) late)
    | none =>
      .next (c.1.endStage { result := 2, fault := sfNoImage, d := [noCount, noCount, noCount, noCount, noCount, c.1.refusals] })

/-! ### CO2 (R11, R13, R144) -/

/-- Transit comes up: the settings store gives what it holds of the light paths, blank stands on (R222), and the fences of coordinates penned stand (R189, R268). -/
def State.transitUp (s : State) : State :=
  let s1 := { s with pwr := { s.pwr with transit := true } }
  let s2 := s1.shep.penHold.foldl (fun (s : State) p => s.fenceCoord (BitVec.ofNat 11 p.1) true) s1
  let s3 := s2.loadOptics
  if s.gate.blank || s.shep.penned then s3.blankAll else s3

/-- The memory domain comes up under new keys. -/
def State.memoryUp (s : State) : State :=
  (List.range 9).foldl State.rotateKey { s with pwr := { s.pwr with memory := true } }

/-- The beat windows of a die's island that comes up start now (R32). -/
def State.startWindows (s : State) : State :=
  (s.runDies.filter (fun n => !s.dieOn n)).foldl (fun (u : State) n => u.updDie n fun d => { d with windowStart := s.tb }) s

/-- The ramp in the order of R13: transit, memory, then islands. A module whose main was off holds P3 no more; one
that is in P3 brings its islands up at retention voltage (R24; log entry 49). -/
def State.ramp (s : State) : State :=
  let s0 := if s.pwr.transit then s
    else { s with pwr := { s.pwr with mode := if s.pwr.mode = 3 then 1 else s.pwr.mode, modeDue := true } }
  let s1 := if s0.pwr.transit then s0 else s0.transitUp
  let s2 := (if s1.pwr.memory then s1 else s1.memoryUp).startWindows
  { s2 with pwr := { s2.pwr with
      islands := s2.pwr.islands ||| s.runIslands,
      vcore := if s2.pwr.mode = 3 then 500 else if s2.pwr.islands = 0 then 750 else s2.pwr.vcore } }

/-- Islands that are up. -/
def State.islandBits (s : State) : BitVec 32 := s.pwr.islands.setWidth 32

/-- CAST_ON_CO2: `missing` are die codes, `pgFail` names an island, or none a domain. -/
def execCastOnCo2 (missing : List Nat) (linksChecked linksFailed : Nat) (pgFail : Option (Option Nat)) (vinMv : BitVec 32)
    (ramp : BitVec 32) (s : State) : Res :=
  if !(s.atStage 2 && s.gate.sig.mainEn && !s.pwr.mainBarred) then .next s
  else
    let s0 := { s with gate := { s.gate with vin := (vinMv / 10).setWidth 16 } }
    match pgFail with
    | some island =>
      .next (s0.endStage { result := 2, fault := sfPower, d := [noCount, noCount, noCount, noCount, s.islandBits, vinMv, noCount],
                           hard := if island.isSome then some 7 else none })
    | none =>
      let s1 := s0.ramp
      let present := dw (100 - missing.length)
      let d := [present, dw (missing.headD 0xFF), dw linksChecked, dw linksFailed, s1.islandBits, vinMv, ramp]
      if !missing.isEmpty || decide (linksFailed ≠ 0) then
        .next (s1.endStage { result := 2, fault := sfMissingDie, d := d,
                             hard := if missing.any (fun c => decide (80 ≤ c ∧ c ≤ 89)) then some 6 else none })
      else .next (s1.endStage { d := d })

/-! ### CO3 (R125, R126, R312) -/

/-- Failed physical columns of a row by a list of entries. -/
def failedCols (es : List Repair) (die row : Nat) : List Nat :=
  es.filterMap (fun e => match e with
    | .failedTile d r c => if d = die ∧ r = row then some c else none
    | _ => none)

/-- The type 2 entry of a row; column 15 where the map has none (DESIGN CHOICE, log entry 53). -/
def spareOf (es : List Repair) (die row : Nat) : Nat :=
  (es.findSome? (fun e => match e with
    | .spareCol d r c => if d = die ∧ r = row then some c else none
    | _ => none)).getD 15

/-- Store rows to steer on a die: tile row, physical column, sub-array, array row. -/
def storeRows (es : List Repair) (die : Nat) : List (Nat × Nat × Nat × Nat) :=
  (es.filterMap (fun e => match e with
    | .storeRow d r c sub row => if d = die then some (r, c, sub, row) else none
    | _ => none)).eraseDups

/-- Physical tiles, 16 × row + column, with a sub-array that needs more than 8 spare rows. -/
def shortOfRows (rows : List (Nat × Nat × Nat × Nat)) : List Nat :=
  ((rows.filter (fun x => decide (8 < (rows.filter (fun y =>
    decide (y.1 = x.1 ∧ y.2.1 = x.2.1 ∧ y.2.2.1 = x.2.2.1))).length))).map (fun x => 16 * x.1 + x.2.1)).eraseDups

/-- The map of a row from its failed columns and its spare column (R312). -/
def rowMapOf (failed : List Nat) (spare : Nat) : RowMap :=
  match sortBy id failed with
  | [] => { spareCol := BitVec.ofNat 4 spare, healthy := true }
  | [c] => { spareCol := BitVec.ofNat 4 c }
  | c :: c2 :: _ => { spareCol := BitVec.ofNat 4 c, absent := true, absentCol := BitVec.ofNat 4 (c2 - 1) }

/-- What CO3 finds of a die: failed physical tiles, the ones short of spare rows, store rows steered. -/
structure DieRepair where
  failed : List Nat
  short : List Nat
  steered : Nat
  deriving DecidableEq, Repr

/-- The failed tiles and steered rows of a die under the map and the field repair list. -/
def dieRepair (es : List Repair) (die : Nat) : DieRepair :=
  let rows := storeRows es die
  let short := shortOfRows rows
  let listed := (List.range 16).flatMap (fun r => (failedCols es die r).map (16 * r + ·))
  { failed := (listed ++ short).eraseDups, short := short.filter (fun t => !listed.contains t), steered := rows.length }

/-- The failed columns of a row. -/
def DieRepair.cols (x : DieRepair) (row : Nat) : List Nat := (x.failed.filter (fun t => decide (t / 16 = row))).map (· % 16)

/-- A die's maps are written: its row maps, its failed tiles, and whether it is degraded or out of service. -/
def State.applyDie (s : State) (es : List Repair) (die : Nat) : State :=
  let x := dieRepair es die
  let rows := (List.range 16).foldl (fun t r => tabSet (fun _ => ({} : RowMap)) t r (rowMapOf (x.cols r) (spareOf es die r))) []
  let s1 := s.updDie die fun d => { d with
    rows := rows, pendingMap := [], failedList := x.failed, failedTiles := BitVec.ofNat 8 (min 255 x.failed.length),
    degraded := (List.range 16).any (fun r => decide (2 ≤ (x.cols r).length)),
    outOfService := (List.range 16).any (fun r => decide (3 ≤ (x.cols r).length)),
    repairRows := BitVec.ofNat 16 x.steered, repairPending := 0 }
  -- logical tiles that stand on a failed physical tile do not answer
  (List.range 240).foldl (fun (s : State) l =>
    let m := (s.die die).row (l / 15)
    if x.failed.contains (16 * (l / 15) + m.phys (l % 15)) then s.updTile (240 * die + l) fun t => { t with failed := true } else s) s1

/-- Every die of every assigned island is out of service. -/
def State.dieOut (s : State) : Bool := decide (s.flash.settings.islands ≠ 0) && s.allOut

/-- A count over dies. -/
def countIf {α : Type} (l : List α) (p : α → Bool) : Nat := (l.filter p).length

/-- The maps of the dies of a run under the shipped defects and the field repair list. -/
def State.co3Maps (s : State) (defects : List Repair) (digest : BitVec 256) : State :=
  let es := defects ++ s.flash.settings.fieldRepair
  let s1 := { s with cast := { s.cast with defErased := defects.filterMap (fun (e : Repair) => match e with
    | Repair.erased k c => some (k, c)
    | _ => none) } }
  s.runDies.foldl (fun (s : State) n => s.applyDie es n) (s1.measure 8 digest)

/-- Every word of the slices of the islands under bring-up is zero (R126). -/
def State.zeroSlices (s : State) : State :=
  (List.range 8).foldl (fun (u : State) p =>
    if s.runIslands.getLsbD p then u.clearRange (sliceAddr (1200 * p)) (sliceAddr (1200 * (p + 1))) else u) s

/-- A factory record is valid but for its signature (R311, Table 12-6): its magic, format, hardware type, this unit's own
identity, and its header CRC; its signature follows the bytes that its length counts. -/
def State.recordOk (s : State) (magic : Nat) (b : List Byte) : Bool :=
  decide (fieldB b 0 4 = magic ∧ fieldB b 4 2 = 1 ∧ fieldB b 12 4 = 0x00484D01 ∧ BitVec.ofNat 256 (fieldB b 16 32) = s.sec.unitId
    ∧ fieldB b 16 32 ≠ 0 ∧ fieldB b 48 12 = 0 ∧ BitVec.ofNat 32 (fieldB b 60 4) = crc32c (b.take 60)
    ∧ 64 ≤ fieldB b 8 4 ∧ b.length = fieldB b 8 4 + sigLen)

/-- An entry of a defect map. -/
def defectOf (e : List Byte) : Option Repair :=
  let x := fun i => (nth e i 0).toNat
  match x 0 with
  | 1 => some (.failedTile (x 1) (x 2) (x 3))
  | 2 => some (.spareCol (x 1) (x 2) (x 3))
  | 3 => some (.storeRow (x 1) (x 2) (x 3) (x 4 % 16) (fieldB e 6 2))
  | 4 => some (.erased (x 1) (x 2))
  | _ => none
/-- The entries of a defect map. -/
def defectsOf (b : List Byte) : List Repair := (List.range (fieldB b 6 2)).filterMap (fun i => defectOf (sliceB b (64 + 8 * i) 8))

/-- CAST_ON_CO3: the defect map as the flash holds it, with its signature, and whether that verifies. -/
def execCastOnCo3 (record : List Byte) (sigOk : Bool) (s : State) : Res :=
  if !s.atStage 3 then .next s
  else if !(sigOk && s.recordOk 0x4D445847 record && decide (fieldB record 8 4 = 64 + 8 * fieldB record 6 2)) then
    .next (s.endStage { result := 2, fault := sfSignature, d := List.replicate 7 noCount })
  else
    let field := s.flash.settings.fieldRepair
    let defects := defectsOf record
    let dies := s.runDies
    let s2 := s.zeroSlices.co3Maps defects (shake256 record)
    let xs := dies.map (dieRepair (defects ++ field))
    let absent := total dies (fun n => countIf (List.range 16) (fun r => ((s2.die n).row r).absent))
    let out := countIf dies (fun n => (s2.die n).outOfService)
    let short := total xs (fun x => x.short.length)
    let d := [dw (16 * dies.length), dw (total (List.range 40) (fun n => (s2.die n).failedList.length)), dw absent, dw out,
              dw (total xs (·.steered)), dw short, dw field.length]
    .next (if s2.dieOut then s2.endStage { result := 2, fault := sfDieOut, d := d, hard := some 5 }
      else s2.endStage { result := if absent = 0 ∧ out = 0 ∧ short = 0 then 0 else 1, d := d })

/-! ### Saved training settings (R318 to R320) -/

/-- Items: channels 18 × stack + channel, lanes from 1 000, yarns from 2 000 by (skein, slot). -/
def savedLane (l : Nat) : Nat := 1000 + l
def savedYarn (q k : Nat) : Nat := 2000 + 8 * q + k

/-- A saved record lets its item be fast-started in this run, at a rate, a temperature and with a partner (R319).
The record's CRC verifies, as records do not change in the flash (log entry 55). -/
def State.recordFits (s : State) (x : SavedItem) (rate : Nat) (temp : BitVec 16) (partner : BitVec 128) : Bool :=
  decide (x.rate = rate ∧ (x.temp.toInt - temp.toInt).natAbs ≤ 32 ∧ x.partner = partner)
    && !Config.recordAged x.run s.flash.run && !s.cast.fullRun

/-- An item is fast-started: it has a record that fits. -/
def State.mayFast (s : State) (item rate : Nat) (temp : BitVec 16) (partner : BitVec 128) : Bool :=
  s.flash.saved.any (fun x => decide (x.item = item) && s.recordFits x rate temp partner)

/-- The tag of an item trained now. -/
def State.tagNow (s : State) (item rate : Nat) (temp : BitVec 16) (partner : BitVec 128) : SavedItem :=
  { item := item, rate := rate, temp := temp, partner := partner, run := s.flash.run, format := s.flash.format }

/-- Records after a stage (R320): an item trained in full and passed has a new one, one that did not pass none;
fast-started items keep theirs. -/
def State.saveItems (s : State) (trained : List SavedItem) (failed : List Nat) : State :=
  { s with flash := { s.flash with
      saved := (s.flash.saved.filter (fun x => !failed.contains x.item && !trained.any (fun t => decide (t.item = x.item)))) ++ trained } }

/-- CAST.FAST of a kind. -/
def State.setFast (s : State) (c fast full : Nat) : State :=
  { s with cast := { s.cast with
      fastCnt := tabSet (fun _ => ((0 : BitVec 16), (0 : BitVec 16))) s.cast.fastCnt c (BitVec.ofNat 16 fast, BitVec.ofNat 16 full) } }

/-! ### CO4 (R130, R134, R314) -/

/-- A stack after training: trained, and erased in the channels named. -/
def State.trainStack (s : State) (bad : List (Nat × Nat)) (k : Nat) : State :=
  s.updStack (k / 5) (k % 5) fun x => { x with
    trained := true,
    erased := (bad.filter (fun b => decide (b.1 = k))).foldl (fun (v : BitVec 18) b => v ||| (1 <<< b.2)) x.erased }

/-- Channels that are erased already, by the defect map and the settings store. -/
def State.co4Known (s : State) : List (Nat × Nat) := (s.cast.defErased ++ s.flash.settings.erased).eraseDups
/-- Channels that fail now and were not erased. -/
def State.co4New (s : State) (fails : List (Nat × Nat)) : List (Nat × Nat) :=
  (fails.eraseDups).filter (fun c => !s.co4Known.contains c)

/-- Channels that fail at 6 400 MT/s. -/
def co4Fails (quals : List (Nat × Nat × BitVec 5)) : List (Nat × Nat) :=
  (quals.filter (fun q => !q.2.2.getLsbD 0)).map (fun q => (q.1, q.2.1))

/-- The channel qualifies at a rate code. -/
def qualifiesAt (quals : List (Nat × Nat × BitVec 5)) (c : Nat × Nat) (r : Nat) : Bool :=
  quals.all (fun q => decide (q.1 ≠ c.1 ∨ q.2.1 ≠ c.2) || q.2.2.getLsbD r)

/-- The highest rate code at which every channel of memory die `n` that is not erased qualifies (R130). -/
def co4Rate (quals : List (Nat × Nat × BitVec 5)) (bad : List (Nat × Nat)) (n : Nat) : Nat :=
  let chans := (List.range 90).map (fun i => (5 * n + i / 18, i % 18))
  ([4, 3, 2, 1].find? (fun r => chans.all (fun c => bad.contains c || qualifiesAt quals c r))).getD 0

/-- Channels erased once CO4 has trained: the known ones and the ones that fail now. -/
def State.co4Bad (s : State) (quals : List (Nat × Nat × BitVec 5)) : List (Nat × Nat) := s.co4Known ++ s.co4New (co4Fails quals)

/-- New erasures are kept, rates set and stacks trained. -/
def State.co4Train (s : State) (quals : List (Nat × Nat × BitVec 5)) : State :=
  let st := s.flash.settings
  let s1 : State := { s with flash := { s.flash with settings := { st with erased := st.erased ++ s.co4New (co4Fails quals) } } }
  let s2 := (List.range 8).foldl (fun (u : State) n =>
    u.updMd n fun m => { m with rate := BitVec.ofNat 3 (co4Rate quals (s.co4Bad quals) n), selfRefresh := false }) s1
  (List.range 40).foldl (fun (u : State) k => u.trainStack (s.co4Bad quals) k) s2

/-- Channel `i` (18 × stack + channel) is fast-started: it trains at its die's rate, with no partner. -/
def State.chanFast (s : State) (quals : List (Nat × Nat × BitVec 5)) (temps : List (BitVec 16)) (i : Nat) : Bool :=
  !((s.co4Bad quals).contains (i / 18, i % 18)) &&
    s.mayFast i (co4Rate quals (s.co4Bad quals) (i / 90)) (nth temps (i / 18) 0) 0

/-- CAST_ON_CO4. -/
def execCastOnCo4 (quals : List (Nat × Nat × BitVec 5)) (temps : List (BitVec 16)) (s : State) : Res :=
  if !s.atStage 4 then .next s
  else
    let bad := s.co4Bad quals
    let rate := co4Rate quals bad
    let s3 := s.co4Train quals
    let er := fun (k : Nat) => (s3.stack (k / 5) (k % 5)).erasedN
    let one := countIf (List.range 40) (fun k => decide (er k = 1))
    let crit := countIf (List.range 40) (fun k => decide (2 ≤ er k))
    let worst := (List.range 40).foldl (fun w k => if er w < er k then k else w) 0
    let erased := total (List.range 40) er
    let fast := countIf (List.range 720) (s.chanFast quals temps)
    let d := [dw (((List.range 8).map rate).foldl min 4), dw (720 - erased), dw erased, dw one, dw crit,
              dw fast, dw (worst + 256 * er worst)]
    let full := (List.range 720).filter (fun i => !(bad.contains (i / 18, i % 18)) && !s.chanFast quals temps i)
    let s4 := (s3.setFast 0 fast full.length).saveItems
      (full.map (fun i => s.tagNow i (rate (i / 90)) (nth temps (i / 18) 0) 0)) (bad.map (fun b => 18 * b.1 + b.2))
    .next (if crit ≠ 0 then s3.endStage { result := 2, fault := sfMemory, d := d, hard := some 3 }
      else s4.endStage { result := if one = 0 then 0 else 1, d := d, fast := decide (fast ≠ 0) })

/-! ### CO5 (R314, R347) -/

/-- A physical tile (256 × die + 16 × row + column) has failed its self-test, or has not acknowledged the
microcode: the spare is no longer healthy, or the logical tile there is lost (R56, R57). -/
def State.coreFailed (s : State) (t : Nat) : State :=
  let n := t / 256
  let row := t % 256 / 16
  let p := t % 16
  let d := s.die n
  let m := d.row row
  if d.failedList.contains (t % 256) then s
  else ((m.logical p).elim s fun c => s.updTile ((n * 16 + row) * 15 + c) fun x => { x with failed := true }).tileLost n row p

/-- Tiles of the run that fail now, by the self-test or for want of an acknowledgement. -/
def State.co5Bad (s : State) (failed noAck : List Nat) : List Nat :=
  ((failed ++ noAck).eraseDups).filter (fun t =>
    s.runDies.contains (t / 256) && !(s.die (t / 256)).failedList.contains (t % 256))

/-- The microcode is measured and loaded, and the tiles that fail are taken out. -/
def State.co5Test (s : State) (bad : List Nat) : State :=
  let s1 := s.runDies.foldl (fun (u : State) n => u.updDie n fun d => { d with ucode := s.sec.ucodeVersion })
    (s.measure 5 s.sec.ucodeDigest 3)
  bad.foldl State.coreFailed s1

/-- CAST_ON_CO5. -/
def execCastOnCo5 (failed : List Nat) (noAck : List Nat) (s : State) : Res :=
  if !s.atStage 5 then .next s
  else
    let dies := s.runDies
    let bad := s.co5Bad failed noAck
    let s2 := s.co5Test bad
    let remapped := countIf bad (fun t => let m := (s.die (t / 256)).row (t % 256 / 16); m.healthy && (m.logical (t % 16)).isSome)
    let deg := countIf dies (fun n => (s2.die n).degraded)
    let out := countIf dies (fun n => (s2.die n).outOfService)
    let worse := dies.any (fun n => ((s2.die n).degraded && !(s.die n).degraded) || ((s2.die n).outOfService && !(s.die n).outOfService))
    let d := [dw (256 * dies.length), dw bad.length, dw remapped, s.sec.ucodeVersion.setWidth 32,
              dw (countIf noAck.eraseDups (fun t => dies.contains (t / 256))), dw deg, dw out]
    .next (if s2.dieOut then s2.endStage { result := 2, fault := sfDieOut, d := d, hard := some 5 }
      else s2.endStage { result := if bad.isEmpty && !worse then 0 else 1, d := d })

end Sys2Proof.Machine
end

