-- ==== Sys2Proof/Machine/CastLink.lean ====
section
/-! DEFINITION. Stages CO6 to CO9 of cast-on, the plan, and what runs cast-on from outside (12, R309, R310,
R313, R315 to R327). -/

namespace Sys2Proof.Machine

/-! ### Lane qualification (R316, Table 12-8) -/

/-- Result 1 Pass, 2 Marginal, 3 Fail, of a ber_code and the codewords that could not be corrected. -/
def judgeLane (ber : Byte) (uncorr : BitVec 16) : BitVec 2 :=
  if ber.toNat < 50 then 3 else if ber.toNat < 60 ∨ uncorr ≠ 0 then 2 else 1

/-- Digits of a number less one: the whole part of its decimal logarithm, up to `n`. -/
def log10 : Nat → Nat → Nat
  | 0, _ => 0
  | n + 1, v => if v < 10 then 0 else log10 n (v / 10) + 1

/-- The ber_code of errors among bits: the whole part of −10 log10 of their ratio, 0 at a ratio of 1 or more, 255 with no
error counted. -/
def berCode (errs bits : Nat) : Byte := if errs = 0 then 255 else BitVec.ofNat 8 (log10 254 (bits ^ 10 / errs ^ 10))

/-- The ber_code of a lane, and its result. -/
def laneBer (o : LaneOutcome) : Byte := berCode o.errs o.bits
def laneResult (o : LaneOutcome) : BitVec 2 := judgeLane (laneBer o) o.uncorr

/-- The partner of a lane's saved settings: the digest met. -/
def lanePartner (o : LaneOutcome) : BitVec 128 := ((o.partner.getD (0, 0)).1).setWidth 128

/-- The lane is fast-started. -/
def State.laneFast (s : State) (o : LaneOutcome) : Bool := s.mayFast (savedLane o.lane) 0 o.temp (lanePartner o)

/-- The lane is fast-started and does not pass: it is trained in full and qualified once more (R316). -/
def State.laneAgain (s : State) (o : LaneOutcome) : Bool := s.laneFast o && decide (judgeLane (berCode o.fastErrs o.fastBits) o.fastUncorr ≠ 1)

/-- The lane passes on its saved settings. -/
def State.laneQuick (s : State) (o : LaneOutcome) : Bool := s.laneFast o && !s.laneAgain o

/-- The outcome that counts: of the fast start where it passes, else of the training in full. -/
def State.laneEnd (s : State) (o : LaneOutcome) : LaneOutcome :=
  if s.laneQuick o then { o with errs := o.fastErrs, bits := o.fastBits, uncorr := o.fastUncorr } else o

/-- CAST.LANEQ of a lane qualified. -/
def State.setLaneq (s : State) (o : LaneOutcome) : State :=
  let v : LaneQ := { result := laneResult o, fast := s.laneFast o, retrained := s.laneAgain o, ber := laneBer o, uncorr := o.uncorr }
  { s with cast := { s.cast with laneq := tabSet (fun _ => {}) s.cast.laneq o.lane v } }

/-- Lanes are qualified: their results, and the marginal lanes that indicator 3 counts. -/
def State.qualify (s : State) (os : List LaneOutcome) : State :=
  let s1 := os.foldl State.setLaneq s
  { s1 with shep := { s1.shep with lanesMarginal := countIf s1.cast.laneq (fun e => decide (e.2.result = 2)) } }

/-- Lanes of a result, and those without a partner. -/
def byResult (os : List LaneOutcome) (r : BitVec 2) : List LaneOutcome := os.filter (fun o => decide (laneResult o = r))

/-- The records of lanes after their stage (R320). -/
def State.saveLanes (s : State) (os : List LaneOutcome) : State :=
  s.saveItems (((byResult os 1).filter (fun o => !s.laneQuick o)).map (fun o => s.tagNow (savedLane o.lane) 0 o.temp (lanePartner o)))
    ((os.filter (fun o => decide (laneResult o ≠ 1))).map (fun o => savedLane o.lane))

/-! ### CO6 (R156, R315) -/

/-- The division that the saved plan states for a port, 1 × 16 without one. -/
def State.planDivision (s : State) (fd p : Nat) : BitVec 2 :=
  ((s.flash.settings.plan.bind (fun x => (x.ports.find? (fun e => decide (e.1.toNat = fd ∧ e.2.1.toNat = p))).map (·.2.2))).getD 0)

/-- The lane's die, its number there, its port. -/
def laneDie (l : Nat) : Nat := l / 192

/-- Outcomes of a link: lanes that stay in service, with their partner. -/
def State.linkLanes (s : State) (fd k : Nat) (os : List LaneOutcome) : List LaneOutcome :=
  os.filter (fun o => decide (o.lane < 384 ∧ laneDie o.lane = fd ∧ laneResult o ≠ 3) && o.partner.isSome
    && !s.underTest fd (o.lane % 192)
    && decide (s.linkOfLane fd (o.lane % 192) = k))

/-- A link takes the lanes that have trained and are not under test (Table 14-8), and what the partner sent. A link that was in service comes up
again; another waits for discovery. -/
def State.trainLink (s : State) (os : List LaneOutcome) (again : Bool) (fd k : Nat) : State :=
  let mine := s.linkLanes fd k os
  let lanes := sortBy id (mine.map (·.lane % 16))
  let who := (mine.head?.bind (·.partner)).getD (0, 0)
  let old := s.link fd k
  if again && decide (old.state = 2 ∨ old.state = 3 ∨ old.state = 4 ∨ old.state = 7) then
    let s1 := s.setLink fd k { old with
      lanes := lanes, state := if lanes.isEmpty then 7 else 3, partnerDigest := if lanes.isEmpty then old.partnerDigest else who.1,
      partnerRev := if lanes.isEmpty then old.partnerRev else who.2 }
    if lanes.isEmpty then s1 else s1.linkUp fd k
  else
    s.setLink fd k { old with lanes := lanes, partnerDigest := who.1, partnerRev := who.2, state := if lanes.isEmpty then 0 else 1 }

/-- A port is divided and its lanes trained. -/
def State.trainPort (s : State) (os : List LaneOutcome) (again : Bool) (fd p : Nat) : State :=
  let s0 := s.updFab fd fun f => { f with
    ports := tabSet (fun _ => (0 : BitVec 2)) f.ports p (s.planDivision fd p),
    lanesUp := tabSet (fun _ => (0 : BitVec 16)) f.lanesUp p
      ((os.filter (fun o => decide (o.lane / 16 = 12 * fd + p ∧ laneResult o ≠ 3) && o.partner.isSome)).foldl
        (fun (v : BitVec 16) o => v ||| (1 <<< (o.lane % 16))) 0) }
  [0, 1, 2, 3].foldl (fun (s : State) i => s.trainLink os again fd (4 * p + i)) s0

/-- Electrical links with a lane in service. -/
def State.linksWithLanes (s : State) : Nat := countIf s.links (fun e => decide (e.1 % 176 < 48) && !e.2.lanes.isEmpty)

/-- The worst lane and its ber_code, as d5 of CO6 packs them. -/
def worstLane (os : List LaneOutcome) : BitVec 32 :=
  match os with
  | [] => 0
  | o :: rest =>
    let w := rest.foldl (fun (w : LaneOutcome) (x : LaneOutcome) => if (laneBer x).toNat < (laneBer w).toNat then x else w) o
    dw (w.lane + 65536 * (laneBer w).toNat)

/-- CAST_ON_CO6: lanes not named have met no partner. -/
def execCastOnCo6 (lanes : List LaneOutcome) (s : State) : Res :=
  if !s.atStage 6 then .next s
  else
    let os := (lanes.filter (fun o => decide (o.lane < 384) && o.partner.isSome)).map s.laneEnd
    let again := decide (s.cast.run = .refclk)
    let s1 := (List.range 24).foldl (fun (s : State) p => s.trainPort os again (p / 12) (p % 12)) (s.qualify os)
    let fast := countIf os s.laneQuick
    let failed := (byResult os 3).length
    let d := [dw (byResult os 1).length, dw (byResult os 2).length, dw failed, dw (384 - os.length), dw s1.linksWithLanes,
              worstLane os, dw fast]
    .next (((s1.setFast 1 fast (os.length - fast)).saveLanes os).endStage
      { result := if failed = 0 then 0 else 1, d := d, fast := decide (fast ≠ 0) })

/-! ### CO7 (R202, R237, R255, R313, R317) -/

/-- Fibres of a source that are continuous: every tap of the eight reads at least −20 dBm (R202). -/
def fibresOk (t : SourceTaps) : BitVec 4 :=
  (List.range 4).foldl (fun (v : BitVec 4) f =>
    if (List.range 8).all (fun i => decide (-2000 ≤ (nth t.safe (8 * f + i) 0x8000).toInt)) then v ||| (1 <<< f) else v) 0

/-- The taps of a source's buses stand as CO7 finds them at the end of the check. -/
def State.placeTaps (s : State) (x : Nat) (t : SourceTaps) : State :=
  (List.range 4).foldl (fun (s : State) f =>
    ((feedsOf x).filter (fun v => decide ((feedOf v.1 v.2).2 = f))).zipIdx.foldl (fun (s : State) (v : (Nat × Bool) × Nat) =>
      let tap := nth t.full (8 * f + v.2) 0
      s.updSkein v.1.1 fun k => if v.1.2 then { k with feedSec := tap } else { k with feedPri := tap }) s) s

/-- A source is checked (R202): safe mode is commanded, then full output with all four fibres continuous; else it stays in
safe mode and its feeds are lost. References that are due are taken at the first report of full output (R215). -/
def State.checkSource (s : State) (x : Nat) (t : SourceTaps) : State :=
  let ok := decide (fibresOk t = 0xF)
  let s1 := (s.updEcs x fun c => { c with
    ready := true, full := ok, ctlSafe := false, feedLost := if ok then 0 else 0xF }).ecsControl x 2
  (if ok then s1.ecsControl x 1 else s1).placeTaps x t

/-- Entry `k` of a row of the live matrix stands for a skein that the engine lacks: the lower neighbour of its first, the
higher of its last (R236). -/
def rowAbsent (e k : Nat) : Bool := decide ((e / 11 = 0 ∧ 11 ≤ k ∧ k < 22) ∨ (e / 11 = 15 ∧ 22 ≤ k))

/-- A gauge value between 0 and a bound. -/
def upTo (m : Nat) (v : BitVec 16) : BitVec 16 := BitVec.ofNat 16 (min m v.toNat)

/-- The lines of a gauge record lie within 48 mW, and the two positions of a selector within 25 mW of each other (R197,
R239). -/
def gaugeLines (n e b : Nat) : List (BitVec 16) :=
  let l := (List.range 8).map (fun k => upTo 32767 (Config.gauge n e (2 + 8 * b + k)))
  if elemIsSel e then
    let p := (nth l 0 0).toNat
    l.set 1 (BitVec.ofNat 16 (max (p - 17066) (min (p + 17066) (nth l 1 0).toNat)))
  else l

/-- The values of a gauge record at one temperature: 45 °C with `hot` false, 85 °C with it true; the park power is at most
16 mW. -/
def gaugeVal (n e : Nat) (hot : Bool) : GaugeVal :=
  let b := if hot then 1 else 0
  { park := upTo parkMax.toNat (Config.gauge n e b), lines := gaugeLines n e b,
    row := (List.range 33).map (fun k => if rowAbsent e k then 0 else Config.gauge n e (18 + 33 * b + k)) }

/-- Words of a coefficient table placed from the loop set: `n` of them (R254). -/
def loopWords (t : Tab (BitVec 16)) (set : BitVec 256) (bank : Bool) (lane n : Nat) : Tab (BitVec 16) :=
  (List.range n).foldl (fun t w => tabSet (fun _ => (0 : BitVec 16)) t w (Config.loopCoef set bank lane w)) t

/-- An element under its gauge record: calibration, C[56] to C[63], exponent and profile set; in PARK at the live
park power. -/
def State.gaugeElem (s : State) (n e : Nat) : State :=
  let q := 16 * n + e / 11
  let c := fun (t : Tab (BitVec 16)) i v => tabSet (fun _ => (0 : BitVec 16)) t i v
  s.updElem n e fun x =>
    let cs := c (c (c (loopWords x.c s.sec.loopDigest false e 56) 56 (Config.gauge n e 86)) 57 (Config.gauge n e 87)) 63 (Config.gauge n e 88)
    let cs := (List.range 5).foldl (fun t i => c t (58 + i) (Config.gauge n (176 + q % 16) i)) cs
    let x : Elem := { x with
      cold := gaugeVal n e false, hot := gaugeVal n e true, c := cs,
      ge := (Config.gauge n e 84).setWidth 3, pset := (Config.gauge n e 85).setWidth 2,
      faulted := s.flash.settings.faulted.contains (elemKey n e) }
    let y := x.liveAt (elemIsSel e) (clampTemp (s.engine n).temp)
    { y with command := y.livePark, code := codeAt y.livePark (s.engine n).railMv.toNat, setpoint := y.livePark }

/-- The engine's record is placed, and its programs are checked and started. -/
def State.startEngine (s : State) (n : Nat) : State :=
  let s1 := s.updEngine n fun g => { g with gaugeOk := true, coupling := Config.gauge n 192 0 }
  let s2 := (List.range 16).foldl (fun (s : State) i => s.updSkein (16 * n + i) fun k =>
    { k with nominalPeak := Config.gauge n (176 + i) 5, bankC := loopWords k.bankC s.sec.loopDigest true i 64 }) s1
  ((List.range 176).foldl (fun (s : State) e => s.gaugeElem n e) s2).startProgs n

/-- A bus starts on its primary feed, or on a fit secondary when the primary is lost; its selector holds there. -/
def State.chooseFeed (s : State) (q : Nat) : State :=
  let second := s.feedLostOf q false && s.feedFit q true
  let pos : BitVec 4 := if second then 1 else 0
  let s1 := (s.updSkein q fun k => { k with secondary := second, secUnfit := !s.feedFit q true }).keepSkein q
  if (s.engine (q / 16)).gaugeOk then
    s1.updElem (q / 16) (11 * (q % 16) + 10) fun x =>
      let v := nth x.liveLines pos.toNat 0
      { x with mode := .hold, slot := pos, command := v, setpoint := v }
  else s1

/-- Rings of the four lanes of a skein: lane j is on ring j, and no spare is in use yet. -/
def State.ownRings (s : State) (q : Nat) : State :=
  (([0, 1, 2, 3].foldl (fun (s : State) j => s.updOlane q j fun o => { o with txRing := BitVec.ofNat 3 j, rxRing := BitVec.ofNat 3 j })
    s).updSkein q fun k => { k with txSpare := false, rxSpare := false }).keepSkein q

/-- A ring acquires a slot by SEEK; a ring that is faulted leaves its lane to the spare (R212). -/
def State.seekRing (s : State) (q j : Nat) (tx : Bool) (k : BitVec 3) : State :=
  let n := q / 16
  let e := elemOfRing q j tx
  if (s.elem n e).faulted then s.takeover q tx j k
  else s.tryMove n e (some k) (BitVec.ofNat 2 j) true [] []

/-- A yarn of the plan: what is expected on its receive slot, and its two rings. -/
def State.seekYarn (s : State) (y : Yarn) : State :=
  let q := y.skein.toNat
  if !(s.engine (q / 16)).run then s
  else
    let s1 := s.updSlotI q y.rxSlot.toNat fun i => { i with expectCoord := some (y.fromCoord, y.fromSkein) }
    (s1.seekRing q y.lane.toNat true y.txSlot).seekRing q y.lane.toNat false y.rxSlot

/-- Yarns of the saved plan. -/
def State.planYarns (s : State) : List Yarn := (s.flash.settings.plan.map (·.yarns)).getD []

/-- A bus with neither feed. -/
def State.noFeed (s : State) (q : Nat) : Bool := s.feedLostOf q false && s.feedLostOf q true

/-- The taps of a source that is fitted, ready and without fault, as CO7 finds them (R2). -/
def State.co7Source (s : State) (sources : List (Option SourceTaps)) (x : Nat) : Option SourceTaps :=
  if (s.ecsOf x).present && !(s.ecsOf x).fault then nth sources x none else none

/-- Every source that answers is checked. -/
def State.checkSources (s : State) (sources : List (Option SourceTaps)) : State :=
  (List.range 4).foldl (fun (u : State) x => match s.co7Source sources x with | some t => u.checkSource x t | none => u) s

/-- The gauge records and the device certificate are measured, one after another (Table 13-4). -/
def State.measureUnit (s : State) (gauges : List (List Byte × Bool)) : State :=
  (gauges.foldl (fun (s : State) g => s.measure 8 (shake256 g.1)) s).measure 8 (shake256 (Config.document 4))

/-- The gauge record of engine `n` is valid (R311). -/
def State.gaugeValid (s : State) (gauges : List (List Byte × Bool)) (n : Nat) : Bool :=
  let g := nth gauges n ([], false)
  g.2 && s.recordOk 0x52475847 g.1 && decide (fieldB g.1 6 2 = n)

/-- Sources checked, programs and gauge records measured, valid engines started at their temperatures (0.01 °C), feeds
chosen. -/
def State.co7Start (s : State) (sources : List (Option SourceTaps)) (valid : List Nat) (gauges : List (List Byte × Bool))
    (temps : List (BitVec 16)) : State :=
  let s := (List.range 4).foldl (fun (s : State) n => s.updEngine n fun g => { g with temp := nth temps n g.temp }) s
  let s1 := (s.checkSources sources).measure 6 s.sec.loopDigest 4
  let s2 := valid.foldl State.startEngine (s1.measureUnit gauges)
  (List.range 64).foldl (fun (s : State) q => (s.chooseFeed q).ownRings q) s2

/-- Yarns that CO7 brings up: none in the paddock. -/
def State.co7Yarns (s : State) : List Yarn := if s.cast.run = .paddock then [] else s.planYarns

/-- Optical lanes among the outcomes. -/
def opticalOnes (os : List LaneOutcome) : List LaneOutcome := os.filter (fun o => decide (384 ≤ o.lane ∧ o.lane < 640))

/-- The PIC temperature of a skein's engine, 0.25 °C. -/
def State.picTemp (s : State) (q : Nat) : BitVec 16 := BitVec.ofInt 16 ((s.engine (q / 16)).temp.toInt / 25)

/-- The yarn of a lane and slot is fast-started: the PIC temperature and the source that feeds it fit its record. -/
def State.yarnFast (s : State) (y : Yarn) : Bool :=
  s.mayFast (savedYarn y.skein.toNat y.txSlot.toNat) 0 (s.picTemp y.skein.toNat) (s.ecsOf (s.sourceOf y.skein.toNat)).serial
/-- The saved record of a yarn acquired now. -/
def State.yarnTag (s : State) (y : Yarn) : SavedItem :=
  s.tagNow (savedYarn y.skein.toNat y.txSlot.toNat) 0 (s.picTemp y.skein.toNat) (s.ecsOf (s.sourceOf y.skein.toNat)).serial
/-- A ring of the yarn is faulted. -/
def State.yarnDead (s : State) (y : Yarn) : Bool :=
  let q := y.skein.toNat
  let o := s.olane q y.lane.toNat
  (s.elem (q / 16) (elemOfRing q o.txRing.toNat true)).faulted || (s.elem (q / 16) (elemOfRing q o.rxRing.toNat false)).faulted
/-- The records of yarns after their stage. -/
def State.saveYarns (s : State) (ys : List Yarn) : State :=
  s.saveItems ((ys.filter (fun y => !s.yarnFast y && !s.yarnDead y)).map s.yarnTag)
    ((ys.filter s.yarnDead).map (fun y => savedYarn y.skein.toNat y.txSlot.toNat))

/-- A position whose source was removed during CO7 is still empty: the check starts again within the limit of the stage
(Table 12-11). -/
def State.ecsAwaited (s : State) : Bool := (List.range 4).any (fun x => s.cast.ecsGone.getLsbD x && !(s.ecsOf x).present)

/-- CAST_ON_CO7: a position without a source fails the stage, once the others are checked; one whose source has been removed
meanwhile is waited for. `gauges` are the four records as the flash holds them, and whether their signatures verify. -/
def execCastOnCo7 (sources : List (Option SourceTaps)) (gauges : List (List Byte × Bool))
    (temps : List (BitVec 16)) (lanes : List LaneOutcome) (s : State) : Res :=
  if !s.atStage 7 || (s.ecsAwaited && !s.passed s.cast.stageStart (stageLimit 7)) then .next s
  else
    let d0 := (List.range 4).foldl (fun v x => match s.co7Source sources x with
      | some t => v + 2 ^ x + 16 * (16 ^ x * (fibresOk t).toNat)
      | none => v) 0
    if (List.range 4).any (fun x => (s.co7Source sources x).isNone) then
      .next ((s.checkSources sources).endStage { result := 2, fault := sfNoEcs, d := dw d0 :: List.replicate 6 noCount })
    else
      let valid := (List.range 4).filter (s.gaugeValid gauges)
      let s3 := s.co7Start sources valid gauges temps
      let ys := s3.co7Yarns
      let s4 := ys.foldl State.seekYarn s3
      let started := valid.filter (fun n => (s4.engine n).run)
      let os := if ys.isEmpty then [] else (opticalOnes lanes).map s.laneEnd
      let s5 := s4.qualify os
      let failed := (byResult os 3).length
      let fastY := countIf ys s4.yarnFast
      let bits := fun (l : List Nat) => l.foldl (fun v n => v + 2 ^ n) 0
      let d := [dw d0, dw (bits started + 16 * bits valid), dw (countIf s4.elems (fun e => e.2.faulted)), dw (byResult os 1).length,
                dw (byResult os 2).length, dw failed, dw fastY]
      if !valid.isEmpty && started.isEmpty then .next (s5.endStage { result := 2, fault := sfCrook, d := d })
      else
        let good := decide (started.length = 4 ∧ failed = 0) && !(List.range 64).any s5.noFeed
        let s6 := ((s5.setFast 2 fastY (ys.length - fastY)).saveLanes os).saveYarns ys
        .next (s6.endStage { result := if good then 0 else 1, d := d, fast := decide (fastY ≠ 0) })

/-! ### The plan (R321, R322, R358) -/

/-- Budget figures of a plan (R277, R278). -/
def State.planBudget (s : State) (p : Plan) : State :=
  { s with shep := { s.shep with allowed := p.allowed, windowHours := p.windowHours, floor := p.floor } }

/-- The base routes of a plan, and over them the variants of the coordinates that spares have taken (R284). -/
def State.loadRoutes (s : State) (p : Plan) : State :=
  s.takenOver.foldl State.variantRoutes (p.routes.foldl (fun (s : State) r => s.setRoute r.1.toNat r.2.1 r.2.2) s)

/-- Units that a new plan places as the one before did: what they have taken over since stands (log entry 58). -/
def State.keepStandins (s : State) (p : Plan) : List (Word × Coord) :=
  let at_ := fun (l : List (Word × Coord)) (d : Word) => (l.find? (fun x => decide (x.1 = d))).map (·.2)
  s.flash.settings.standins.filter (fun x =>
    decide (at_ p.digests x.1 = (s.flash.settings.plan.bind (fun q => at_ q.digests x.1))))

/-- The twin that the plan names; another twin than before is twinless until the handshake. -/
def State.loadTwin (s : State) : State :=
  let t := s.twinOf s.shep.coord
  if t = (if s.twin.paired then some s.twin.coord else none) then s
  else
    let s1 := if s.twin.paired then s.goTwinless else s
    { s1 with twin := { s1.twin with coord := t.getD 0x7FF, paired := t.isSome, handshake := false,
                                     held := keptFor s1.shep.coord (t.getD 0x7FF) s1.twin.held,
                                     twinless := s1.twin.twinless && t.isSome } }

/-- A plan accepted in service takes effect at once for routes, reach, twins, variants and budget. -/
def State.planNow (s : State) (p : Plan) : State :=
  let s1 := s.planBudget p
  (if s1.pwr.transit then (s1.loadRoutes p).loadReach else s1).loadTwin

/-- A plan is newer than the saved one, or identical to it. -/
def State.planOk (s : State) (p : Plan) : Bool :=
  match s.flash.settings.plan with
  | none => true
  | some q => decide (q.version.toNat < p.version.toNat) || decide (p = q)

/-- A plan is accepted: saved, measured, and its key epoch taken. -/
def State.acceptPlan (s : State) (p : Plan) (digest : BitVec 256) : State :=
  let st := s.flash.settings
  let s1 := { s with
    flash := { s.flash with settings := { st.liftMismatch p.reach with plan := some p, reach := p.reach, standins := s.keepStandins p }, epoch := p.epoch },
    sec := { s.sec with prevEpoch := if p.epoch = s.flash.epoch then s.sec.prevEpoch else some (s.flash.epoch, s.tb) } }
  let s2 := s1.measure 7 digest 0 (p.version.setWidth 96)
  if s.cast.ready then s2.planNow p else s2

/-- PLAN_LOAD: refused with AUTH while unowned, by its signature, and where it is not newer. -/
def execPlanLoad (r : Nat) (dmaOk sigOk : Bool) (plan : Plan) (digest : BitVec 256) (s : State) : Res :=
  hostCmd s r 0x25 true fun _ tag s =>
    if !dmaOk then s.complete r tag stDmaError
    else if !s.flash.owned then s.complete r tag stAuth
    else if !sigOk then (s.authFail 4).complete r tag stAuth
    else if !s.planOk plan then s.complete r tag stAuth
    else (s.acceptPlan plan digest).complete r tag stOk

/-- PLAN_MESSAGE. -/
def execPlanMessage (h : CtlHdr) (sigOk : Bool) (plan : Plan) (digest : BitVec 256) (s : State) : Res :=
  ctlMsg s h true fun s =>
    if !sigOk then s.authFail 4
    else if s.planOk plan then s.acceptPlan plan digest
    else s

/-! ### CO8 (R190, R322 to R324) -/

/-- Ports whose division in the plan differs from the one trained are divided and trained again, once in a cast-on (R322). -/
def State.retrainPorts (s : State) (os : List LaneOutcome) : State :=
  let ports := (List.range 24).filter (fun p => decide (s.division (p / 12) (p % 12) ≠ (s.planDivision (p / 12) (p % 12)).toNat))
  let mine := (os.filter (fun o => decide (o.lane < 384) && ports.contains (o.lane / 16))).map s.laneEnd
  if s.cast.redivided || ports.isEmpty then s
  else
    let s1 := { s with cast := { s.cast with redivided := true } }
    ports.foldl (fun (s : State) p => s.trainPort mine false (p / 12) (p % 12)) (s1.qualify mine)

/-- Every electrical link is judged against the plan, and stands as its status says. -/
def State.discover (s : State) : State :=
  (List.range 96).foldl (fun (s : State) i => s.settleLink (i / 48) (i % 48)) s

/-- Links of a status. -/
def State.discCount (s : State) (st : BitVec 3) : Nat := countIf s.cast.disc (fun e => decide (e.2.status = st))

/-- READY goes out on every link that is up: the module drains no more. -/
def State.sendReady (s : State) : State :=
  s.links.foldl (fun (s : State) e =>
    if e.2.state = 2 && !e.2.member then s.sendOnLink (e.1 / 176) (e.1 % 176) kReady 0 [] else s)
    { s with shep := { s.shep with draining := false } }

/-- Links to coordinates that are penned are fenced (R189, R268). -/
def State.refence (s : State) : State := s.shep.penHold.foldl (fun (s : State) p => s.fenceModule (BitVec.ofNat 11 p.1)) s

/-- The coordinate is taken. -/
def State.takePlan (s : State) (p : Plan) (c : Coord) : State :=
  let s0 := s.setSpare (decide (posOf c = 15))
  let s1 := { s0 with shep := { s0.shep with coord := c, hasCoord := true }, cast := { s0.cast with coordValid := true } }
  (s1.planBudget p).loadTwin

/-- Words of the CO8 record. -/
def State.co8Words (s : State) (p : Plan) : List (BitVec 32) :=
  [ dw (s.shep.coord.toNat + 65536 * p.version.toNat), dw (s.discCount dscOk), dw (s.discCount dscMissing), dw (s.discCount dscUnplanned),
    dw (s.discCount dscCrossed + 65536 * s.discCount dscHeld), dw (s.discCount dscForeign + 65536 * s.discCount dscMismatch),
    dw (countIf s.olanes (fun e => decide (e.2.state = 5))) ]

/-- Yarns of the plan whose lane is not steered yet. -/
def State.newYarns (s : State) (p : Plan) : List Yarn := p.yarns.filter (fun y => decide ((s.olane y.skein.toNat y.lane.toNat).state = 0))

/-- The state before discovery: the coordinate, the ports, routes and reach of the plan, and its yarns. -/
def State.beforeCo8 (s : State) (p : Plan) (c : Coord) (os : List LaneOutcome) : State :=
  let s1 := s.takePlan p c
  let s2 := if s.cast.run = .joining then s1 else ((s1.retrainPorts os).loadRoutes p).loadReach
  let s3 := (s2.newYarns p).foldl State.seekYarn s2
  if s.cast.run = .joining then s3 else s3.takenOver.foldl State.variantMoves s3

/-- Links that leave CO8 DEGRADED (R324). -/
def State.discBad (s : State) : Nat := s.discCount dscMissing + s.discCount dscHeld + s.discCount dscForeign + s.discCount dscMismatch

/-- The end of CO8, by what discovery has found. -/
def State.endCo8 (s : State) (p : Plan) (os : List LaneOutcome) (ys : List Yarn) : State :=
  if s.discCount dscOk = 0 then s.endStage { result := 2, fault := sfNoLinks, d := s.co8Words p }
  else
    let s1 := (s.refence.sendReady.saveLanes os).saveYarns ys
    s1.endStage { result := if s.discBad = 0 then 0 else 1, d := s.co8Words p }

/-- Discovery and what follows it, under a coordinate. -/
def State.runCo8 (s : State) (p : Plan) (c : Coord) (os : List LaneOutcome) : State :=
  let opt := (opticalOnes os).map s.laneEnd
  let s1 := (s.beforeCo8 p c os).qualify opt
  let s2 := { s1 with cast := { s1.cast with disc := [] } }
  s2.discover.endCo8 p opt (s.newYarns p)

/-- CAST_ON_CO8: waits, within the stage's limit, for an owner and a plan (R321, R323). -/
def execCastOnCo8 (lanes : List LaneOutcome) (s : State) : Res :=
  if !(s.atStage 8 && s.flash.owned) then .next s
  else match s.flash.settings.plan with
    | none => .next s
    | some p =>
      let own := if s.cast.run = .joining then some s.shep.coord else s.coordOfDigest s.ownDigest
      match own with
      | none => .next (s.endStage { result := 2, fault := sfNotInPlan, d := dw (0x7FF + 65536 * p.version.toNat) :: List.replicate 6 noCount })
      | some c => .next (s.runCo8 p c lanes)

/-! ### CO9 (R265, R327) -/

/-- The newest term heard. -/
def State.newestTerm (s : State) : BitVec 32 :=
  s.obs.foldl (fun t o => if o.2.valid && newerTerm o.2.term t then o.2.term else t) s.shep.term

/-- The module joins the flock: first GOSSIP, bellwether, and the handshake begun. -/
def State.joinFlock (s : State) : State :=
  let s1 := { s with shep := { s.shep with
    member := true, memberSince := if s.shep.member then s.shep.memberSince else s.tb,
    trusted := s.shep.trusted && s.shep.member, term := s.newestTerm } }
  let s2 := s1.gossipNow.learnBell
  if s2.twin.paired then s2.sendHandshake else s2

/-- CAST_ON_CO9: it ends at once where no handshake is outstanding; HANDSHAKE, or the limit, ends it else. -/
def execCastOnCo9 (s : State) : Res :=
  if !s.atStage 9 then .next s
  else
    let s1 := s.joinFlock
    .next (if s1.twin.paired && !s1.twin.handshake then s1 else s1.endCo9)

/-! ### Limits, retries and reports (R308 to R310) -/

/-- STAGE_TIMEOUT: the limit of CO8 counts from the first attempt. CO9 with the handshake outstanding ends
DEGRADED; CO8 without an owner fails with NO_OWNER. -/
def execStageTimeout (s : State) : Res :=
  let st := s.cast.stage.toNat
  let since := if st = 8 then s.cast.firstTry else s.cast.stageStart
  doIf (s.atStage st && s.passed since (stageLimit st)) s
    (if st = 9 && s.shep.member && s.twin.paired && !s.twin.handshake then s.endCo9
     else s.endStage { result := 2, fault := if st = 8 && !s.flash.owned then sfNoOwner else if st = 7 && s.ecsAwaited then sfNoEcs else sfTimeout, d := List.replicate 7 noCount })

/-- The run that a retry goes on with: a run that lost main power covers the whole module. -/
def State.retryRun (s : State) : CastRun :=
  if s.cast.hold = 1 then .full
  else if s.cast.hold = 2 then (match s.cast.run with | .paddock => .paddock | .full => .full | _ => .main)
  else s.cast.run

/-- CAST_RETRY: from CO0, CO2 or the failed stage, by the hold state. -/
def execCastRetry (s : State) : Res :=
  let first := if s.cast.hold = 1 then 0 else if s.cast.hold = 2 then 2 else s.cast.failedStage.toNat
  let first8 := s.cast.firstTry
  let s1 := s.runFrom s.retryRun first
  doIf (s.pwr.aux && s.cast.held && !s.shep.hard) s
    { s1 with cast := { s1.cast with
        retried := true, degraded := s.cast.degraded && decide (s.cast.hold = 3),
        firstTry := if s.cast.hold = 3 ∧ first = 8 then first8 else s.tb } }

/-- PLAN_WAIT_RETRY: every 10 s while CO8 waits for a plan in hold state 3. -/
def execPlanWaitRetry (s : State) : Res :=
  let s1 := s.runFrom s.cast.run 8
  doIf (s.shepOn && s.cast.held && s.cast.planWait && decide (s.cast.hold = 3) && !s.shep.hard && s.passed s.cast.stageStart ticks10s
    && s.passed s.cast.lastRetry ticks10s) s
    { s1 with cast := { s1.cast with retried := true, degraded := s.cast.degraded, firstTry := s.cast.firstTry, lastRetry := s.tb } }

/-- HOLD_REPORT: the failed record every 60 s, by the unit identity digest; an unowned module sends none (R323). -/
def execHoldReport (s : State) : Res :=
  doIf (s.shepOn && s.flash.owned && s.cast.held && decide (s.cast.hold = 2 ∨ s.cast.hold = 3) && s.passed s.cast.lastReport ticksMin) s
    (({ s with cast := { s.cast with lastReport := s.tb } } : State).sendCtl 5
      (s.ownDigest.toNat :: (reportBytes (s.report s.cast.failedStage.toNat)).map (·.toNat)))

end Sys2Proof.Machine
end

