-- ==== Sys2Proof/Machine/Ctl.lean ====
section
/-! DEFINITION. Control and hardware loops (04, Table 4-4). -/

namespace Sys2Proof.Machine

/-- A word offset from the branch word itself, in the 15 bits of the pc (log entry 18). -/
def pcPlus (pc : BitVec 15) (b : BitVec 47) : BitVec 15 := pc + (immS b).setWidth 15

/-- CTL_NOP. -/
def execCtlNop (t : Nat) (o : Op) (s : State) : Res := stage 0x00 0x00 t o s fun s _ => .done s

/-- CTL_BR (R82). -/
def execCtlBr (t : Nat) (o : Op) (s : State) : Res :=
  stage 0x00 0x01 t o s fun s c => .taken s (pcPlus (s.ctx t c).pc o.body)

/-- CTL_BL (R82): sd holds the word after the branch. -/
def execCtlBl (t : Nat) (o : Op) (s : State) : Res :=
  stage 0x00 0x02 t o s fun s c =>
    let pc := (s.ctx t c).pc
    .taken (s.updCtx t c fun x => x.setS (fD o.body) (BitVec.ofNat 64 (pc.toNat + 1))) (pcPlus pc o.body)

/-- CTL_JR (R82): pc ← sa[14:0]. -/
def execCtlJr (t : Nat) (o : Op) (s : State) : Res :=
  stage 0x00 0x03 t o s fun s c => .taken s (((s.ctx t c).getS (fA o.body)).setWidth 15)

/-- A LOOP with count `n` (R83). -/
def startLoop (s : State) (t c : Nat) (b : BitVec 47) (n : BitVec 32) : Fx :=
  let pc := (s.ctx t c).pc.toNat
  let l := loopLvl b
  if n = 0 then
    .skip (s.updCtx t c fun x => x.setLoop l { x.loop l with active := false }) (pc + loopLen b + 1)
  else
    .done (s.updCtx t c fun x => x.setLoop l {
      start := BitVec.ofNat 15 (pc + 1), last := BitVec.ofNat 15 (pc + loopLen b),
      remaining := n, index := 0, active := true })

/-- CTL_LOOP (R83): the count is sa[31:0]. -/
def execCtlLoop (t : Nat) (o : Op) (s : State) : Res :=
  stage 0x00 0x04 t o s fun s c => startLoop s t c o.body (((s.ctx t c).getS (fA o.body)).setWidth 32)

/-- CTL_LOOPI (R83). -/
def execCtlLoopi (t : Nat) (o : Op) (s : State) : Res :=
  stage 0x00 0x05 t o s fun s c => startLoop s t c o.body (BitVec.ofNat 32 (loopCount o.body))

/-- The level and every higher active level whose body lies inside it (R85). -/
def Ctx.breakLevel (x : Ctx) (l : Nat) : Ctx :=
  let lp := x.loop l
  [0, 1, 2, 3].foldl (fun (x : Ctx) k =>
    let lk := x.loop k
    if k = l || (decide (l < k) && lk.active && decide (lp.start.toNat ≤ lk.start.toNat
        ∧ lk.last.toNat ≤ lp.last.toNat)) then x.setLoop k { lk with active := false } else x) x

/-- CTL_BREAK (R85). -/
def execCtlBreak (t : Nat) (o : Op) (s : State) : Res :=
  stage 0x00 0x06 t o s fun s c =>
    let l := loopLvl o.body
    let lp := (s.ctx t c).loop l
    if lp.active then .skip (s.updCtx t c fun x => x.breakLevel l) (lp.last.toNat + 1) else .done s

/-- CTL_LIDX: the passes completed on the level; 0 when it is inactive. -/
def execCtlLidx (t : Nat) (o : Op) (s : State) : Res :=
  stageReg 0x00 0x07 t o s fun _ x =>
    let lp := x.loop (loopLvl o.body)
    x.setS (fD o.body) (if lp.active then lp.index.setWidth 64 else 0)

/-- CTL_YIELD (R51). -/
def execCtlYield (t : Nat) (o : Op) (s : State) : Res := stage 0x00 0x08 t o s fun s _ => .yield s

/-- CTL_HALT (R103): with a transfer in flight it waits as `mem.wait` or `fab.wait`; else the context is
DONE. -/
def execCtlHalt (t : Nat) (o : Op) (s : State) : Res :=
  stage 0x00 0x09 t o s fun s c =>
    let x := s.ctx t c
    if x.mems.any (fun p => p.2.xfer.isSome) then .starve s 4
    else if x.fabs.any (fun p => p.2.xfer.isSome) then .starve s 5
    else .halt s

end Sys2Proof.Machine
end

