-- ==== Sys2Proof/Machine/Mat.lean ====
section
/-! DEFINITION. The matrix unit (04, Tables 4-9 to 4-12; 05, R115 to R117). -/

namespace Sys2Proof.Machine

/-! ### Weight buffers (Table 4-10) -/

/-- Bytes of a weight buffer image. -/
def wbufBytes (wf : Nat) : Nat := if wf = 0 then 1088 else if wf ≤ 3 then 2112 else if wf = 4 then 544 else 4096
/-- Bits of a buffer image at byte `off` plus bit `bit`. -/
def WBuf.bits (w : WBuf) (off bit n : Nat) : Nat := w.data.toNat / 2 ^ (8 * off + bit) % 2 ^ n
/-- The bits of the element in row `k` of column `n`. -/
def WBuf.elem (w : WBuf) (n k : Nat) : Nat :=
  match w.tag.toNat with
  | 0 => w.bits (64 + 32 * n) (4 * k) 4
  | 4 => w.bits (32 + 16 * n) (2 * k) 2
  | 5 => w.bits (128 * n) (16 * k) 16
  | 6 => w.bits (128 * n) (16 * k) 16
  | _ => w.bits (64 + 64 * n) (8 * k) 8
/-- The scale byte of block `j` of column `n`; HT2 has one a column. -/
def WBuf.scale (w : WBuf) (n j : Nat) : Nat :=
  if w.tag = 4 then w.bits n 0 8 else w.bits (32 * j + n) 0 8

/-- MAT_LDW (R91). -/
def execMatLdw (t : Nat) (o : Op) (s : State) : Res :=
  stage 0x20 0x00 t o s fun s c =>
    let imm := fImm o.body
    let wf := bitsAt imm 23 3
    ctxRead s t c (effAddr (s.ctx t c) (fA o.body) (bitsAt imm 0 23) 32) (wbufBytes wf) fun s bs =>
      .done (s.updCtx t c fun x =>
        x.setW (fD o.body) { tag := BitVec.ofNat 3 wf, data := BitVec.ofNat 32768 (leVal bs) })

/-- MAT_ZACC. -/
def execMatZacc (t : Nat) (o : Op) (s : State) : Res :=
  stageReg 0x20 0x01 t o s fun _ x => x.setAcc (fD o.body) 0

/-- MAT_ACCW: a move of bits (R109). -/
def execMatAccw (t : Nat) (o : Op) (s : State) : Res :=
  stageReg 0x20 0x02 t o s fun _ x =>
    x.setAcc (fD o.body) (BitVec.ofNat 1024 ((x.getV (fA o.body)).toNat / 2 ^ (1024 * fX o.body)))

/-- Column `n` of an accumulator. -/
def accCol (a : BitVec 1024) (n : Nat) : Nat := a.toNat / 2 ^ (32 * n) % 2 ^ 32

/-- The 32 values of an accumulator written out in format `of` (R94, R109, R114): the values, their
width, the flags, and the context with its generator advanced. -/
def Ctx.accOut (x : Ctx) (a of rnd : Nat) : List Nat × Nat × FlagSet × Ctx :=
  let vals := (List.range 32).map (accCol (x.getAcc a))
  if of = 0 then (vals, 32, 0, x)
  else
    let f := if of = 1 then bf16 else f16
    let (mode, r, x1) := x.rounding rnd 32
    let rs := (vals.zipIdx).map fun p => f.round mode x.ftz (r p.2) (f32.decode p.1)
    (rs.map (·.1), 16, flAll (rs.map (·.2)), x1)

/-- clr = 1 zeroes the accumulator. -/
def Ctx.accClear (x : Ctx) (clr a : Nat) : Ctx := if clr = 1 then x.setAcc a 0 else x

/-- MAT_ACCR (R94). -/
def execMatAccr (t : Nat) (o : Op) (s : State) : Res :=
  stageReg 0x20 0x03 t o s fun _ x =>
    let b := o.body
    let m := fX b
    let (vs, w, fl, x1) := x.accOut (fA b) (bitsAt m 0 2) (bitsAt m 4 2)
    (((x1.setV (fD b) (putBits (x.getV (fD b)) (32 * w * bitsAt m 2 2) (32 * w) (packNat w vs))).raise fl).accClear
      (bitsAt m 6 1) (fA b))

/-- MAT_ACCST (R94, R95). -/
def execMatAccst (t : Nat) (o : Op) (s : State) : Res :=
  stage 0x20 0x05 t o s fun s c =>
    let b := o.body
    let imm := fImm b
    let x := s.ctx t c
    let (vs, w, fl, x1) := x.accOut (fD b) (bitsAt imm 23 2) (bitsAt imm 25 2)
    ctxWrite s t c [(effAddr x (fA b) (bitsAt imm 0 23) 32, leBytes (4 * w) (packNat w vs))] fun s =>
      .done (s.setCtx t c ((x1.raise fl).accClear (bitsAt imm 27 1) (fD b)))

/-! ### MMA (R92, R93, R115 to R117) -/

/-- A weight tag and an activation format that Table 4-12 lists. -/
def mmaListed (wt af : Nat) : Bool :=
  decide (wt ≤ 4 ∧ af ≤ 3) || decide (wt = 5 ∧ af = 5) || decide (wt = 6 ∧ af = 6)

/-- The activation elements of part q (Table 4-10). -/
def actElems (v : Vec) (af q : Nat) : List Nat :=
  let w := elemBits af
  let p := v.toNat / 2 ^ (64 * w * q)
  (List.range 64).map fun k => p / 2 ^ (w * k) % 2 ^ w

/-- The value of block `j` of column `n` (R115, R117). -/
def mmaBlock (w : WBuf) (n j af : Nat) (as : List Nat) (sa : Nat) : FVal × FlagSet :=
  let ks := (List.range 32).map (fun i => 32 * j + i)
  let b := blockOf (ks.map fun k => elemVal w.tag.toNat (w.elem n k)) (ks.map fun k => elemVal af (nth as k 0))
  if 5 ≤ w.tag.toNat then b.value false 0
  else
    let sw := w.scale n j
    let b := if sw = 255 ∨ sa = 255 then { b with fl := 0 } else b
    b.value (decide (sw = 255 ∨ sa = 255)) ((sw : Int) + sa - 254)

/-- A reserved HT2 code stands in the column (R106). -/
def WBuf.reservedIn (w : WBuf) (n : Nat) : Bool :=
  decide (w.tag = 4) && (List.range 64).any (fun k => decide (w.elem n k = 2))

/-- One buffer into one accumulator: `acc[n] ← round(round(acc[n] + V0) + V1)` for the 32 columns (R116). -/
def Ctx.mmaInto (x : Ctx) (d m af : Nat) (as : List Nat) (sa0 sa1 : Nat) : Ctx :=
  let w := x.getW m
  let acc := x.getAcc d
  let rs := (List.range 32).map fun n =>
    let (v0, f0) := mmaBlock w n 0 af as sa0
    let (v1, f1) := mmaBlock w n 1 af as sa1
    let (a0, g0) := accAdd x.ftz (accCol acc n) v0
    let (a1, g1) := accAdd x.ftz a0 v1
    (a1, f0 ||| f1 ||| g0 ||| g1 ||| flIf (w.reservedIn n) flHt2)
  (x.setAcc d (BitVec.ofNat 1024 (packNat 32 (rs.map (·.1))))).raise (flAll (rs.map (·.2)))

/-- MAT_MMA (R92, R93): an unlisted pairing, or a broken pair rule, writes no accumulator and sets
invalid. -/
def execMatMma (t : Nat) (o : Op) (s : State) : Res :=
  stageReg 0x20 0x04 t o s fun _ x =>
    let b := o.body
    let d := fD b
    let m := fC b
    let af := bitsAt (fX b) 0 3
    let h := bitsAt (fX b) 6 2
    let wt := (x.getW m).tag.toNat
    let as := actElems (x.getV (fA b)) af (bitsAt (fX b) 3 3)
    let sc := x.getS (fB b)
    let s0 := byteOf sc (2 * h)
    let s1 := byteOf sc (2 * h + 1)
    if !mmaListed wt af then x.raise flInvalid
    else if wt = 4 then
      if d % 2 = 1 ∨ m % 2 = 1 ∨ (x.getW (m + 1)).tag ≠ 4 then x.raise flInvalid
      else (x.mmaInto d m af as s0 s1).mmaInto (d + 1) (m + 1) af as s0 s1
    else x.mmaInto d m af as s0 s1

end Sys2Proof.Machine
end

