-- ==== Sys2Proof/Machine/Power.lean ====
section
/-! DEFINITION. Aux and main power, the resets, the timebase, the envelope controller and the beat windows
(01, R12 to R25; 02, R29 to R36; 06, R140, R145; 12, R304, R328; 14, R373, R376; 16, R410). -/

namespace Sys2Proof.Machine

/-! ### Aux power (R18, R35, R304, R373, R376) -/

/-- The book as loaded from the newest mirror that is complete, with prior set (R373). -/
def Flash.bookAtBoot (f : Flash) : Option (Tab Rec) :=
  let load := fun (m : Mirror) => m.book.map (fun e => (e.1, { e.2 with prior := true }))
  match f.mirrors.filter (·.complete) with
  | some m => some (load m)
  | none => (f.mirrors2.filter (·.complete)).map load

/-- Pins that aux power does not drive, as they stand; AUX_PG is high. -/
def State.pins (s : State) : Signals :=
  { auxPg := true, mainEn := s.gate.sig.mainEn, perstN := s.gate.sig.perstN, attnN := s.gate.sig.attnN,
    ecsPresent := s.gate.sig.ecsPresent }

/-- Every domain at its Reset values, and what the provision flash gives (R9, R304): the band table, the
settings store and the signing limit, which the next signature starts at (R352). -/
def State.fresh (s : State) : State :=
  let f := s.flash
  let sig := s.pins
  { pending := s.pending, free := s.free, out := s.out, keys := s.keys,
    gate := { sig := sig, udpPort := f.settings.udpPort.getD 47810 },
    shep := match f.settings.plan with
      | some p => { spare := f.settings.spare, allowed := p.allowed, windowHours := p.windowHours, floor := p.floor }
      | none => { spare := f.settings.spare },
    flash := { f with life := f.life + 1, dist := f.dist.map (fun d => { d with lastChunk := 0, askedAt := 0 }) },
    bands := f.bands.map (fun e => (e.1, ({ owner := e.2, protOff := decide (e.2.toNat < 8) && tabGet (fun _ => false) f.protOff e.2.toNat } : Band))),
    partMem := f.protOff.map (fun e => (e.1, ({ protOff := e.2, protOffActive := e.2 } : PartMem))),
    ecs := (List.range 4).foldl (fun t x => tabSet (fun _ => ({} : Ecs)) t x { present := sig.ecsPresent.getLsbD x }) [],
    sec := match f.dist with
      | some d => { signNext := f.signLimit, signLimit := f.signLimit, seqs := f.settings.seqs, bcImage := d.digest.setWidth 64,
                    bcTotal := d.total, bcHeld := BitVec.ofNat 12 d.held.length, bcState := 1 }
      | none => { signNext := f.signLimit, signLimit := f.signLimit, seqs := f.settings.seqs },
    tally := { book := f.bookAtBoot.getD [] } }

/-- Aux comes up: TB_TIME from 0, the book loaded, BOOT, or MIRROR_BAD beside it, and cast-on from CO0. -/
def State.auxUp (s : State) : State :=
  let s1 := (s.fresh.pcieUp.startRun .full).own 0xF003 0 s.fresh.flash.life
  if s.flash.bookAtBoot.isSome then s1 else s1.own 0xF004 3 0

/-- AUX_POWER_UP: from aux off, or from reset, where no run of cast-on has begun. -/
def execAuxPowerUp (s : State) : Res := doIf (!s.pwr.aux || !s.cast.begun) s s.auxUp

/-- The entry that the loss of aux leaves in the ring; the spec gives it no code (log entry 5). -/
def State.auxEntry (s : State) : Entry :=
  let w := Config.freeWord s.free
  { tb := s.tb, ev := { code := w.setWidth 16, source := (w >>> 16).setWidth 16, severity := (w >>> 32).setWidth 3 } }

/-- AUX_PG_FALL (R18, R376, R410): main goes off, the sources to safe mode, the ring is frozen, and written to
the power area if the hold-up bank is charged. -/
def execAuxPgFall (s : State) : Res :=
  let t := if s.tally.bbFrozen then s.tally else s.tally.enter s.auxEntry
  let area : Option RingCopy :=
    if s.gate.holdupReady then some { entries := t.ring, cause := 2, life := s.flash.life } else none
  let s1 := s.sourcesSafe.mainOff
  doIf s.pwr.aux s
    { s1 with
      free := s1.free + 1,
      tally := { t with bbFrozen := true, bbCause := 2 },
      flash := { s1.flash with powerArea := area },
      cast := { s1.cast with running := false },
      pwr := { s1.pwr with aux := false, drain := none },
      gate := { s1.gate with sig := { s1.gate.sig with auxPg := false } } }

/-- HOLDUP_BANK_CHARGED (R410). -/
def execHoldupBankCharged (s : State) : Res := doIf s.pwr.aux s { s with gate := { s.gate with holdupReady := true } }

/-- TB_TICK (R35). -/
def execTbTick (upsets : List (Nat × Nat)) (s : State) : Res :=
  doIf s.pwr.aux s { upsets.foldl State.upset s with tb := s.tb + 1 }

/-! ### Main power (R15 to R17, R300, R304, R328) -/

/-- A stage under way ends ABORTED, and so do the commands that wait for an island (Table 12-11). -/
def State.cutStage (s : State) : State :=
  let s1 := s.endIslandCmds stAborted
  if s.cast.running && decide (2 ≤ s.cast.stage.toNat) then s1.endStage { result := 3, d := List.replicate 7 noCount } else s1

/-- A bind-off that something else has overtaken ends, and its command with it. -/
def State.dropBindOff (s : State) (st : Status) : State :=
  let s1 := match s.twin.bindOff with
    | some (some c, _) => s.complete c.1 c.2 st
    | _ => s
  { s1 with twin := { s1.twin with bindOff := none } }

/-- Cast-on from CO2; in the paddock, its own stages (Table 12-2). -/
def State.rampAgain (s : State) : State := s.startRun (if s.shep.paddock then .paddock else .main)

/-- What follows the removal of main power, by its cause. -/
def State.afterDrain (s : State) : DrainCause → State
  | .mainReset r tag => ((s.dropBindOff stAborted).complete r tag stOk).rampAgain
  | .maintenance => s.auxUp
  | .bindOff expelled =>
    let s1 := s.dropBindOff stOk
    if expelled then s1.enterPaddock else { s1 with pwr := { s1.pwr with mainBarred := true } }

/-- Main power is removed: the commands of the partitions end, the sources are safe, every main domain is off. -/
def State.powerOff (s : State) : State :=
  match s.pwr.drain with
  | none => s
  | some (cause, _) =>
    let s1 := s.abortMain.sourcesSafe.mainOff
    ({ s1 with pwr := { s1.pwr with drain := none } } : State).afterDrain cause

/-- The transit counters have been idle for 100 µs since the DRAIN at `t` (R15; log entry 45). -/
def State.transitIdle (s : State) (t : Word) : Bool := s.passed t 10000 && s.passed s.pwr.lastTransit 10000

/-- MAIN_POWER_REMOVE (R15): transit idle for 100 µs, or 50 ms after DRAIN. -/
def execMainPowerRemove (s : State) : Res :=
  match s.pwr.drain with
  | none => .next s
  | some (_, t) => doIf (s.pwr.aux && (s.transitIdle t || s.passed t 5000000)) s s.powerOff

/-- Main power is gone without command (R17): every main domain is off, and the module reports itself. -/
def State.loseMain (s : State) : State :=
  let s1 := s.cutStage.dropBindOff stAborted
  let s2 := ({ s1 with pwr := { s1.pwr with lost := true } } : State).hardWith 1 1
  s2.abortMain.sourcesSafe.mainOff

/-- MAIN_POWER_LOSS: power withdrawn during a drain ends the drain; main that is off is not lost. -/
def execMainPowerLoss (s : State) : Res :=
  let off := fun (s : State) => { s with gate := { s.gate with sig := { s.gate.sig with mainEn := false } } }
  .next (off (
    if !s.pwr.aux then s
    else if s.pwr.drain.isSome then s.powerOff
    else if s.mainOn then s.loseMain
    else s))

/-- MAIN_POWER_RESTORE: MAIN_EN is high; after a loss cast-on runs from CO2. A run that waits at CO2 goes on. -/
def execMainPowerRestore (s : State) : Res :=
  let s1 := { s with gate := { s.gate with sig := { s.gate.sig with mainEn := true } } }
  .next (if s.shepOn && s.pwr.lost && !s.pwr.mainBarred && !s.cast.running && s.pwr.drain.isNone then
    let s2 := { s1 with pwr := { s1.pwr with lost := false } }
    if s.shep.padWait.isSome then s2 else s2.rampAgain
  else s1)

/-- MAIN_RESET (R15, R16, R394): it completes once main power is off. Before CO2 there is nothing to reset. -/
def execMainReset (r : Nat) (s : State) : Res :=
  hostCmd s r 0x23 true fun _ tag s =>
    if s.pwr.drain.isSome || s.pwr.mainBarred then s.complete r tag stBusy
    else if s.cast.running && decide (s.cast.stage.toNat < 2) then s.complete r tag stOk
    else
      let s1 := ((s.cutStage.abortPartitions).selfReport 2 0).drainSend 1
      { s1 with pwr := { s1.pwr with drain := some (.mainReset r tag, s.tb) } }

/-! ### Partition resets and islands (R12 to R14, R140, R145, R394) -/

/-- The requested protection of a partition takes effect, for every band it owns (R140). -/
def State.applyProt (s : State) (p : Nat) : State :=
  let off := (s.part p).protOff
  let s1 := s.setPart p { s.part p with protOffActive := off }
  { s1 with bands := s1.bands.foldl (fun (t : Tab Band) (e : Nat × Band) =>
      if e.2.owner.toNat = p then tabSet (fun _ => ({} : Band)) t e.1 { e.2 with protOff := off } else t) s1.bands }

/-- Steps 1 to 3 of R145 for partition `p`, BAR2 writes that it has accepted among them, and its island off: it is assigned no more, or comes up again. -/
def State.resetPart (s : State) (p : Nat) : State :=
  let on := s.flash.settings.islands.getLsbD p
  let s := (s.flushWhere fun m => decide (s.ownerOf m.line = p)).setPart p { s.part p with resetting := on }
  let s1 := { s with bands := s.bands.foldl (fun (t : Tab Band) (e : Nat × Band) =>
    if e.2.owner.toNat = p then tabSet (fun _ => ({} : Band)) t e.1 { e.2 with busy := on } else t) s.bands }
  (((s1.rotateKey p).measReset p).applyProt p).islandOff p

/-- PARTITION_RESET. -/
def execPartitionReset (r : Nat) (s : State) : Res :=
  hostCmd s r 0x0A false fun _ tag s =>
    let s1 := (s.abortRing r (some tag)).resetPart r
    if s.flash.settings.islands.getLsbD r then s1.queueIsland r (some (r, tag)) else s1.complete r tag stOk

/-- Islands are brought up in order; the last one's end completes the command. -/
def State.queueIslands (s : State) (r : Nat) (tag : BitVec 16) (ps : List Nat) : State :=
  match ps.getLast? with
  | none => s.complete r tag stOk
  | some l => ps.foldl (fun (s : State) p => s.queueIsland p (if p = l then some (r, tag) else none)) s

/-- ALL_PARTITION_RESET: every partition key is rotated, the twin reserve's is kept. -/
def execAllPartitionReset (r : Nat) (s : State) : Res :=
  hostCmd s r 0x22 false fun _ tag s =>
    let s1 := (List.range 8).foldl State.resetPart s.abortPartitions
    s1.queueIslands r tag ((List.range 8).filter (fun p => s.flash.settings.islands.getLsbD p))

/-- Partition `p` owns a band or holds a loaded context. -/
def State.partInUse (s : State) (p : Nat) : Bool := s.bands.any (fun e => decide (e.2.owner.toNat = p)) || !s.partEmpty p

/-- An island is assigned no more: what waits to bring it up ends ABORTED, a run that brings it up is cut, and it
goes off (R12). -/
def State.unassign (s : State) (p : Nat) : State :=
  let late := (s.cast.islandQ.filter (fun e => decide (e.1 = p))).filterMap (·.2)
  let s1 := { s with cast := { s.cast with islandQ := s.cast.islandQ.filter (fun e => decide (e.1 ≠ p)) } }
  let s2 := late.foldl (fun (s : State) c => s.complete c.1 c.2 stAborted) s1
  if s2.cast.running && decide (s2.cast.run = .island p) then
    let s3 := match s2.cast.islandCmd with | some c => s2.complete c.1 c.2 stAborted | none => s2
    let s4 := s3.endStage { result := 3, d := List.replicate 7 noCount }
    ({ s4 with cast := { s4.cast with islandCmd := none } } : State).islandOff p
  else s2.islandOff p

/-- ISLAND_ASSIGN: byte 8 is the mask. The power sequencer refuses islands over a domain that is off (R13). -/
def execIslandAssign (r : Nat) (s : State) : Res :=
  hostCmd s r 0x21 false fun b tag s =>
    let mask := BitVec.ofNat 8 (fieldB b 8 1)
    let old := s.flash.settings.islands
    let gone := (List.range 8).filter (fun p => old.getLsbD p && !mask.getLsbD p)
    let new := (List.range 8).filter (fun p => mask.getLsbD p && !old.getLsbD p)
    if gone.any s.partInUse then s.complete r tag stBusy
    else if !new.isEmpty && !(s.pwr.transit && s.pwr.memory) then s.complete r tag stSequence
    else
      let st := s.flash.settings
      let s1 := gone.foldl State.unassign { s with flash := { s.flash with settings := { st with islands := mask } } }
      (if s.cast.running && !s1.cast.running then s1.nextIsland else s1).queueIslands r tag new

/-! ### The envelope (R20 to R25, R417) -/

/-- Input limit of a mode, W (Table 1-7). -/
def modeLimit (m : BitVec 2) : Nat := nth [3600, 3000, 2400, 600] m.toNat 0

/-- The limit in force: the cooling limit of R417 lowers it. -/
def State.powerLimit (s : State) : Nat :=
  if s.pwr.coolLimit then min (modeLimit s.pwr.mode) 2400 else modeLimit s.pwr.mode

/-- The upper end of the core voltage: 800 mV in P0 while the input stays below 3 600 W, else 750 mV. -/
def State.vcoreTop (s : State) (watts : Nat) : Nat :=
  if s.pwr.mode = 0 ∧ watts < 3600 then 800 else 750

/-- The set-point after one step of 5 mV: down over the limit or above 95 °C, up below the limit. -/
def State.vcoreStep (s : State) (watts : Nat) (hotQuarterC : Int) : Nat :=
  let v := s.pwr.vcore
  if s.powerLimit < watts ∨ 380 < hotQuarterC then max 600 (v - 5)
  else if s.vcoreTop watts < v then v - 5
  else if watts < s.powerLimit then min (s.vcoreTop watts) (v + 5)
  else v

/-- The mean of a list of measurements. -/
def meanNat (l : List Nat) : Nat := l.foldl (· + ·) 0 / max 1 l.length

/-- 100 µs have passed since the last step. -/
def State.stepDue (s : State) : Bool := match s.pwr.lastStep with | some t => s.passed t 10000 | none => true

/-- A measurement enters the window of 10 ms, and the time over the limit at 0.60 V (R22) and that above 110 °C (R417)
go on or end. What the supplies measure beside it is theirs (R419; log entry 61). -/
def State.measurePower (s : State) (watts : Nat) (hotQuarterC : Int) : State :=
  let w := Config.freeWord s.free
  { s with
    free := s.free + 1,
    gate := { s.gate with
      pin := BitVec.ofNat 16 (min watts 65535), vin := w.setWidth 16, vaux := (w >>> 16).setWidth 16,
      paux := (w >>> 32).setWidth 12 },
    pwr := { s.pwr with
      lastStep := some s.tb, inputs := (watts :: s.pwr.inputs).take 100,
      overSince := if s.powerLimit < watts ∧ s.pwr.vcore ≤ 600 ∧ s.pwr.mode ≠ 3
        then (match s.pwr.overSince with | some t => some t | none => some s.tb) else none,
      tripSince := if 440 < hotQuarterC then some (s.pwr.tripSince.getD s.tb) else none } }

/-- ENVELOPE_STEP (R21), every 100 µs: the mean input of the last 10 ms is held at or below the limit. In P3 the
islands stand at retention voltage. -/
def execEnvelopeStep (watts : Nat) (hotQuarterC : Int) (s : State) : Res :=
  let s1 := s.measurePower watts hotQuarterC
  doIf (s.pwr.aux && s.stepDue) s
    (if s.pwr.islands = 0 ∨ s.pwr.mode = 3 then s1
     else { s1 with pwr := { s1.pwr with vcore := s.vcoreStep (meanNat s1.pwr.inputs) hotQuarterC } })

/-- A running die has measured more than 95 °C in its last window. -/
def State.tooHot (s : State) : Bool :=
  s.dies.any (fun e => s.dieOn e.1 && e.2.senseValid && decide (380 < e.2.tj.toInt))

/-- The input has stayed above the limit for 10 ms with the core at 0.60 V (R22). -/
def State.overLong (s : State) : Bool := match s.pwr.overSince with | some t => s.passed t ticks10ms | none => false

/-- ADMISSION_PAUSE (R22; 16, R408): at 0.60 V, over the limit for 10 ms or too hot; the interval, which ends
with the input at `watts`, goes to the Tally Book. -/
def execAdmissionPause (watts : Nat) (ticks : BitVec 32) (s : State) : Res :=
  doIf (s.shepOn && decide (s.pwr.islands ≠ 0 ∧ s.pwr.mode ≠ 3 ∧ s.pwr.vcore ≤ 600) && (s.overLong || s.tooHot)) s
    (({ s with
        gate := { s.gate with pin := BitVec.ofNat 16 (min watts 65535) },
        pwr := { s.pwr with overSince := if s.powerLimit < watts then s.pwr.overSince else none } } : State).raise
      (.admissionPause ticks) 1)

/-- No chain runs, or every running chain stands at a hurdle (R24). -/
def State.atHurdles (s : State) : Bool :=
  s.ctxs.all (fun e => decide (e.2.mode ≠ .running ∧ e.2.mode ≠ .ready ∧ (e.2.mode = .waiting → e.2.waitCause = 3)))

/-- ENVELOPE_SET (R23, R24): byte 8 the mode, bit 0 of byte 9 persist. -/
def execEnvelopeSet (r : Nat) (s : State) : Res :=
  hostCmd s r 0x20 true fun b tag s =>
    let n := fieldB b 8 1
    let m := BitVec.ofNat 2 n
    if 3 < n then s.complete r tag stMalformed
    else if m = 3 && !s.atHurdles then s.complete r tag stBusy
    else
      let s1 := if m = s.pwr.mode then s else s.setMode m
      let st := s1.flash.settings
      (if (nth b 9 0).getLsbD 0 then { s1 with flash := { s1.flash with settings := { st with mode := some m } } } else s1).complete r tag stOk

/-! ### Beat windows (R29 to R33) -/

/-- Typical rate at 70 °C in beats per second, for a voltage in mV from 600 mV up (Table 2-2): linear between
the rows, above 800 mV that of 800 mV. -/
def rate70 (mv : Nat) : Nat :=
  if 800 ≤ mv then 1720000000
  else if 750 ≤ mv then 1550000000 + (mv - 750) * 3400000
  else 950000000 + (mv - 600) * 4000000

/-- A window is in deficit (R31): its beats are below 93.2 % of the typical rate at the voltage and temperature
(in quarters of a °C) that the die measured; below 0.60 V no rate is defined. Both sides are scaled to whole
numbers: 1 − 0.0012 × (T − 70) is (10 000 − 3 × (4T − 280)) / 10 000. -/
def rateDeficit (beats mv window : Nat) (quarterC : Int) : Bool :=
  decide (600 ≤ mv) &&
    decide ((beats : Int) * 100000000 * 1000 * 10000 < (rate70 mv : Int) * window * 932 * (10000 - 3 * (quarterC - 280)))

/-- What a die latches at the end of a window. -/
def TileDie.endWindow (d : TileDie) (tb : Word) (beats : BitVec 32) (mv tj : BitVec 12) : TileDie :=
  let short := rateDeficit beats.toNat mv.toNat d.window.toNat tj.toInt
  let count := stickAdd d.beatCount beats.toNat
  { d with
    beats := beats, seq := d.seq + 1, windowStart := tb,
    beatCount := count, countOvf := d.countOvf || decide (count = stickMax 64),
    beatMin := if beats.toNat < d.beatMin.toNat then beats else d.beatMin,
    vcoreMv := mv, tj := tj, senseValid := true,
    deficit := d.deficit || short, beatDeficit := if short then stickAdd d.beatDeficit 1 else d.beatDeficit }

/-- BEAT_WINDOW_END (R31, R32). -/
def execBeatWindowEnd (die : Nat) (beats : BitVec 32) (vcoreMv tj : BitVec 12) (s : State) : Res :=
  let d := s.die die
  let d1 := d.endWindow s.tb beats vcoreMv tj
  doIf (s.dieOn die && s.passed d.windowStart d.window.toNat) s
    ((s.setDie die d1).stuck (0x2000000 + 0x400000 * die + 0x3F0010) d.beatCount d1.beatCount)

/-- The window that a written value comes to (R32). -/
def clampWindow (w : BitVec 20) : BitVec 20 := BitVec.ofNat 20 (max 1000 (min 1000000 w.toNat))

/-- BEAT_WINDOW_WRITE (R33): a value that differs from the one in force abandons the window, whose `beats` so far
count in BEAT_COUNT alone (R32). -/
def execBeatWindowWrite (die : Nat) (window : BitVec 20) (beats : BitVec 32) (s : State) : Res :=
  let w := clampWindow window
  let d := s.die die
  let count := stickAdd d.beatCount beats.toNat
  let d1 := { d with window := w, windowStart := s.tb + 1, beatCount := count,
                     countOvf := d.countOvf || decide (count = stickMax 64) }
  doIf (s.dieOn die && decide (w ≠ d.window)) s
    ((s.setDie die d1).stuck (0x2000000 + 0x400000 * die + 0x3F0010) d.beatCount count)

/-- MIN_REARM (R32). -/
def execMinRearm (die : Nat) (s : State) : Res :=
  doIf (s.dieOn die) s (s.updDie die fun d => { d with beatMin := 0xFFFFFFFF })

/-! ### REFCLK (R36, R270, R328) -/

/-- The physical layers clocked from REFCLK lose lock: links that are up retrain, LPDDR5X refreshes itself, and
the PCIe link is down. -/
def State.loseLock (s : State) : State :=
  let s1 := if s.pwr.memory then
      (List.range 8).foldl (fun (s : State) n => s.updMd n fun x => { x with selfRefresh := true, twinTraffic := none }) s
    else s
  { s1 with
    gate := { s1.gate with pcieRate := 0, pcieFlit := false, pcieWidth := 0 },
    links := s1.links.map (fun e => (e.1, if e.2.state = 2 ∨ e.2.state = 4 then { e.2 with state := 3 } else e.2)) }

/-- HOLDOVER_ENTRY: hard-fault code 2; a stage of CO2 to CO9 fails with fault REFCLK, and cast-on restarts at CO2
when holdover ends. -/
def execHoldoverEntry (ppm : BitVec 16) (s : State) : Res :=
  let s1 := { s with gate := { s.gate with holdover := true, refclkFault := true, ppm := ppm, holdoverAt := s.tb } }
  let s2 := s1.loseLock
  doIf (s.pwr.aux && !s.gate.holdover) s
    (if !s.shepOn then s2
     else if s.cast.running && decide (2 ≤ s.cast.stage.toNat) then
       let s3 := s2.endStage { result := 2, fault := sfRefclk, d := List.replicate 7 noCount, hard := some 2 }
       { s3 with cast := { s3.cast with refclkRestart := true } }
     else s2.hardFault 2)

/-- Hard-fault code 2 clears itself (R36, R275): where another stands, hard stays. -/
def State.clearRefclk (s : State) : State :=
  let left := s.shep.hardCodes.filter (fun c => decide (c ≠ 2))
  if s.shep.hardCodes.contains 2 then
    { s with shep := { s.shep with hardCodes := left, hard := !left.isEmpty, selfFail := s.shep.selfFail && !left.isEmpty } }
  else s

/-- REFCLK is in tolerance, and can have been for 10 ms: holdover has lasted as long (R36). -/
def State.refclkBack (s : State) (ppm : BitVec 16) : Bool :=
  decide (-300 ≤ ppm.toInt ∧ ppm.toInt ≤ 300) && s.passed s.gate.holdoverAt ticks10ms

/-- HOLDOVER_EXIT: the PCIe link trains again, and the links retrain as at CO4 and CO6, or a cast-on that was stopped starts again at CO2; a
penned module whose only fault it was enters the paddock. -/
def execHoldoverExit (ppm : BitVec 16) (s : State) : Res :=
  let s0 := ({ s with gate := { s.gate with holdover := false, ppm := ppm } } : State).pcieUp
  let s1 := (if s0.gate.pcieWidth = 0 then s0 else { s0 with gate := { s0.gate with
    pcieRetrains := stickAdd s0.gate.pcieRetrains 1 } }).clearRefclk
  let s2 := if s1.padReady && !s.cast.refclkRestart then s1.enterPaddock else s1
  doIf (s.pwr.aux && s.gate.holdover && s.refclkBack ppm) s
    (if !s.shepOn then s1
     else if s.cast.refclkRestart then (if s1.shep.hard then s1 else s1.rampAgain)
     else if s2.shep.paddock && !s.shep.paddock then s2
     else if s.pwr.transit && s.pwr.memory && !s.cast.running then s2.startRun .refclk
     else s2)

end Sys2Proof.Machine
end

