-- ==== Sys2Proof/Machine/Order.lean ====
section
/-! DEFINITION. Control messages of the pod manager that have no row of their own: what each orders (13, R356, R357;
log entry 56). -/

namespace Sys2Proof.Machine

/-- The sequence of these is kept in the settings store before the Gate acts (R357). -/
def orderKeeps : CtlOrder → Bool
  | .rejectImage _ | .ownerRelease _ => true
  | _ => false

/-- The pod manager selects an envelope mode, as ENVELOPE_SET does (R20, R24, Note after R25). -/
def State.orderMode (s : State) (m : BitVec 2) : State :=
  if !s.pwr.transit || decide (m = s.pwr.mode) || (decide (m = 3) && !s.atHurdles) then s else s.setMode m

/-- An erased channel is used again once a sweep of its stack has passed (R134): the settings store forgets it, and the
stack where its die is up. -/
def State.orderErased (s : State) (k c : Nat) (swept : Bool) : State :=
  if !swept || decide (40 ≤ k ∨ 18 ≤ c) then s
  else
    let st := s.flash.settings
    let s1 := { s with flash := { s.flash with settings := { st with erased := st.erased.filter (fun e => decide (e ≠ (k, c))) } } }
    if s1.pwr.memory then s1.updStack (k / 5) (k % 5) fun x => { x with erased := x.erased &&& ~~~((1 : BitVec 18) <<< c) } else s1

/-- The service command that clears `hard`, after repair (R275). -/
def State.orderHard (s : State) : State :=
  { s with shep := { s.shep with hard := false, hardCodes := [] } }

/-- Monitor references are taken again, at the next report of each source (R215). -/
def State.orderRefs (s : State) : State := (List.range 4).foldl State.dropRefs s

/-- What the order does. -/
def State.order (s : State) : CtlOrder → State
  | .other => s
  | .envelopeMode m => s.orderMode m
  | .clearErased k c swept => s.orderErased k c swept
  | .clearHard => s.orderHard
  | .unpen c d => s.sendUnpen c d
  | .vacancy g => s.nameVacancy g
  | .commission => s.orderRefs
  | .rejectImage now => s.rejectTrial now
  | .ownerRelease sigOk => if sigOk then s.disown else s.authFail 4
  | .storageTarget a => { s with flash := { s.flash with settings := { s.flash.settings with storage := a } } }

/-- CONTROL_MESSAGE (R356, R357): a message is checked, its sequence kept, and its order carried out. -/
def execControlMessage (h : CtlHdr) (o : CtlOrder) (s : State) : Res := ctlMsg s h (orderKeeps o) fun s => s.order o

end Sys2Proof.Machine
end

