-- ==== Sys2Proof/Machine/Physical.lean ====
section
/-! DEFINITION. The MOVE command (15, R393; 06, R146), service requests, coolant and junction protection, and
comb sources fitted or removed (16, R408, R415, R417). -/

namespace Sys2Proof.Machine

/-! ### MOVE (R72, R146, R393, R394) -/

/-- A length that MOVE takes: a multiple of 64, at most 1 GiB. -/
def moveLen (n : Nat) : Bool := decide (n ≠ 0 ∧ n % 64 = 0 ∧ n ≤ 0x40000000)

/-- The bytes move whole; the command stays in flight until MOVE_COMPLETE. An uncorrectable unit ends it with
a status that the spec does not give (log entry 5), the units before it having moved. -/
def State.moveBytes (s : State) (r : Nat) (tag : BitVec 16) (host a n : Nat) (toModule : Bool) (bytes : List Byte) : State :=
  let bad := fun (s : State) => ({ s with free := s.free + 1 } : State).complete r tag ((Config.freeWord s.free).setWidth 16)
  if toModule then
    match s.writeRange a (bytes.take n) 3 with
    | (s1, true) => s1
    | (s1, false) => bad s1
  else
    match s.readRange a n 3 with
    | (s1, bs, none) => s1.emit (.hostWrite host bs)
    | (s1, bs, some _) => bad (s1.emit (.hostWrite host bs))

/-- MOVE: `bytes` are what the DMA reads from host memory; the module side is checked before any byte moves. -/
def execMove (r : Nat) (dmaOk : Bool) (bytes : List Byte) (s : State) : Res :=
  hostCmd s r 0x09 false fun b tag s =>
    let n := fieldB b 24 4
    let a := fieldB b 16 8
    if !moveLen n then s.complete r tag stMalformed
    else if !s.reach r a n then s.complete r tag stAddress
    else if !dmaOk then s.complete r tag stDmaError
    else s.moveBytes r tag (fieldB b 8 8) a n ((nth b 28 0).getLsbD 0) bytes

/-- MOVE_COMPLETE: a MOVE in flight ends, with DMA_ERROR where host memory failed it. -/
def execMoveComplete (r : Nat) (tag : BitVec 16) (ok : Bool) (s : State) : Res :=
  doIf (s.pwr.aux && (s.ring r).fetched.any (fun c => c.started && decide (blkOp c.block = 0x09 ∧ blkTag c.block = tag))) s
    (s.complete r tag (if ok then stOk else stDmaError))

/-! ### The status indicator and ALERT_N (R406, R414) -/

/-- What the status indicator shows (Table 16-1); `dark` with aux present, where no row holds. -/
inductive Indicator where
  | off | blue | amber | amberBlink | greenBlink | green | dark
  deriving DecidableEq, Repr

/-- The status indicator: the first row of Table 16-1 that holds (R406). That it is dark where aux is present and no row
holds is the model's choice (DESIGN CHOICE, log entry 61). -/
def State.statusIndicator (s : State) : Indicator :=
  if !s.pwr.aux then .off
  else if s.pwr.mainBarred then .blue
  else if s.shep.hard || s.cast.held then .amber
  else if s.shep.penned || s.shep.paddock then .amberBlink
  else if s.cast.running then .greenBlink
  else if s.cast.ready then .green
  else .dark

/-- ALERT_N is driven low (R414): a fatal event or a hold is recorded, or the module is penned; in hold state 1, where the
boot ROM runs, it is released (log entry 61). -/
def State.alertLow (s : State) : Bool :=
  s.pwr.aux && (s.gate.irqFatal || s.gate.irqHold || s.shep.penned) && decide (s.cast.hold ≠ 1)

/-! ### Service request (R415) -/

/-- A request has been taken: further ones are ignored until the indicator shows blue. -/
def State.serving (s : State) : Bool := s.gate.sig.attnTaken && decide (s.statusIndicator ≠ .blue)

/-- SERVICE_REQUEST: ATTN_N has been low for 1 s, having been high for 1 s since aux power-up. -/
def execServiceRequest (s : State) : Res :=
  let s1 := { s with gate := { s.gate with sig := { s.gate.sig with attnN := false, attnReq := true, attnTaken := true } } }
  doIf (s.pwr.aux && !s.serving) s (s1.raise .serviceRequest 1).serviceAct

/-! ### Cooling (R417) -/

/-- Since when a condition has held, as a sample finds it. -/
def since (now : Word) (old : Option Word) (holds : Bool) : Option Word := if holds then some (old.getD now) else none

/-- A condition has held for `n` ticks. -/
def State.lasted (s : State) (t : Option Word) (n : Nat) : Bool := match t with | some a => s.passed a n | none => false

/-- COOLANT_SAMPLE: 0.01 °C and 0.01 L/min, every 100 ms; each condition of R417 goes on or ends. -/
def execCoolantSample (inlet outlet flow : BitVec 16) (s : State) : Res :=
  let g := s.gate
  let low := decide (flow.toNat < 500)
  let hot := decide (4500 < inlet.toInt)
  doIf (s.pwr.aux && (g.coolAt.isNone || s.lasted g.coolAt 10000000)) s
    { s with gate := { g with
      inlet := inlet, outlet := outlet, flow := flow, coolAt := some s.tb,
      flowLow := since s.tb g.flowLow low, flowTrip := since s.tb g.flowTrip (decide (flow.toNat < 100)),
      inletHot := since s.tb g.inletHot hot, coolGood := since s.tb g.coolGood (!low && !hot) } }

/-- Flow below 5.0 L/min for 1 s, or inlet above 45 °C for 1 s. -/
def State.coolingBad (s : State) : Bool := s.lasted s.gate.flowLow 100000000 || s.lasted s.gate.inletHot 100000000

/-- COOLING_LOW. -/
def execCoolingLow (s : State) : Res :=
  doIf (s.shepOn && s.coolingBad && !s.pwr.coolLimit) s
    (({ s with pwr := { s.pwr with coolLimit := true }, gate := { s.gate with coolingLow := true } } : State).raise .cooling 2)

/-- COOLING_RECOVERED: both within limits for 60 s. -/
def execCoolingRecovered (s : State) : Res :=
  doIf (s.shepOn && s.lasted s.gate.coolGood 6000000000 && s.pwr.coolLimit) s { s with pwr := { s.pwr with coolLimit := false } }

/-- THERMAL_TRIP: a junction above 110 °C for 10 ms, or flow below 1.0 L/min for 2 s; main power is removed,
and the module reports itself as under R17. -/
def execThermalTrip (s : State) : Res :=
  let s1 := s.loseMain
  doIf (s.shepOn && s.mainOn && (s.lasted s.pwr.tripSince ticks10ms || s.lasted s.gate.flowTrip 200000000)) s
    { s1 with gate := { s1.gate with thermalTrip := true } }

/-! ### Comb sources (R408) -/

/-- A bit of a vector set to a value. -/
def putBit {w : Nat} (v : BitVec w) (i : Nat) (b : Bool) : BitVec w :=
  if b then v ||| (1 <<< i) else v &&& ~~~((1 : BitVec w) <<< i)

/-- ECS_PRES_CHANGE: a source that is removed takes its feeds with it (R220). One that is fitted starts in safe mode, its
feeds counted as lost until they are checked (Table 8-3; log entry 37). -/
def execEcsPresChange (x : Nat) (present : Bool) (s : State) : Res :=
  let was := (s.ecsOf x).present
  let s1 := { s with gate := { s.gate with sig := { s.gate.sig with ecsPresent := putBit s.gate.sig.ecsPresent x present } } }
  doIf (decide (x < 4)) s
    (if s.pwr.aux && was && !present then
       let s2 := (s1.updEcs x fun c => { feedLost := c.feedLost, commsFail := c.commsFail }).loseFeeds x 0xF
       if s2.atStage 7 then { s2 with cast := { s2.cast with ecsGone := s2.cast.ecsGone ||| (1 <<< x) } } else s2
     else s1.updEcs x fun c => { c with present := present })

end Sys2Proof.Machine
end

