-- ==== Sys2Proof/Machine/RegMap.lean ====
section
/-! DEFINITION. The registers of BAR0 (15, R385, R386, and the Registers section of each chapter): where each
stands, how wide it is, and which of its bits are RSV. -/

namespace Sys2Proof.Machine

/-- Registers with fields that a write stores or clears (access RW or W1C, or written by firmware); `ro` for
every other register. -/
inductive RegId where
  | ro
  | tileBeatStatus
  | gateTbStatus
  | fabHurTimeout
  | memEraseThresh
  | memScrubCtl
  | memUeLog
  | tileStoreUeLog
  | gatePartMem
  | gateBar2Ctl
  | gateBar2Base
  | fabStatus
  | fabRouteCtl
  | fabVcWeight
  | gateFlockCtl
  | optDarkThresh
  | gateEcsStatus
  | crookStatus
  | crookProgBind
  | crookSeekCfg
  | crookNotchCtl
  | crookSlipCfg
  | crookHandoverCfg
  | crookExcite
  | crookProfile
  | crookElemCfg
  | crookElemStat
  | crookElemSupv
  | shepVerdictLast
  | shepScore
  | shepTwin
  | shepCkptCtl
  | castCtl
  | secMeasCursor
  | tallyStatus
  | tallyCtl
  | tallyRateDef
  | tallyRateOvr
  | testCtl
  | testStat
  | testPat
  | gateErrStatus
  | gateIrqCtl
  | gateIrqCause
  | gateRingCtrlAddr
  | gateRingCmdBase
  | gateRingCplBase
  | gateRingCfg
  | gateRingCtl
  | gateRingStatus
  | gateMboxCtl
  | gateMboxStatus
  | gateMboxData
  | gateSignals
  | gateFlow
  | msixTable
  | tileBeatCtl
  | gateEcsCtl
  | tallyCursor
  | tallyBbCtl
  | crookProgCtl
  | crookElemCmd
  | crookElemCoef
  | crookBankCoef
  | crookProgMem
  | secFwConfirm
  deriving DecidableEq, Repr

/-- A register of a block: its offset, whether it is 64 bits wide, its indices as (stride, count), and its RSV
bits. -/
structure RegDef where
  off : Nat
  wide : Bool
  dims : List (Nat × Nat)
  rsv : Nat
  id : RegId

/-- The blocks of Table 15-2. -/
inductive Blk where
  | gate | shep | tally | cast | crook | opt | fab | mem | tile | sec
  deriving DecidableEq, Repr

/-- The registers of GATE. -/
def gateRegs : List RegDef :=
  [ ⟨0x200, true, [], 0x0, .ro⟩,
    ⟨0x208, false, [], 0xFFFC, .gateTbStatus⟩,
    ⟨0x1000, false, [(4, 160)], 0xFFFFFFC0, .ro⟩,
    ⟨0x1400, false, [(4, 8)], 0xFFFF00FC, .gatePartMem⟩,
    ⟨0x1420, false, [], 0x0, .ro⟩,
    ⟨0x1500, false, [], 0xFFFFFE00, .gateBar2Ctl⟩,
    ⟨0x1508, true, [], 0xFFFF000000000000, .gateBar2Base⟩,
    ⟨0x1510, false, [], 0x0, .ro⟩,
    ⟨0x2000, false, [], 0xFFF80000, .gateFlockCtl⟩,
    ⟨0x2008, false, [(4, 6)], 0x0, .ro⟩,
    ⟨0x3000, false, [(16, 4)], 0xFF80, .gateEcsStatus⟩,
    ⟨0x3004, false, [(16, 4)], 0xFFFFFFFE, .gateEcsCtl⟩,
    ⟨0x4000, false, [(64, 16)], 0xFFFFE000, .testCtl⟩,
    ⟨0x4004, false, [(64, 16)], 0xFC, .testStat⟩,
    ⟨0x4008, true, [(64, 16)], 0x0, .testPat⟩,
    ⟨0x4010, true, [(64, 16)], 0x0, .ro⟩,
    ⟨0x4018, true, [(64, 16)], 0x0, .ro⟩,
    ⟨0x4020, true, [(64, 16)], 0x0, .ro⟩,
    ⟨0x4028, true, [(64, 16)], 0x0, .ro⟩,
    ⟨0x0, false, [], 0x0, .ro⟩,
    ⟨0x10, false, [], 0xFE000000, .gateErrStatus⟩,
    ⟨0x100, false, [], 0xFFFF0000, .ro⟩,
    ⟨0x104, false, [], 0xFFFF0FC0, .gateIrqCtl⟩,
    ⟨0x108, false, [], 0xFFFFFFF0, .gateIrqCause⟩ ] ++
  [ ⟨0x500, true, [(64, 9)], 0x0, .gateRingCtrlAddr⟩,
    ⟨0x508, true, [(64, 9)], 0x0, .gateRingCmdBase⟩,
    ⟨0x510, true, [(64, 9)], 0x0, .gateRingCplBase⟩,
    ⟨0x518, false, [(64, 9)], 0xFC000000, .gateRingCfg⟩,
    ⟨0x51C, false, [(64, 9)], 0xFFFF00FE, .gateRingCtl⟩,
    ⟨0x520, false, [(64, 9)], 0xFFF80000, .gateRingStatus⟩,
    ⟨0x528, true, [(64, 9)], 0x0, .ro⟩,
    ⟨0x530, true, [(64, 9)], 0x0, .ro⟩,
    ⟨0x800, false, [], 0x7F800000, .gateMboxCtl⟩,
    ⟨0x804, false, [], 0x800000FC, .gateMboxStatus⟩,
    ⟨0x6000, false, [(4, 4096)], 0x0, .gateMboxData⟩,
    ⟨0x300, false, [], 0xFFFFF0C0, .gateSignals⟩,
    ⟨0x304, false, [], 0x0, .ro⟩,
    ⟨0x308, false, [], 0xE0000000, .ro⟩,
    ⟨0x30C, false, [], 0x0, .ro⟩,
    ⟨0x310, false, [], 0xFFFC0000, .gateFlow⟩,
    ⟨0xC000, false, [(4, 256)], 0x0, .msixTable⟩,
    ⟨0xD000, true, [], 0x0, .ro⟩ ]

/-- The registers of SHEP. -/
def shepRegs : List RegDef :=
  [ ⟨0x0, false, [], 0xF800FF80, .ro⟩,
    ⟨0x4, false, [], 0x0, .ro⟩,
    ⟨0x8, false, [], 0xFFFEF800, .ro⟩,
    ⟨0x100, true, [(8, 16)], 0x7FFFFF00000000E0, .ro⟩,
    ⟨0x200, true, [], 0x0, .ro⟩,
    ⟨0x208, true, [], 0xFFF0F800, .shepVerdictLast⟩,
    ⟨0x300, false, [], 0xFE00, .shepScore⟩,
    ⟨0x304, false, [], 0xFFFFFF00, .ro⟩,
    ⟨0x310, false, [(4, 9)], 0xFFFF0000, .ro⟩,
    ⟨0x400, false, [], 0xFE00, .ro⟩,
    ⟨0x408, true, [(8, 8)], 0x0, .ro⟩,
    ⟨0x448, false, [], 0x0, .ro⟩,
    ⟨0x480, false, [], 0xF08800, .ro⟩,
    ⟨0x4C0, false, [], 0xFFF0, .ro⟩,
    ⟨0x500, false, [], 0xFFF0, .ro⟩,
    ⟨0x600, true, [], 0xFFFF00FE, .ro⟩,
    ⟨0x800, false, [], 0xFFF0F800, .shepTwin⟩,
    ⟨0x804, false, [], 0x0, .shepCkptCtl⟩,
    ⟨0x840, false, [(64, 8)], 0xFE08, .ro⟩,
    ⟨0x848, true, [(64, 8)], 0x0, .ro⟩,
    ⟨0x850, false, [(64, 8)], 0x0, .ro⟩,
    ⟨0xC00, false, [(32, 8)], 0x0, .ro⟩,
    ⟨0xC08, true, [(32, 8)], 0x0, .ro⟩,
    ⟨0xC10, false, [(32, 8)], 0xFE000000, .ro⟩ ] ++
  [ ⟨0xC18, true, [(32, 8)], 0xC000000000000000, .ro⟩ ]

/-- The registers of TALLY. -/
def tallyRegs : List RegDef :=
  [ ⟨0x0, false, [], 0xF8000000, .tallyStatus⟩,
    ⟨0x4, false, [], 0xFFFFFFF0, .tallyCtl⟩,
    ⟨0x8, false, [], 0xFFFFE000, .tallyCursor⟩,
    ⟨0x10, true, [], 0x0, .ro⟩,
    ⟨0x18, true, [], 0x0, .ro⟩,
    ⟨0x20, true, [], 0x0, .ro⟩,
    ⟨0x28, true, [], 0x0, .ro⟩,
    ⟨0x30, true, [], 0x0, .ro⟩,
    ⟨0x40, false, [(4, 17)], 0x0, .ro⟩,
    ⟨0x90, false, [], 0x0, .tallyRateDef⟩,
    ⟨0x100, false, [(4, 64)], 0x0, .tallyRateOvr⟩,
    ⟨0x200, false, [], 0xFE0000, .ro⟩,
    ⟨0x204, false, [], 0xFFFF8000, .tallyBbCtl⟩,
    ⟨0x208, true, [], 0x0, .ro⟩,
    ⟨0x220, false, [(4, 8)], 0x0, .ro⟩ ]

/-- The registers of CAST. -/
def castRegs : List RegDef :=
  [ ⟨0x0, false, [], 0xFF00FC00, .ro⟩,
    ⟨0x4, false, [], 0xFFFFFFFC, .castCtl⟩,
    ⟨0x8, false, [], 0x0, .ro⟩,
    ⟨0xC, false, [], 0xE000, .ro⟩,
    ⟨0x10, false, [(4, 3)], 0x0, .ro⟩,
    ⟨0x100, false, [(64, 10), (4, 16)], 0x0, .ro⟩,
    ⟨0x800, true, [(8, 96)], 0xFFFF00F8F800F800, .ro⟩,
    ⟨0x1000, false, [(4, 640)], 0xF0, .ro⟩ ]

/-- The registers of CROOK. -/
def crookRegs : List RegDef :=
  [ ⟨0x0, false, [], 0xFFF8FF80, .crookStatus⟩,
    ⟨0x4, false, [], 0xFFFFFFFE, .crookProgCtl⟩,
    ⟨0x8, true, [], 0x0, .ro⟩,
    ⟨0x10, false, [], 0xF0000000, .ro⟩,
    ⟨0x20, false, [(4, 4)], 0xF800FC00, .crookProgBind⟩,
    ⟨0x30, false, [], 0x0, .ro⟩,
    ⟨0x40, false, [], 0x0, .crookSeekCfg⟩,
    ⟨0x44, false, [], 0xFFFF0000, .crookNotchCtl⟩,
    ⟨0x48, false, [], 0xFF000000, .crookSlipCfg⟩,
    ⟨0x4C, false, [], 0xFFFF0000, .crookHandoverCfg⟩,
    ⟨0x50, false, [], 0xFE000000, .crookExcite⟩,
    ⟨0x58, true, [], 0x0, .ro⟩,
    ⟨0x100, false, [(16, 4), (4, 3)], 0x0, .crookProfile⟩,
    ⟨0x10000, false, [(64, 176)], 0xFFF0E0E0, .crookElemCfg⟩,
    ⟨0x10004, false, [(64, 176)], 0xFFFFFC80, .crookElemCmd⟩,
    ⟨0x10008, false, [(64, 176)], 0xFC00, .crookElemStat⟩,
    ⟨0x1000C, false, [(64, 176)], 0x0, .ro⟩,
    ⟨0x10010, false, [(64, 176)], 0x0, .ro⟩,
    ⟨0x10014, false, [(64, 176)], 0x0, .crookElemSupv⟩,
    ⟨0x10018, false, [(64, 176)], 0x0, .ro⟩,
    ⟨0x10020, true, [(64, 176)], 0x0, .ro⟩,
    ⟨0x10028, true, [(64, 176)], 0x0, .ro⟩,
    ⟨0x20000, false, [(256, 176), (4, 32)], 0x0, .crookElemCoef⟩,
    ⟨0x30000, false, [(64, 176), (4, 16)], 0xFFFF0000, .ro⟩ ] ++
  [ ⟨0x40000, false, [(32, 16)], 0xFFE00000, .ro⟩,
    ⟨0x41000, false, [(256, 16), (4, 32)], 0x0, .crookBankCoef⟩,
    ⟨0x60000, false, [(4, 1024)], 0x0, .crookProgMem⟩,
    ⟨0x80000, false, [(256, 176), (4, 17)], 0x0, .ro⟩ ]

/-- The registers of OPT. -/
def optRegs : List RegDef :=
  [ ⟨0x0, false, [], 0xFFF8, .ro⟩,
    ⟨0x100, false, [(64, 16)], 0xFFFC00C0, .ro⟩,
    ⟨0x104, false, [(64, 16)], 0x0, .ro⟩,
    ⟨0x108, true, [(64, 16)], 0x0, .ro⟩,
    ⟨0x110, false, [(64, 16)], 0x0, .ro⟩,
    ⟨0x114, false, [(64, 16)], 0xFFFFFF00, .ro⟩,
    ⟨0x118, true, [(64, 16)], 0x0, .ro⟩,
    ⟨0x800, false, [(32, 64)], 0xFFC08888, .ro⟩,
    ⟨0x1000, false, [(64, 16), (4, 8)], 0x7FC0F800, .ro⟩,
    ⟨0x2000, false, [(64, 16), (4, 8)], 0xFC0000, .ro⟩,
    ⟨0x3000, false, [], 0xFFFF0000, .optDarkThresh⟩,
    ⟨0x3010, false, [(4, 7)], 0x0, .ro⟩ ]

/-- Registers that FAB0 alone has: the hurdle unit. -/
def fab0Regs : List RegDef :=
  [ ⟨0x1E0000, false, [(64, 8)], 0xFC000000, .ro⟩,
    ⟨0x1E0008, true, [(64, 8)], 0x0, .ro⟩,
    ⟨0x1E0010, false, [(64, 8)], 0x0, .ro⟩,
    ⟨0x1E0018, true, [(64, 8)], 0x0, .ro⟩,
    ⟨0x1E0400, false, [], 0x0, .fabHurTimeout⟩,
    ⟨0x1E0020, false, [(64, 8)], 0xFFFFFFFE, .ro⟩ ]

/-- The registers of FAB. -/
def fabRegs : List RegDef :=
  [ ⟨0x100, false, [(4, 12)], 0xFFFC, .ro⟩,
    ⟨0x10000, false, [(64, 176)], 0xF800FC00, .ro⟩,
    ⟨0x10008, true, [(64, 176)], 0x0, .ro⟩,
    ⟨0x10010, true, [(64, 176)], 0x0, .ro⟩,
    ⟨0x10018, true, [(64, 176)], 0x0, .ro⟩,
    ⟨0x0, false, [], 0xFFFFFFFE, .fabStatus⟩,
    ⟨0x20000, false, [], 0xFFFF00E0, .fabRouteCtl⟩,
    ⟨0x20010, false, [], 0xFFFFF000, .fabVcWeight⟩,
    ⟨0x40000, true, [(8, 2048)], 0xFC00000000000000, .ro⟩,
    ⟨0x60000, false, [(16, 8)], 0xFC000000, .ro⟩,
    ⟨0x70000, true, [(8192, 8), (16, 512)], 0xFFFFFFFFFFFFF800, .ro⟩,
    ⟨0x70008, true, [(8192, 8), (16, 512)], 0x0, .ro⟩,
    ⟨0x80000, false, [(4, 64)], 0x0, .ro⟩,
    ⟨0x80100, true, [(8, 11)], 0x0, .ro⟩,
    ⟨0x80200, true, [(8, 4)], 0x0, .ro⟩,
    ⟨0xA0000, false, [(64, 320)], 0xFFFFE000, .testCtl⟩,
    ⟨0xA0004, false, [(64, 320)], 0xFC, .testStat⟩,
    ⟨0xA0008, true, [(64, 320)], 0x0, .testPat⟩,
    ⟨0xA0010, true, [(64, 320)], 0x0, .ro⟩,
    ⟨0xA0018, true, [(64, 320)], 0x0, .ro⟩,
    ⟨0xA0020, true, [(64, 320)], 0x0, .ro⟩,
    ⟨0xA0028, true, [(64, 320)], 0x0, .ro⟩ ]

/-- The registers of MEM. -/
def memRegs : List RegDef :=
  [ ⟨0x0, false, [], 0xFFFEF8E0, .ro⟩,
    ⟨0x100, false, [(16, 5)], 0xFCFC0000, .ro⟩,
    ⟨0x104, false, [(16, 5)], 0x0, .ro⟩,
    ⟨0x108, false, [(16, 5)], 0x0, .ro⟩,
    ⟨0x10C, false, [(16, 5)], 0x0, .ro⟩,
    ⟨0x200, false, [(4, 90)], 0x0, .ro⟩,
    ⟨0x400, false, [], 0xFFFF0000, .memEraseThresh⟩,
    ⟨0x404, false, [], 0xFFFFFE00, .memScrubCtl⟩,
    ⟨0x408, true, [], 0x0, .ro⟩,
    ⟨0x410, true, [], 0x7F00000000000000, .memUeLog⟩,
    ⟨0x418, true, [], 0x0, .ro⟩ ]

/-- The registers of TILE. -/
def tileRegs : List RegDef :=
  [ ⟨0x3F0000, false, [], 0x7FF00000, .tileBeatCtl⟩,
    ⟨0x3F0008, true, [], 0xFFFFFF0000000000, .ro⟩,
    ⟨0x3F0010, true, [], 0x0, .ro⟩,
    ⟨0x3F0018, false, [], 0x0, .ro⟩,
    ⟨0x3F0020, false, [], 0x7000F000, .ro⟩,
    ⟨0x3F0028, false, [], 0xFFFFFFFC, .tileBeatStatus⟩,
    ⟨0x3F0030, false, [], 0x0, .ro⟩,
    ⟨0x0, false, [], 0xFC, .ro⟩,
    ⟨0x100, false, [(4, 16)], 0xFFFFFC00, .ro⟩,
    ⟨0x200, false, [], 0x0, .ro⟩,
    ⟨0x208, true, [], 0x0, .ro⟩,
    ⟨0x210, false, [], 0x0, .ro⟩,
    ⟨0x100000, false, [(256, 240), (32, 4)], 0xF008, .ro⟩,
    ⟨0x100004, false, [(256, 240), (32, 4)], 0xFFFF8000, .ro⟩,
    ⟨0x100008, false, [(256, 240), (32, 4)], 0xFFFFFFE0, .ro⟩,
    ⟨0x10000C, false, [(256, 240), (32, 4)], 0xFF000000, .ro⟩,
    ⟨0x100010, true, [(256, 240), (32, 4)], 0x0, .ro⟩,
    ⟨0x100018, true, [(256, 240), (32, 4)], 0x0, .ro⟩,
    ⟨0x300, false, [], 0x0, .ro⟩,
    ⟨0x304, false, [], 0x0, .ro⟩,
    ⟨0x308, false, [], 0x0, .ro⟩,
    ⟨0x310, true, [], 0x7FFF000000000000, .tileStoreUeLog⟩ ]

/-- The registers of SEC. -/
def secRegs : List RegDef :=
  [ ⟨0x0, false, [], 0xF8, .ro⟩,
    ⟨0x4, false, [], 0x0, .ro⟩,
    ⟨0x10, false, [(16, 2)], 0xFF08, .ro⟩,
    ⟨0x14, false, [(16, 2)], 0x0, .ro⟩,
    ⟨0x18, false, [(16, 2)], 0x0, .ro⟩,
    ⟨0x40, false, [], 0x0, .ro⟩,
    ⟨0x48, true, [], 0x0, .ro⟩,
    ⟨0x50, false, [], 0x0, .secFwConfirm⟩,
    ⟨0x100, false, [], 0xFFFC, .ro⟩,
    ⟨0x120, false, [(4, 8)], 0x0, .ro⟩,
    ⟨0x200, true, [], 0x0, .ro⟩,
    ⟨0x208, true, [], 0x0, .ro⟩,
    ⟨0x210, false, [], 0xFFFC, .ro⟩,
    ⟨0x420, false, [(32, 8), (4, 8)], 0x0, .ro⟩,
    ⟨0x600, false, [(32, 8), (4, 8)], 0x0, .ro⟩,
    ⟨0x800, false, [], 0xFFFFC000, .ro⟩,
    ⟨0x804, false, [], 0xFFFFF000, .secMeasCursor⟩,
    ⟨0x840, false, [(4, 16)], 0x0, .ro⟩,
    ⟨0x900, false, [], 0xFFFC, .ro⟩,
    ⟨0x910, false, [(4, 6)], 0x0, .ro⟩,
    ⟨0xA00, true, [], 0x0, .ro⟩,
    ⟨0xA08, true, [], 0xFFF8000000000000, .ro⟩,
    ⟨0xB00, false, [], 0xFFFF00F0, .ro⟩ ]

/-- The registers of a block. -/
def blkRegs : Blk → Nat → List RegDef
  | .gate, _ => gateRegs
  | .shep, _ => shepRegs
  | .tally, _ => tallyRegs
  | .cast, _ => castRegs
  | .crook, _ => crookRegs
  | .opt, _ => optRegs
  | .fab, n => if n = 0 then fabRegs ++ fab0Regs else fabRegs
  | .mem, _ => memRegs
  | .tile, _ => tileRegs
  | .sec, _ => secRegs

/-- Table 15-2: base, spacing, count and size of each block. -/
def blkTable : List (Blk × Nat × Nat × Nat × Nat) :=
  [ (.gate, 0, 0x100000, 1, 0x100000), (.shep, 0x100000, 0x80000, 1, 0x80000), (.tally, 0x180000, 0x80000, 1, 0x80000),
    (.cast, 0x200000, 0x200000, 1, 0x200000), (.crook, 0x400000, 0x100000, 4, 0x100000), (.opt, 0x800000, 0x100000, 4, 0x100000),
    (.fab, 0xC00000, 0x200000, 2, 0x200000), (.mem, 0x1000000, 0x200000, 8, 0x200000), (.tile, 0x2000000, 0x400000, 40, 0x400000),
    (.sec, 0xF000000, 0x1000000, 1, 0x1000000) ]

/-- The block at an offset of BAR0, its number and the offset within it. -/
def blkAt (off : Nat) : Option (Blk × Nat × Nat) :=
  blkTable.findSome? (fun e =>
    let (b, base, step, count, _) := e
    if base ≤ off ∧ off < base + step * count then some (b, (off - base) / step, (off - base) % step) else none)

/-- The indices that a remainder gives under the dimensions of a register, and what is left. -/
def regIndex : List (Nat × Nat) → Nat → Option (List Nat × Nat)
  | [], r => some ([], r)
  | (st, n) :: ds, r => if r / st < n then (regIndex ds (r % st)).map (fun p => (r / st :: p.1, p.2)) else none

/-- The register with a 32-bit word at an offset of a block: its definition, its indices, and whether the word
is its upper half. -/
def regAt (b : Blk) (n off : Nat) : Option (RegDef × List Nat × Bool) :=
  (blkRegs b n).findSome? (fun d =>
    if off < d.off then none
    else match regIndex d.dims (off - d.off) with
      | some (is, 0) => some (d, is, false)
      | some (is, 4) => if d.wide then some (d, is, true) else none
      | _ => none)

end Sys2Proof.Machine
end

