-- ==== Sys2Proof/Machine/RegWrite.lean ====
section
/-! DEFINITION. Writes of register fields by their access codes (00, R8; 09, R258; 13, R362; 14, R380, R382; 15,
R386, R400, R404). -/

namespace Sys2Proof.Machine

/-! ### Fields -/

/-- What a 32-bit word of a write brings to a register: the bits it covers, and their values. -/
structure Wr where
  m : Word
  v : Word
  deriving DecidableEq, Repr

/-- An RW field of `w` bits from bit `lo`: what it holds after the write. -/
def Wr.fld {w : Nat} (x : Wr) (old : BitVec w) (lo : Nat) : BitVec w :=
  ((((old.setWidth 64 <<< lo) &&& ~~~x.m) ||| (x.v &&& x.m)) >>> lo).setWidth w
/-- An RW bit. -/
def Wr.bit (x : Wr) (old : Bool) (lo : Nat) : Bool := if x.m.getLsbD lo then x.v.getLsbD lo else old
/-- A W1C bit: a 1 clears it. -/
def Wr.clr (x : Wr) (old : Bool) (lo : Nat) : Bool := old && !(x.m.getLsbD lo && x.v.getLsbD lo)
/-- A field whose value 0 is replaced by 1. -/
def atLeast1 {w : Nat} (v : BitVec w) : BitVec w := if v = 0 then 1 else v
/-- A value outside a range is replaced by the nearer end. -/
def nearest {w : Nat} (lo hi : Nat) (v : BitVec w) : BitVec w := BitVec.ofNat w (max lo (min hi v.toNat))

/-- What the command that a field's write stands for leaves; a write stops nothing. -/
def resState : Res → State → State
  | .next t, _ => t
  | _, s => s

/-- The write brings a 1 to a bit. -/
def Wr.sets (x : Wr) (lo : Nat) : Bool := x.m.getLsbD lo && x.v.getLsbD lo
/-- The write covers a bit, whatever it brings. -/
def Wr.covers (x : Wr) (lo : Nat) : Bool := x.m.getLsbD lo

/-! ### GATE -/

/-- An update of the GATE registers. -/
def State.updGate (s : State) (f : Gate → Gate) : State := { s with gate := f s.gate }

/-- Operations of Table 15-9. -/
def mboxKnown (op : Byte) : Bool := decide (op = 1 ∨ op = 2 ∨ op = 3 ∨ op = 4 ∨ op = 0x10 ∨ op = 0x11 ∨ op = 0x12)

/-- The operation that go starts (Table 15-9); RECOVERY_CHECK, whose signature check needs an answer, is left to its own
command. -/
def State.runMbox (s : State) (op : Byte) : State :=
  match op.toNat with
  | 1 => resState (execGetStatus s) s
  | 2 => resState (execMboxGetMeasurements s) s
  | 3 => resState (execGetLog s) s
  | 4 => resState (execGetCert s) s
  | 0x10 => resState (execRecoveryWrite s) s
  | 0x12 => resState (execMboxOwnerEnroll s) s
  | _ => s

/-- GATE.MBOX_CTL: op and length; go starts the operation, and with an unknown op answers status 1. A write of go
while busy is discarded and counted. -/
def State.writeMbox (s : State) (x : Wr) : State :=
  let go := x.m.getLsbD 31 && x.v.getLsbD 31
  let b := s.gate.mbox
  let b1 : Mbox := { b with op := x.fld b.op 0, length := x.fld b.length 8 }
  if go && b.busy then s.updGate fun g => { g with badAccess := stickAdd g.badAccess 1 }
  else if go && !mboxKnown b1.op then
    (s.updGate fun g => { g with mbox := { b1 with done := true, status := 1, rlen := 0 } }).misc 0
  else if go then (s.updGate fun g => { g with mbox := b1 }).runMbox b1.op
  else s.updGate fun g => { g with mbox := b1 }

/-- Word `w` of the mailbox data. -/
def mboxData (data : List Byte) (w : Nat) (x : Wr) : List Byte :=
  let l := sliceB data 0 (max data.length (4 * w + 4))
  l.take (4 * w) ++ leBytes 4 (x.fld (BitVec.ofNat 32 (fieldB l (4 * w) 4)) 0).toNat ++ l.drop (4 * w + 4)

/-- A word of the MSI-X table: a vector unmasked while its message is pending sends it (R398). -/
def State.writeMsix (s : State) (i : Nat) (x : Wr) : State :=
  let dflt := fun (k : Nat) => if k % 4 = 3 then (1 : BitVec 32) else 0
  let s1 := s.updGate fun g => { g with msixTable := tabSet dflt g.msixTable i (x.fld (tabGet dflt g.msixTable i) 0) }
  let v := BitVec.ofNat 6 (i / 4)
  if s.gate.msixPending.getLsbD (i / 4) && !s1.msixMasked v then
    (s1.updGate fun g => { g with msixPending := g.msixPending &&& ~~~((1 : BitVec 64) <<< (i / 4)) }).emit (.msix v)
  else s1

/-- A GATE register. -/
def State.writeGate (s : State) (id : RegId) (i : Nat) (x : Wr) : State :=
  match id with
  | .gateTbStatus => s.updGate fun g => { g with refclkFault := x.clr g.refclkFault 1 }
  | .gatePartMem =>
    let v := x.bit (s.part i).protOff 0
    let s1 := s.setPart i { s.part i with protOff := v }
    { s1 with flash := { s1.flash with protOff := tabSet (fun _ => false) s1.flash.protOff i v } }
  | .gateBar2Ctl => s.updGate fun g => { g with bar2Mask := x.fld g.bar2Mask 0, bar2Slices := x.bit g.bar2Slices 8 }
  | .gateBar2Base => s.updGate fun g => { g with bar2Base := x.fld g.bar2Base 0 }
  | .gateFlockCtl =>
    let port := x.fld s.gate.udpPort 0
    let st := s.flash.settings
    { s with flash := { s.flash with settings := { st with udpPort := if port = s.gate.udpPort then st.udpPort else some port } } }.updGate
      fun g => { g with
      udpPort := port, port0En := x.bit g.port0En 16, port1En := x.bit g.port1En 17, fabricEn := x.bit g.fabricEn 18 }
  | .gateEcsCtl =>
    if x.covers 0 && decide (x.v.getLsbD 0 ≠ (s.ecsOf i).ctlSafe) then resState (execEcsSafeWrite i (x.v.getLsbD 0) s) s else s
  | .gateEcsStatus => s.updEcs i fun c => { c with commsFail := x.clr c.commsFail 6 }
  | .gateErrStatus => s.updGate fun g => { g with domainOff := x.clr g.domainOff 24 }
  | .gateIrqCtl => s.updGate fun g => { g with miscVector := x.fld g.miscVector 0, irqEnable := x.fld g.irqEnable 12 }
  | .gateIrqCause => s.updGate fun g => { g with
      irqMailbox := x.clr g.irqMailbox 0, irqRing := x.clr g.irqRing 1, irqHold := x.clr g.irqHold 2, irqFatal := x.clr g.irqFatal 3 }
  | .gateRingCtrlAddr => if (s.ring i).enable then s else s.updRing i fun r => { r with ctrlAddr := x.fld r.ctrlAddr 0 }
  | .gateRingCmdBase => if (s.ring i).enable then s else s.updRing i fun r => { r with cmdBase := x.fld r.cmdBase 0 }
  | .gateRingCplBase => if (s.ring i).enable then s else s.updRing i fun r => { r with cplBase := x.fld r.cplBase 0 }
  | .gateRingCfg => s.updRing i fun r => { r with
      cmdLog2 := nearest 6 16 (x.fld r.cmdLog2 0), cplLog2 := nearest 6 16 (x.fld r.cplLog2 5),
      pollUs := nearest 1 1000 (x.fld r.pollUs 10), vector := x.fld r.vector 20 }
  | .gateRingCtl =>
    let s1 := s.updRing i fun r => { r with coalesceUs := x.fld r.coalesceUs 8 }
    if x.covers 0 && !x.v.getLsbD 0 then resState (execRingDisable i s1) s1 else s1
  | .gateRingStatus => s.updRing i fun r => { r with error := x.clr r.error 1 }
  | .gateMboxCtl => s.writeMbox x
  | .gateMboxStatus => s.updGate fun g => { g with mbox := { g.mbox with done := x.clr g.mbox.done 1 } }
  | .gateMboxData => s.updGate fun g => { g with mbox := { g.mbox with data := mboxData g.mbox.data i x } }
  | .gateSignals => s.updGate fun g => { g with sig := { g.sig with attnReq := x.clr g.sig.attnReq 5 } }
  | .gateFlow => s.updGate fun g => { g with coolingLow := x.clr g.coolingLow 16, thermalTrip := x.clr g.thermalTrip 17 }
  | .msixTable => s.writeMsix i x
  | _ => s

/-! ### Lane tests (R379, R380) -/

/-- TEST_CTL and TEST_PAT of a lane that cannot be tested are left, and refused is set. -/
def State.writeTest (s : State) (fd lane : Nat) (id : RegId) (x : Wr) : State :=
  let t := s.test fd lane
  let set := fun (t1 : LaneTest) => s.setTest fd lane (if s.testable fd lane then t1 else { t with refused := true })
  match id with
  | .testCtl =>
    let s1 := set { t with
      gen := x.fld t.gen 0, chk := x.fld t.chk 4, loop := x.fld t.loop 8, fec := x.bit t.fec 10, invert := x.bit t.invert 11 }
    if x.sets 12 then resState (execTestStart fd lane s1) s1 else s1
  | .testPat => set { t with pat := x.fld t.pat 0 }
  | .testStat => s.setTest fd lane { t with refused := x.clr t.refused 1 }
  | _ => s

/-! ### The other blocks -/

/-- SHEP, TALLY, CAST and SEC; `fw` is a write by Shepherd firmware, which alone writes the fields marked RO. -/
def State.writeAux (s : State) (id : RegId) (i : Nat) (fw : Bool) (x : Wr) : State :=
  match id with
  | .shepVerdictLast => { s with shep := { s.shep with vValid := x.clr s.shep.vValid 63 } }
  | .shepTwin => { s with twin := { s.twin with crossed := x.clr s.twin.crossed 19 } }
  | .shepScore =>
    if fw then { s with shep := { s.shep with watchThr := x.fld s.shep.watchThr 16, expelThr := x.fld s.shep.expelThr 24 } } else s
  | .shepCkptCtl => if fw then { s with twin := { s.twin with timeout := x.fld s.twin.timeout 0 } } else s
  | .tallyStatus => { s with tally := { s.tally with
      freezeTimeout := x.clr s.tally.freezeTimeout 15, freezeBroken := x.clr s.tally.freezeBroken 16 } }
  | .tallyCtl =>
    let s1 := { s with tally := { s.tally with autoInc := x.bit s.tally.autoInc 1, source := x.fld s.tally.source 2 } }
    if !x.covers 0 then s1 else resState (if x.v.getLsbD 0 then execFreeze s1 else execUnfreeze s1) s1
  | .tallyCursor => s.latch (x.fld s.tally.cursor 0)
  | .tallyBbCtl =>
    let s1 := resState (execBbCursorWrite (x.fld s.tally.bbCursor 0) (x.fld s.tally.bbSource 12) s) s
    if x.sets 14 then resState (execBbRelease s1) s1 else s1
  | .tallyRateDef =>
    if fw then { s with tally := { s.tally with
      rateDef := atLeast1 (x.fld s.tally.rateDef 0), burstDef := atLeast1 (x.fld s.tally.burstDef 16) } } else s
  | .tallyRateOvr =>
    if fw then
      let d := fun (_ : Nat) => ((0 : BitVec 16), (0 : Byte), (0 : Byte))
      let o := tabGet d s.tally.overrides i
      { s with tally := { s.tally with overrides := tabSet d s.tally.overrides i (x.fld o.1 0, x.fld o.2.1 16, x.fld o.2.2 24) } }
    else s
  | .castCtl =>
    let s1 := { s with flash := { s.flash with fullNext := x.bit s.flash.fullNext 0 } }
    if x.sets 1 then resState (execCastRetry s1) s1 else s1
  | .secFwConfirm => if fw then resState (execFwConfirm (x.fld 0 0) s) s else s
  | .secMeasCursor => { s with sec := { s.sec with cursor := x.fld s.sec.cursor 0 } }
  | _ => s

/-- OPTn, FABn, MEMn and TILEnn; `n` is the block's number. -/
def State.writeMain (s : State) (n : Nat) (id : RegId) (x : Wr) : State :=
  match id with
  | .optDarkThresh => s.updEngine n fun e => { e with darkThresh := x.fld e.darkThresh 0 }
  | .fabHurTimeout => s.setHurTimeout (x.fld s.hurTimeout 0)
  | .fabStatus => s.updFab n fun f => { f with ovf := x.clr f.ovf 0 }
  | .fabRouteCtl => s.updFab n fun f => { f with hopInit := atLeast1 (x.fld f.hopInit 0), nonminThresh := x.fld f.nonminThresh 8 }
  | .fabVcWeight => s.updFab n fun f => { f with
      wReq := atLeast1 (x.fld f.wReq 0), wRsp := atLeast1 (x.fld f.wRsp 4), wCol := atLeast1 (x.fld f.wCol 8) }
  | .memEraseThresh => s.updMd n fun m => { m with eraseThresh := x.fld m.eraseThresh 0 }
  | .memScrubCtl => s.updMd n fun m => { m with
      passHours := nearest 1 168 (x.fld m.passHours 0), scrubEnable := x.bit m.scrubEnable 8 }
  | .memUeLog => s.updMd n fun m => { m with ueValid := x.clr m.ueValid 63 }
  | .tileBeatCtl =>
    let s1 := if x.covers 0 then
        resState (execBeatWindowWrite n (x.fld (s.die n).window 0) ((Config.freeWord s.free).setWidth 32) { s with free := s.free + 1 }) s
      else s
    if x.sets 31 then resState (execMinRearm n s1) s1 else s1
  | .tileBeatStatus => s.updDie n fun d => { d with deficit := x.clr d.deficit 0, countOvf := x.clr d.countOvf 1 }
  | .tileStoreUeLog => s.updDie n fun d => { d with ueValid := x.clr d.ueValid 63 }
  | _ => s

/-- Limit `w` of a profile set: vel, acc, jerk; 0 is replaced by 1. -/
def profileWrite (p : BitVec 32 × BitVec 32 × BitVec 32) (w : Nat) (x : Wr) : BitVec 32 × BitVec 32 × BitVec 32 :=
  if w = 0 then (atLeast1 (x.fld p.1 0), p.2.1, p.2.2)
  else if w = 1 then (p.1, atLeast1 (x.fld p.2.1 0), p.2.2)
  else (p.1, p.2.1, atLeast1 (x.fld p.2.2 0))

/-- CROOKn, by Shepherd firmware (R258). -/
def State.writeCrook (s : State) (n i j : Nat) (id : RegId) (x : Wr) : State :=
  match id with
  | .crookStatus => s.updEngine n fun e => { e with
      slotMiss := x.clr e.slotMiss 1, railFault := x.clr e.railFault 2, tempWarn := x.clr e.tempWarn 5 }
  | .crookProgBind => s.updEngine n fun e =>
      let d := fun (_ : Nat) => ((0 : BitVec 10), (0 : BitVec 11))
      let b := tabGet d e.bind i
      { e with bind := tabSet d e.bind i (x.fld b.1 0, x.fld b.2 16) }
  | .crookSeekCfg => s.updEngine n fun e => { e with halfWidth := x.fld e.halfWidth 0, detect := x.fld e.detect 16 }
  | .crookNotchCtl => s.updEngine n fun e => { e with recovery := x.fld e.recovery 0 }
  | .crookSlipCfg => s.updEngine n fun e => { e with
      slipLimit := x.fld e.slipLimit 0, slipUpdates := atLeast1 (x.fld e.slipUpdates 16) }
  | .crookHandoverCfg => s.updEngine n fun e => { e with handover := x.fld e.handover 0 }
  | .crookExcite => s.updEngine n fun e => { e with
      exAmp := x.fld e.exAmp 0, exHalf := x.fld e.exHalf 16, exKind := x.bit e.exKind 24 }
  | .crookProfile => s.updEngine n fun e =>
      { e with profiles := tabSet profileDef e.profiles i (profileWrite (tabGet profileDef e.profiles i) j x) }
  | .crookProgCtl =>
    if !x.covers 0 then s
    else resState (if x.v.getLsbD 0 then execProgRun n s else if (s.engine n).run then execProgStop n s else .next s) s
  | .crookElemCmd => s.elemCmd n i (x.fld 0 0) (x.fld 0 4) (x.fld 0 8)
  | .crookElemCoef => resState (execCoefficientWrite n false i j (x.fld 0 0) s) s
  | .crookBankCoef => resState (execCoefficientWrite n true i j (x.fld 0 0) s) s
  | .crookProgMem => resState (execProgMemWrite n (BitVec.ofNat 10 i) (x.fld 0 0) s) s
  | .crookElemCfg => s.updElem n i fun e => { e with ge := x.fld e.ge 8, pset := x.fld e.pset 11 }
  | .crookElemStat => s.updElem n i fun e => { e with sat := x.clr e.sat 7 }
  | .crookElemSupv => s.updElem n i fun e => { e with
      feLimit := x.fld e.feLimit 0, fePeriods := atLeast1 (x.fld e.fePeriods 16) }
  | _ => s

/-- A word of a register that is listed. -/
def State.writeReg (s : State) (b : Blk) (n : Nat) (d : RegDef) (is : List Nat) (fw : Bool) (x : Wr) : State :=
  let i := nth is 0 0
  match b with
  | .gate => if d.id = .testCtl ∨ d.id = .testStat ∨ d.id = .testPat then s.writeTest 2 i d.id x else s.writeGate d.id i x
  | .fab => if d.id = .testCtl ∨ d.id = .testStat ∨ d.id = .testPat then s.writeTest n i d.id x else s.writeMain n d.id x
  | .crook => if fw then s.writeCrook n i (nth is 1 0) d.id x else s
  | .opt | .mem | .tile => s.writeMain n d.id x
  | .shep | .tally | .cast | .sec => s.writeAux d.id i fw x

/-! ### A write (R8, R386) -/

/-- The power domain of a block is on (Table 15-2). -/
def State.blkOn (s : State) (b : Blk) (n : Nat) : Bool :=
  match b with
  | .crook | .opt | .fab => s.pwr.transit
  | .mem => s.pwr.memory
  | .tile => s.dieOn n
  | _ => true

/-- One 32-bit word of a write: none where no register stands there; else the state after it, and whether a
non-zero value went to an RSV field. -/
def State.writeWord (s : State) (b : Blk) (n off : Nat) (fw : Bool) (v : BitVec 32) : Option (State × Bool) :=
  (regAt b n off).map (fun r =>
    let (d, is, upper) := r
    let sh := if upper then 32 else 0
    let x : Wr := { m := (0xFFFFFFFF : Word) <<< sh, v := v.setWidth 64 <<< sh }
    (s.writeReg b n d is fw x, decide (x.v &&& x.m &&& BitVec.ofNat 64 d.rsv ≠ 0)))

/-- An access that BAR0 does not accept. -/
def State.badAccess (s : State) (fw : Bool) : State :=
  if fw then s else s.updGate fun g => { g with badAccess := stickAdd g.badAccess 1 }

/-- A write of one or two words to a block that is on. -/
def State.writeBlk (s : State) (b : Blk) (n off width : Nat) (fw : Bool) (v : Word) : State :=
  let a := s.writeWord b n off fw (v.setWidth 32)
  let s1 := (a.map (·.1)).getD s
  let c := if width = 8 then s1.writeWord b n (off + 4) fw ((v >>> 32).setWidth 32) else none
  let s2 := (c.map (·.1)).getD s1
  let rsv := (a.map (·.2)).getD false || (c.map (·.2)).getD false
  if a.isNone && c.isNone then s.badAccess fw
  else if rsv && !fw then s2.updGate fun g => { g with rsvWrite := stickAdd g.rsvWrite 1 }
  else s2

/-- A write at an offset of BAR0, or of its image in the control space. -/
def State.writeAt (s : State) (off width : Nat) (fw : Bool) (v : Word) : State :=
  if !decide (width = 4 ∨ width = 8) || decide (off % width ≠ 0) then s.badAccess fw
  else match blkAt off with
    | none => s.badAccess fw
    | some (b, n, o) =>
      if s.blkOn b n then s.writeBlk b n o width fw v
      else if fw then s
      else s.updGate fun g => { g with domainOff := true }

/-- Bytes of BAR0. -/
def bar0Size : Nat := 0x10000000
/-- The image of BAR0 in the module control space (R385). -/
def controlImage : Nat := 0x200000000000

/-- The mailbox answers where IDE is required and not up (R360). -/
def mboxAt (off : Nat) : Bool := decide (off = 0x800 ∨ off = 0x804 ∨ 0x6000 ≤ off ∧ off < 0xA000)

/-- REGISTER_WRITE: `width` in bytes. An offset of BAR0 is a write by the host; one in the control space a write
by Shepherd firmware, which has the access of R258 and R382. -/
def execRegisterWrite (off width : Nat) (value : Word) (s : State) : Res :=
  if controlImage ≤ off ∧ off < controlImage + bar0Size then
    doIf s.shepOn s (s.writeAt (off - controlImage) width true value)
  else
    doIf (s.pwr.aux && s.gate.sig.perstN && decide (off < bar0Size) && (!s.ideBlocked || mboxAt off)) s
      (s.writeAt off width false value)

end Sys2Proof.Machine
end

