-- ==== Sys2Proof/Machine/Sca.lean ====
section
/-! DEFINITION. Scalars, predicates and addresses (04, Table 4-5). Integer operations wrap modulo 2^64 and
touch no flag. -/

namespace Sys2Proof.Machine

/-- The major opcode of a form: the second operand is register b, or the immediate. -/
def scaMajor (f : ScaForm) : Nat := match f with | .reg => 0x08 | .imm => 0x09
/-- The second operand of a form. -/
def scaB (f : ScaForm) (x : Ctx) (b : BitVec 47) : Word :=
  match f with | .reg => x.getS (fB b) | .imm => immS b

/-- `sd ← op sa (sb or imm)`. -/
def sca2 (fn : Nat) (op : Word → Word → Word) (t : Nat) (f : ScaForm) (o : Op) (s : State) : Res :=
  stageReg (scaMajor f) fn t o s fun _ x =>
    x.setS (fD o.body) (op (x.getS (fA o.body)) (scaB f x o.body))

/-- High halves of a product. -/
def mulHigh (a b : Word) : Word := BitVec.ofInt 64 (a.toInt * b.toInt / 2 ^ 64)
def mulHighU (a b : Word) : Word := BitVec.ofNat 64 (a.toNat * b.toNat / 2 ^ 64)
/-- Divisions (R86): by zero a quotient of all ones and the dividend as remainder; −2^63 by −1 wraps. -/
def divS (a b : Word) : Word := if b = 0 then BitVec.allOnes 64 else BitVec.ofInt 64 (Int.tdiv a.toInt b.toInt)
def divU (a b : Word) : Word := if b = 0 then BitVec.allOnes 64 else BitVec.ofNat 64 (a.toNat / b.toNat)
def remS (a b : Word) : Word := if b = 0 then a else BitVec.ofInt 64 (Int.tmod a.toInt b.toInt)
def remU (a b : Word) : Word := if b = 0 then a else BitVec.ofNat 64 (a.toNat % b.toNat)
/-- The shift count is the low six bits of the operand. -/
def shAmt (b : Word) : Nat := b.toNat % 64


/-- SCA_ADD. -/
def execScaAdd (t : Nat) (f : ScaForm) (o : Op) (s : State) : Res :=
  sca2 0x00 (fun a b => a + b) t f o s

/-- SCA_SUB. -/
def execScaSub (t : Nat) (f : ScaForm) (o : Op) (s : State) : Res :=
  sca2 0x01 (fun a b => a - b) t f o s

/-- SCA_MUL: the low 64 bits. -/
def execScaMul (t : Nat) (f : ScaForm) (o : Op) (s : State) : Res :=
  sca2 0x02 (fun a b => a * b) t f o s

/-- SCA_MULH. -/
def execScaMulh (t : Nat) (f : ScaForm) (o : Op) (s : State) : Res :=
  sca2 0x03 mulHigh t f o s

/-- SCA_MULHU. -/
def execScaMulhu (t : Nat) (f : ScaForm) (o : Op) (s : State) : Res :=
  sca2 0x04 mulHighU t f o s

/-- SCA_DIV (R86). -/
def execScaDiv (t : Nat) (f : ScaForm) (o : Op) (s : State) : Res :=
  sca2 0x05 divS t f o s

/-- SCA_DIVU (R86). -/
def execScaDivu (t : Nat) (f : ScaForm) (o : Op) (s : State) : Res :=
  sca2 0x06 divU t f o s

/-- SCA_REM (R86): the dividend's sign. -/
def execScaRem (t : Nat) (f : ScaForm) (o : Op) (s : State) : Res :=
  sca2 0x07 remS t f o s

/-- SCA_REMU (R86). -/
def execScaRemu (t : Nat) (f : ScaForm) (o : Op) (s : State) : Res :=
  sca2 0x08 remU t f o s

/-- SCA_AND. -/
def execScaAnd (t : Nat) (f : ScaForm) (o : Op) (s : State) : Res :=
  sca2 0x09 (fun a b => a &&& b) t f o s

/-- SCA_OR. -/
def execScaOr (t : Nat) (f : ScaForm) (o : Op) (s : State) : Res :=
  sca2 0x0A (fun a b => a ||| b) t f o s

/-- SCA_XOR. -/
def execScaXor (t : Nat) (f : ScaForm) (o : Op) (s : State) : Res :=
  sca2 0x0B (fun a b => a ^^^ b) t f o s

/-- SCA_SHL. -/
def execScaShl (t : Nat) (f : ScaForm) (o : Op) (s : State) : Res :=
  sca2 0x0C (fun a b => a <<< shAmt b) t f o s

/-- SCA_SHR. -/
def execScaShr (t : Nat) (f : ScaForm) (o : Op) (s : State) : Res :=
  sca2 0x0D (fun a b => a >>> shAmt b) t f o s

/-- SCA_SRA. -/
def execScaSra (t : Nat) (f : ScaForm) (o : Op) (s : State) : Res :=
  sca2 0x0E (fun a b => a.sshiftRight (shAmt b)) t f o s

/-- SCA_MIN. -/
def execScaMin (t : Nat) (f : ScaForm) (o : Op) (s : State) : Res :=
  sca2 0x0F (fun a b => if a.slt b then a else b) t f o s

/-- SCA_MAX. -/
def execScaMax (t : Nat) (f : ScaForm) (o : Op) (s : State) : Res :=
  sca2 0x10 (fun a b => if a.slt b then b else a) t f o s

/-- SCA_MINU. -/
def execScaMinu (t : Nat) (f : ScaForm) (o : Op) (s : State) : Res :=
  sca2 0x11 (fun a b => if a.ult b then a else b) t f o s

/-- SCA_MAXU. -/
def execScaMaxu (t : Nat) (f : ScaForm) (o : Op) (s : State) : Res :=
  sca2 0x12 (fun a b => if a.ult b then b else a) t f o s


/-- SCA_LI: the immediate, sign-extended. -/
def execScaLi (t : Nat) (f : ScaForm) (o : Op) (s : State) : Res :=
  stageReg (scaMajor f) 0x13 t o s fun _ x => x.setS (fD o.body) (immS o.body)

/-- SCA_LIH: sd[63:32] ← imm[31:0]. -/
def execScaLih (t : Nat) (f : ScaForm) (o : Op) (s : State) : Res :=
  stageReg (scaMajor f) 0x14 t o s fun _ x =>
    x.setS (fD o.body) (BitVec.ofNat 32 (fImm o.body) ++ (x.getS (fD o.body)).extractLsb' 0 32)

/-- The conditions of `cmp` (R86). -/
def scaCond (cc : Nat) (a b : Word) : Bool :=
  match cc with
  | 0 => decide (a = b)
  | 1 => decide (a ≠ b)
  | 2 => a.slt b
  | 3 => !a.slt b
  | 4 => a.ult b
  | _ => !a.ult b

/-- SCA_CMP (R86): pd in bits [43:41], cc in bits [46:44]. -/
def execScaCmp (t : Nat) (f : ScaForm) (o : Op) (s : State) : Res :=
  stageReg (scaMajor f) 0x15 t o s fun _ x =>
    x.setP (fD o.body % 8) (scaCond (fD o.body / 8) (x.getS (fA o.body)) (scaB f x o.body))

/-- SCA_PLOG: and, or, xor, andnot. -/
def execScaPlog (t : Nat) (f : ScaForm) (o : Op) (s : State) : Res :=
  stageReg (scaMajor f) 0x16 t o s fun _ x =>
    let a := x.getP (fA o.body)
    let b := x.getP (fB o.body)
    x.setP (fD o.body) (match fX o.body % 4 with
      | 0 => a && b
      | 1 => a || b
      | 2 => a != b
      | _ => a && !b)

/-- SCA_PGET. -/
def execScaPget (t : Nat) (f : ScaForm) (o : Op) (s : State) : Res :=
  stageReg (scaMajor f) 0x17 t o s fun _ x => x.setS (fD o.body) (x.p.setWidth 64)

/-- SCA_PSET. -/
def execScaPset (t : Nat) (f : ScaForm) (o : Op) (s : State) : Res :=
  stageReg (scaMajor f) 0x18 t o s fun _ x => { x with p := (x.getS (fA o.body)).setWidth 8 }

/-- SCA_AMOV: ad ← sa[47:0]. -/
def execScaAmov (t : Nat) (f : ScaForm) (o : Op) (s : State) : Res :=
  stageReg (scaMajor f) 0x19 t o s fun _ x => x.setA (fD o.body) ((x.getS (fA o.body)).setWidth 48)

/-- SCA_AGET. -/
def execScaAget (t : Nat) (f : ScaForm) (o : Op) (s : State) : Res :=
  stageReg (scaMajor f) 0x1A t o s fun _ x => x.setS (fD o.body) ((x.getA (fA o.body)).setWidth 64)

/-- SCA_AADD: modulo 2^48. -/
def execScaAadd (t : Nat) (f : ScaForm) (o : Op) (s : State) : Res :=
  stageReg (scaMajor f) 0x1B t o s fun _ x =>
    x.setA (fD o.body) (x.getA (fA o.body) + (scaB f x o.body).setWidth 48)

end Sys2Proof.Machine
end

