-- ==== Sys2Proof/Machine/Dispatch.lean ====
section
/-! DEFINITION. The meaning of each command, one arm for each row of spec/opcode_table.json. -/

namespace Sys2Proof.Machine

def exec (i : Instr) (s : State) : Host.Outcome State Fault Refusal :=
  match i with
  | .auxPowerUp => Sys2Proof.Machine.execAuxPowerUp s
  | .auxPgFall => Sys2Proof.Machine.execAuxPgFall s
  | .mainPowerLoss => Sys2Proof.Machine.execMainPowerLoss s
  | .mainPowerRemove => Sys2Proof.Machine.execMainPowerRemove s
  | .envelopeStep watts hotQuarterC => Sys2Proof.Machine.execEnvelopeStep watts hotQuarterC s
  | .admissionPause watts ticks => Sys2Proof.Machine.execAdmissionPause watts ticks s
  | .envelopeSet r => Sys2Proof.Machine.execEnvelopeSet r s
  | .beatWindowEnd die beats vcoreMv tj => Sys2Proof.Machine.execBeatWindowEnd die beats vcoreMv tj s
  | .beatWindowWrite die window beats => Sys2Proof.Machine.execBeatWindowWrite die window beats s
  | .minRearm die => Sys2Proof.Machine.execMinRearm die s
  | .tbTick upsets => Sys2Proof.Machine.execTbTick upsets s
  | .holdoverEntry ppm => Sys2Proof.Machine.execHoldoverEntry ppm s
  | .holdoverExit ppm => Sys2Proof.Machine.execHoldoverExit ppm s
  | .ctlNop t o => Sys2Proof.Machine.execCtlNop t o s
  | .ctlBr t o => Sys2Proof.Machine.execCtlBr t o s
  | .ctlBl t o => Sys2Proof.Machine.execCtlBl t o s
  | .ctlJr t o => Sys2Proof.Machine.execCtlJr t o s
  | .ctlLoop t o => Sys2Proof.Machine.execCtlLoop t o s
  | .ctlLoopi t o => Sys2Proof.Machine.execCtlLoopi t o s
  | .ctlBreak t o => Sys2Proof.Machine.execCtlBreak t o s
  | .ctlLidx t o => Sys2Proof.Machine.execCtlLidx t o s
  | .ctlYield t o => Sys2Proof.Machine.execCtlYield t o s
  | .ctlHalt t o => Sys2Proof.Machine.execCtlHalt t o s
  | .scaAdd t f o => Sys2Proof.Machine.execScaAdd t f o s
  | .scaSub t f o => Sys2Proof.Machine.execScaSub t f o s
  | .scaMul t f o => Sys2Proof.Machine.execScaMul t f o s
  | .scaMulh t f o => Sys2Proof.Machine.execScaMulh t f o s
  | .scaMulhu t f o => Sys2Proof.Machine.execScaMulhu t f o s
  | .scaDiv t f o => Sys2Proof.Machine.execScaDiv t f o s
  | .scaDivu t f o => Sys2Proof.Machine.execScaDivu t f o s
  | .scaRem t f o => Sys2Proof.Machine.execScaRem t f o s
  | .scaRemu t f o => Sys2Proof.Machine.execScaRemu t f o s
  | .scaAnd t f o => Sys2Proof.Machine.execScaAnd t f o s
  | .scaOr t f o => Sys2Proof.Machine.execScaOr t f o s
  | .scaXor t f o => Sys2Proof.Machine.execScaXor t f o s
  | .scaShl t f o => Sys2Proof.Machine.execScaShl t f o s
  | .scaShr t f o => Sys2Proof.Machine.execScaShr t f o s
  | .scaSra t f o => Sys2Proof.Machine.execScaSra t f o s
  | .scaMin t f o => Sys2Proof.Machine.execScaMin t f o s
  | .scaMax t f o => Sys2Proof.Machine.execScaMax t f o s
  | .scaMinu t f o => Sys2Proof.Machine.execScaMinu t f o s
  | .scaMaxu t f o => Sys2Proof.Machine.execScaMaxu t f o s
  | .scaLi t f o => Sys2Proof.Machine.execScaLi t f o s
  | .scaLih t f o => Sys2Proof.Machine.execScaLih t f o s
  | .scaCmp t f o => Sys2Proof.Machine.execScaCmp t f o s
  | .scaPlog t f o => Sys2Proof.Machine.execScaPlog t f o s
  | .scaPget t f o => Sys2Proof.Machine.execScaPget t f o s
  | .scaPset t f o => Sys2Proof.Machine.execScaPset t f o s
  | .scaAmov t f o => Sys2Proof.Machine.execScaAmov t f o s
  | .scaAget t f o => Sys2Proof.Machine.execScaAget t f o s
  | .scaAadd t f o => Sys2Proof.Machine.execScaAadd t f o s
  | .vecVadd t o => Sys2Proof.Machine.execVecVadd t o s
  | .vecVsub t o => Sys2Proof.Machine.execVecVsub t o s
  | .vecVmul t o => Sys2Proof.Machine.execVecVmul t o s
  | .vecVfma t o => Sys2Proof.Machine.execVecVfma t o s
  | .vecVmin t o => Sys2Proof.Machine.execVecVmin t o s
  | .vecVmax t o => Sys2Proof.Machine.execVecVmax t o s
  | .vecVand t o => Sys2Proof.Machine.execVecVand t o s
  | .vecVor t o => Sys2Proof.Machine.execVecVor t o s
  | .vecVxor t o => Sys2Proof.Machine.execVecVxor t o s
  | .vecVshl t o => Sys2Proof.Machine.execVecVshl t o s
  | .vecVshr t o => Sys2Proof.Machine.execVecVshr t o s
  | .vecVcmp t o => Sys2Proof.Machine.execVecVcmp t o s
  | .vecVsel t o => Sys2Proof.Machine.execVecVsel t o s
  | .vecVcvt t o => Sys2Proof.Machine.execVecVcvt t o s
  | .vecVfn t o => Sys2Proof.Machine.execVecVfn t o s
  | .vecVred t o => Sys2Proof.Machine.execVecVred t o s
  | .vecVbcast t o => Sys2Proof.Machine.execVecVbcast t o s
  | .vecVext t o => Sys2Proof.Machine.execVecVext t o s
  | .vecVins t o => Sys2Proof.Machine.execVecVins t o s
  | .vecVperm t o => Sys2Proof.Machine.execVecVperm t o s
  | .vecVmxq t o => Sys2Proof.Machine.execVecVmxq t o s
  | .vecVmxd t o => Sys2Proof.Machine.execVecVmxd t o s
  | .vecVmov t o => Sys2Proof.Machine.execVecVmov t o s
  | .vecVzero t o => Sys2Proof.Machine.execVecVzero t o s
  | .vecVneg t o => Sys2Proof.Machine.execVecVneg t o s
  | .vecVabs t o => Sys2Proof.Machine.execVecVabs t o s
  | .matLdw t o => Sys2Proof.Machine.execMatLdw t o s
  | .matZacc t o => Sys2Proof.Machine.execMatZacc t o s
  | .matAccw t o => Sys2Proof.Machine.execMatAccw t o s
  | .matAccr t o => Sys2Proof.Machine.execMatAccr t o s
  | .matMma t o => Sys2Proof.Machine.execMatMma t o s
  | .matAccst t o => Sys2Proof.Machine.execMatAccst t o s
  | .stoLdv t o => Sys2Proof.Machine.execStoLdv t o s
  | .stoStv t o => Sys2Proof.Machine.execStoStv t o s
  | .stoLdvi t o => Sys2Proof.Machine.execStoLdvi t o s
  | .stoStvi t o => Sys2Proof.Machine.execStoStvi t o s
  | .stoStvm t o => Sys2Proof.Machine.execStoStvm t o s
  | .stoGath t o => Sys2Proof.Machine.execStoGath t o s
  | .stoScat t o => Sys2Proof.Machine.execStoScat t o s
  | .stoLd8 t o => Sys2Proof.Machine.execStoLd8 t o s
  | .stoLd8u t o => Sys2Proof.Machine.execStoLd8u t o s
  | .stoLd16 t o => Sys2Proof.Machine.execStoLd16 t o s
  | .stoLd16u t o => Sys2Proof.Machine.execStoLd16u t o s
  | .stoLd32 t o => Sys2Proof.Machine.execStoLd32 t o s
  | .stoLd32u t o => Sys2Proof.Machine.execStoLd32u t o s
  | .stoLd64 t o => Sys2Proof.Machine.execStoLd64 t o s
  | .stoSt8 t o => Sys2Proof.Machine.execStoSt8 t o s
  | .stoSt16 t o => Sys2Proof.Machine.execStoSt16 t o s
  | .stoSt32 t o => Sys2Proof.Machine.execStoSt32 t o s
  | .stoSt64 t o => Sys2Proof.Machine.execStoSt64 t o s
  | .memGet t o => Sys2Proof.Machine.execMemGet t o s
  | .memPut t o => Sys2Proof.Machine.execMemPut t o s
  | .memGets t o => Sys2Proof.Machine.execMemGets t o s
  | .memPuts t o => Sys2Proof.Machine.execMemPuts t o s
  | .memWait t o => Sys2Proof.Machine.execMemWait t o s
  | .memTest t o => Sys2Proof.Machine.execMemTest t o s
  | .memStat t o => Sys2Proof.Machine.execMemStat t o s
  | .memTransferComplete t c tag => Sys2Proof.Machine.execMemTransferComplete t c tag s
  | .strSend t o => Sys2Proof.Machine.execStrSend t o s
  | .strRecv t o => Sys2Proof.Machine.execStrRecv t o s
  | .strFwd t o => Sys2Proof.Machine.execStrFwd t o s
  | .strEos t o => Sys2Proof.Machine.execStrEos t o s
  | .strAvail t o => Sys2Proof.Machine.execStrAvail t o s
  | .strCred t o => Sys2Proof.Machine.execStrCred t o s
  | .fabPut t o => Sys2Proof.Machine.execFabPut t o s
  | .fabGet t o => Sys2Proof.Machine.execFabGet t o s
  | .fabRed t o => Sys2Proof.Machine.execFabRed t o s
  | .fabWait t o => Sys2Proof.Machine.execFabWait t o s
  | .fabTest t o => Sys2Proof.Machine.execFabTest t o s
  | .fabStat t o => Sys2Proof.Machine.execFabStat t o s
  | .fabTransferComplete t c tag => Sys2Proof.Machine.execFabTransferComplete t c tag s
  | .hurArrive t o => Sys2Proof.Machine.execHurArrive t o s
  | .hurWait t o => Sys2Proof.Machine.execHurWait t o s
  | .hurSync t o => Sys2Proof.Machine.execHurSync t o s
  | .hurGen t o => Sys2Proof.Machine.execHurGen t o s
  | .arrivalWritesComplete t c h => Sys2Proof.Machine.execArrivalWritesComplete t c h s
  | .sysRow t o => Sys2Proof.Machine.execSysRow t o s
  | .sysGetflags t o => Sys2Proof.Machine.execSysGetflags t o s
  | .sysClrflags t o => Sys2Proof.Machine.execSysClrflags t o s
  | .sysSetrm t o => Sys2Proof.Machine.execSysSetrm t o s
  | .sysSetftz t o => Sys2Proof.Machine.execSysSetftz t o s
  | .sysSeed t o => Sys2Proof.Machine.execSysSeed t o s
  | .sysGetseed t o => Sys2Proof.Machine.execSysGetseed t o s
  | .sysEvent t o => Sys2Proof.Machine.execSysEvent t o s
  | .sysTile t o => Sys2Proof.Machine.execSysTile t o s
  | .sysJob t o => Sys2Proof.Machine.execSysJob t o s
  | .sysTime t o => Sys2Proof.Machine.execSysTime t o s
  | .sysBeats t o => Sys2Proof.Machine.execSysBeats t o s
  | .sysGetrm t o => Sys2Proof.Machine.execSysGetrm t o s
  | .waitCauseClear t c => Sys2Proof.Machine.execWaitCauseClear t c s
  | .tileFailure t => Sys2Proof.Machine.execTileFailure t s
  | .tileFaultRecord => Sys2Proof.Machine.execTileFaultRecord s
  | .chCreditSend t c ep => Sys2Proof.Machine.execChCreditSend t c ep s
  | .rowMapWrite die row col healthy absent => Sys2Proof.Machine.execRowMapWrite die row col healthy absent s
  | .pendingMapApply die row => Sys2Proof.Machine.execPendingMapApply die row s
  | .loadChain r dmaOk image peers => Sys2Proof.Machine.execLoadChain r dmaOk image peers s
  | .startChain r => Sys2Proof.Machine.execStartChain r s
  | .stopChain r => Sys2Proof.Machine.execStopChain r s
  | .unloadChain r => Sys2Proof.Machine.execUnloadChain r s
  | .hurdleArrival die => Sys2Proof.Machine.execHurdleArrival die s
  | .hurdleTimeout j h => Sys2Proof.Machine.execHurdleTimeout j h s
  | .hurTimeoutWrite ticks => Sys2Proof.Machine.execHurTimeoutWrite ticks s
  | .releaseHoldEnd j h => Sys2Proof.Machine.execReleaseHoldEnd j h s
  | .storeScrub t word => Sys2Proof.Machine.execStoreScrub t word s
  | .scrubRowReport die trow tcol sub row => Sys2Proof.Machine.execScrubRowReport die trow tcol sub row s
  | .lineAccess addr data link => Sys2Proof.Machine.execLineAccess addr data link s
  | .memoryScrub md link => Sys2Proof.Machine.execMemoryScrub md link s
  | .selfRefreshReturn md => Sys2Proof.Machine.execSelfRefreshReturn md s
  | .bandOwnerWrite firmware band owner => Sys2Proof.Machine.execBandOwnerWrite firmware band owner s
  | .bar2Read off len => Sys2Proof.Machine.execBar2Read off len s
  | .bar2Write off bytes => Sys2Proof.Machine.execBar2Write off bytes s
  | .bar2MergeTimeout => Sys2Proof.Machine.execBar2MergeTimeout s
  | .ueReport => Sys2Proof.Machine.execUeReport s
  | .laneRemove fd lane lost uncorr => Sys2Proof.Machine.execLaneRemove fd lane lost uncorr s
  | .dataFlit fd k h d => Sys2Proof.Machine.execDataFlit fd k h d s
  | .ackFlit fd k h => Sys2Proof.Machine.execAckFlit fd k h s
  | .nakFlit fd k h => Sys2Proof.Machine.execNakFlit fd k h s
  | .idleFlit fd k h => Sys2Proof.Machine.execIdleFlit fd k h s
  | .trainFlit fd k h info => Sys2Proof.Machine.execTrainFlit fd k h info s
  | .identityReportTimeout fd k => Sys2Proof.Machine.execIdentityReportTimeout fd k s
  | .ackTimer fd k => Sys2Proof.Machine.execAckTimer fd k s
  | .linkFail fd k => Sys2Proof.Machine.execLinkFail fd k s
  | .commandedRetrain fd k => Sys2Proof.Machine.execCommandedRetrain fd k s
  | .transitPacket fd k p residence => Sys2Proof.Machine.execTransitPacket fd k p residence s
  | .chEntry fd p => Sys2Proof.Machine.execChEntry fd p s
  | .chCredit fd p => Sys2Proof.Machine.execChCredit fd p s
  | .put fd p => Sys2Proof.Machine.execPut fd p s
  | .putAck fd p => Sys2Proof.Machine.execPutAck fd p s
  | .getReq fd p => Sys2Proof.Machine.execGetReq fd p s
  | .getData fd p => Sys2Proof.Machine.execGetData fd p s
  | .redUp fd p => Sys2Proof.Machine.execRedUp fd p s
  | .redDown fd p => Sys2Proof.Machine.execRedDown fd p s
  | .reductionChunkCombine j h chunk => Sys2Proof.Machine.execReductionChunkCombine j h chunk s
  | .hurArrivePacket p => Sys2Proof.Machine.execHurArrivePacket p s
  | .hurReleasePacket p => Sys2Proof.Machine.execHurReleasePacket p s
  | .keepaliveSend fd k => Sys2Proof.Machine.execKeepaliveSend fd k s
  | .keepalive fd k sender alive penned draining retrain digest => Sys2Proof.Machine.execKeepalive fd k sender alive penned draining retrain digest s
  | .partnerSilent fd k => Sys2Proof.Machine.execPartnerSilent fd k s
  | .drain fd k src reason => Sys2Proof.Machine.execDrain fd k src reason s
  | .ready fd k src => Sys2Proof.Machine.execReady fd k src s
  | .drop fd p => Sys2Proof.Machine.execDrop fd p s
  | .probe fd p => Sys2Proof.Machine.execProbe fd p s
  | .probeReply fd p => Sys2Proof.Machine.execProbeReply fd p s
  | .ckpt fd p uncorrectable => Sys2Proof.Machine.execCkpt fd p uncorrectable s
  | .ckptAck fd p => Sys2Proof.Machine.execCkptAck fd p s
  | .fenceWrite coord link set => Sys2Proof.Machine.execFenceWrite coord link set s
  | .coordinateHoldEnd c => Sys2Proof.Machine.execCoordinateHoldEnd c s
  | .tagHoldEnd t c tag => Sys2Proof.Machine.execTagHoldEnd t c tag s
  | .routeEntryWrite fd overlay coord e => Sys2Proof.Machine.execRouteEntryWrite fd overlay coord e s
  | .moveSet n ms => Sys2Proof.Machine.execMoveSet n ms s
  | .ecsPoll x rep => Sys2Proof.Machine.execEcsPoll x rep s
  | .feedLoss x f => Sys2Proof.Machine.execFeedLoss x f s
  | .reachWrite e => Sys2Proof.Machine.execReachWrite e s
  | .quiesce q => Sys2Proof.Machine.execQuiesce q s
  | .quiesceRelease q => Sys2Proof.Machine.execQuiesceRelease q s
  | .darkSlotEvent q => Sys2Proof.Machine.execDarkSlotEvent q s
  | .fadeEvaluation q ber5 => Sys2Proof.Machine.execFadeEvaluation q ber5 s
  | .scheduledSwitch q => Sys2Proof.Machine.execScheduledSwitch q s
  | .scheduledSwitchTimeout q => Sys2Proof.Machine.execScheduledSwitchTimeout q s
  | .immediateSwitch q => Sys2Proof.Machine.execImmediateSwitch q s
  | .primaryReturn q => Sys2Proof.Machine.execPrimaryReturn q s
  | .ecsSafeWrite x v => Sys2Proof.Machine.execEcsSafeWrite x v s
  | .blank => Sys2Proof.Machine.execBlank s
  | .blankLift => Sys2Proof.Machine.execBlankLift s
  | .crookPeriod n smp => Sys2Proof.Machine.execCrookPeriod n smp s
  | .slotMiss n => Sys2Proof.Machine.execSlotMiss n s
  | .liveValuesUpdate n => Sys2Proof.Machine.execLiveValuesUpdate n s
  | .railFault n => Sys2Proof.Machine.execRailFault n s
  | .elemMove n e slot lane => Sys2Proof.Machine.execElemMove n e slot lane s
  | .elemSeek n e slot lane => Sys2Proof.Machine.execElemSeek n e slot lane s
  | .elemPark n e => Sys2Proof.Machine.execElemPark n e s
  | .elemHold n e => Sys2Proof.Machine.execElemHold n e s
  | .elemRelease n e => Sys2Proof.Machine.execElemRelease n e s
  | .elemTest n e => Sys2Proof.Machine.execElemTest n e s
  | .elemSel n e slot => Sys2Proof.Machine.execElemSel n e slot s
  | .elemClear n e => Sys2Proof.Machine.execElemClear n e s
  | .queuedMoveStart n e => Sys2Proof.Machine.execQueuedMoveStart n e s
  | .handoverEvaluation n e => Sys2Proof.Machine.execHandoverEvaluation n e s
  | .slip n e => Sys2Proof.Machine.execSlip n e s
  | .followingErrorExpiry n e => Sys2Proof.Machine.execFollowingErrorExpiry n e s
  | .notchRecoveryEnd n e => Sys2Proof.Machine.execNotchRecoveryEnd n e s
  | .coefficientWrite n bank idx w word => Sys2Proof.Machine.execCoefficientWrite n bank idx w word s
  | .progMemWrite n w word => Sys2Proof.Machine.execProgMemWrite n w word s
  | .progRun n => Sys2Proof.Machine.execProgRun n s
  | .progStop n => Sys2Proof.Machine.execProgStop n s
  | .indicatorCollect => Sys2Proof.Machine.execIndicatorCollect s
  | .scoreWrite score => Sys2Proof.Machine.execScoreWrite score s
  | .gossipSend => Sys2Proof.Machine.execGossipSend s
  | .gossip h twin es => Sys2Proof.Machine.execGossip h twin es s
  | .selfReport h kind code group detail => Sys2Proof.Machine.execSelfReport h kind code group detail s
  | .verdict h subject classes => Sys2Proof.Machine.execVerdict h subject classes s
  | .pen h subject cause => Sys2Proof.Machine.execPen h subject cause s
  | .unpen h subject digest => Sys2Proof.Machine.execUnpen h subject digest s
  | .claim h members => Sys2Proof.Machine.execClaim h members s
  | .accuse h subject job gen tile row => Sys2Proof.Machine.execAccuse h subject job gen tile row s
  | .probeOrder h subject prober tile => Sys2Proof.Machine.execProbeOrder h subject prober tile s
  | .probeResult h subject result dies => Sys2Proof.Machine.execProbeResult h subject result dies s
  | .probeDeadline => Sys2Proof.Machine.execProbeDeadline s
  | .expelReq h score cause ind => Sys2Proof.Machine.execExpelReq h score cause ind s
  | .expelOrder h subject slot left => Sys2Proof.Machine.execExpelOrder h subject slot left s
  | .expelRefused h subject reasons => Sys2Proof.Machine.execExpelRefused h subject reasons s
  | .admitMsg h coord prev digest => Sys2Proof.Machine.execAdmitMsg h coord prev digest s
  | .reportLapse m => Sys2Proof.Machine.execReportLapse m s
  | .gossipLost m => Sys2Proof.Machine.execGossipLost m s
  | .bellwetherLost => Sys2Proof.Machine.execBellwetherLost s
  | .hardFault code => Sys2Proof.Machine.execHardFault code s
  | .suspensionExpiry m => Sys2Proof.Machine.execSuspensionExpiry m s
  | .budgetSlotExpiry idx => Sys2Proof.Machine.execBudgetSlotExpiry idx s
  | .counterTrusted => Sys2Proof.Machine.execCounterTrusted s
  | .expelReevaluation => Sys2Proof.Machine.execExpelReevaluation s
  | .reserveReport h reserve => Sys2Proof.Machine.execReserveReport h reserve s
  | .bindOffDeadline => Sys2Proof.Machine.execBindOffDeadline s
  | .paddockMainRamp => Sys2Proof.Machine.execPaddockMainRamp s
  | .paddockPass => Sys2Proof.Machine.execPaddockPass s
  | .paddockPassEnd clean code => Sys2Proof.Machine.execPaddockPassEnd clean code s
  | .paddockProgress => Sys2Proof.Machine.execPaddockProgress s
  | .paddockReportRepeat => Sys2Proof.Machine.execPaddockReportRepeat s
  | .heartbeatSend => Sys2Proof.Machine.execHeartbeatSend s
  | .heartbeat f => Sys2Proof.Machine.execHeartbeat f s
  | .handshake f => Sys2Proof.Machine.execHandshake f s
  | .sidebandSelfReport f => Sys2Proof.Machine.execSidebandSelfReport f s
  | .heartbeatSilence => Sys2Proof.Machine.execHeartbeatSilence s
  | .checkpointConfig r dmaOk map => Sys2Proof.Machine.execCheckpointConfig r dmaOk map s
  | .checkpointImport r manifest grans => Sys2Proof.Machine.execCheckpointImport r manifest grans s
  | .tink r => Sys2Proof.Machine.execTink r s
  | .restoreComplete j => Sys2Proof.Machine.execRestoreComplete j s
  | .commit j => Sys2Proof.Machine.execCommit j s
  | .commitNotice p row => Sys2Proof.Machine.execCommitNotice p row s
  | .commitTimeout j => Sys2Proof.Machine.execCommitTimeout j s
  | .exportComplete h => Sys2Proof.Machine.execExportComplete h s
  | .bindOff r => Sys2Proof.Machine.execBindOff r s
  | .bindOffCommit => Sys2Proof.Machine.execBindOffCommit s
  | .castOnCo0 status corrections seed romVersion romDigest gateDigest shepDigest => Sys2Proof.Machine.execCastOnCo0 status corrections seed romVersion romDigest gateDigest shepDigest s
  | .castOnCo1 a b => Sys2Proof.Machine.execCastOnCo1 a b s
  | .castOnCo2 missing linksChecked linksFailed pgFail vinMv ramp => Sys2Proof.Machine.execCastOnCo2 missing linksChecked linksFailed pgFail vinMv ramp s
  | .castOnCo3 record sigOk => Sys2Proof.Machine.execCastOnCo3 record sigOk s
  | .castOnCo4 quals temps => Sys2Proof.Machine.execCastOnCo4 quals temps s
  | .castOnCo5 failed noAck => Sys2Proof.Machine.execCastOnCo5 failed noAck s
  | .castOnCo6 lanes => Sys2Proof.Machine.execCastOnCo6 lanes s
  | .castOnCo7 sources gauges temps lanes => Sys2Proof.Machine.execCastOnCo7 sources gauges temps lanes s
  | .castOnCo8 lanes => Sys2Proof.Machine.execCastOnCo8 lanes s
  | .castOnCo9 => Sys2Proof.Machine.execCastOnCo9 s
  | .stageTimeout => Sys2Proof.Machine.execStageTimeout s
  | .castRetry => Sys2Proof.Machine.execCastRetry s
  | .planWaitRetry => Sys2Proof.Machine.execPlanWaitRetry s
  | .holdReport => Sys2Proof.Machine.execHoldReport s
  | .planLoad r dmaOk sigOk plan digest => Sys2Proof.Machine.execPlanLoad r dmaOk sigOk plan digest s
  | .planMessage h sigOk plan digest => Sys2Proof.Machine.execPlanMessage h sigOk plan digest s
  | .partitionReset r => Sys2Proof.Machine.execPartitionReset r s
  | .allPartitionReset r => Sys2Proof.Machine.execAllPartitionReset r s
  | .mainReset r => Sys2Proof.Machine.execMainReset r s
  | .islandAssign r => Sys2Proof.Machine.execIslandAssign r s
  | .nop r => Sys2Proof.Machine.execNop r s
  | .accuseCommand r => Sys2Proof.Machine.execAccuseCommand r s
  | .move r dmaOk bytes => Sys2Proof.Machine.execMove r dmaOk bytes s
  | .moveComplete r tag ok => Sys2Proof.Machine.execMoveComplete r tag ok s
  | .imageStage r dmaOk bytes sigOk => Sys2Proof.Machine.execImageStage r dmaOk bytes sigOk s
  | .activateImage r => Sys2Proof.Machine.execActivateImage r s
  | .controlActivateImage h slot => Sys2Proof.Machine.execControlActivateImage h slot s
  | .maintenancePoint => Sys2Proof.Machine.execMaintenancePoint s
  | .rejectImage r => Sys2Proof.Machine.execRejectImage r s
  | .fwConfirm version => Sys2Proof.Machine.execFwConfirm version s
  | .trialDeadline => Sys2Proof.Machine.execTrialDeadline s
  | .ownerEnroll r dmaOk key root => Sys2Proof.Machine.execOwnerEnroll r dmaOk key root s
  | .ownerRelease r dmaOk sigOk => Sys2Proof.Machine.execOwnerRelease r dmaOk sigOk s
  | .distribute h digest total slot source parent => Sys2Proof.Machine.execDistribute h digest total slot source parent s
  | .chunk sender bytes relay sigOk => Sys2Proof.Machine.execChunk sender bytes relay sigOk s
  | .chunkRepair => Sys2Proof.Machine.execChunkRepair s
  | .repairHolderTimeout => Sys2Proof.Machine.execRepairHolderTimeout s
  | .controlMessage h o => Sys2Proof.Machine.execControlMessage h o s
  | .sequenceRecord => Sys2Proof.Machine.execSequenceRecord s
  | .epochGraceEnd => Sys2Proof.Machine.execEpochGraceEnd s
  | .reservationRetry ok => Sys2Proof.Machine.execReservationRetry ok s
  | .spdmGetVersion via => Sys2Proof.Machine.execSpdmGetVersion via s
  | .getCapabilities via => Sys2Proof.Machine.execGetCapabilities via s
  | .negotiateAlgorithms via => Sys2Proof.Machine.execNegotiateAlgorithms via s
  | .getDigests via => Sys2Proof.Machine.execGetDigests via s
  | .getCertificate via slot off len => Sys2Proof.Machine.execGetCertificate via slot off len s
  | .challenge via nonce => Sys2Proof.Machine.execChallenge via nonce s
  | .getMeasurements via nonce mask => Sys2Proof.Machine.execGetMeasurements via nonce mask s
  | .pskExchange via ok => Sys2Proof.Machine.execPskExchange via ok s
  | .pskFinish via ok => Sys2Proof.Machine.execPskFinish via ok s
  | .spdmHeartbeat via => Sys2Proof.Machine.execSpdmHeartbeat via s
  | .endSession via => Sys2Proof.Machine.execEndSession via s
  | .vendorDefinedRequest via selective keyOk => Sys2Proof.Machine.execVendorDefinedRequest via selective keyOk s
  | .tallyEvent e => Sys2Proof.Machine.execTallyEvent e s
  | .tokenRefill code => Sys2Proof.Machine.execTokenRefill code s
  | .cursorWrite index => Sys2Proof.Machine.execCursorWrite index s
  | .windowAutoAdvance => Sys2Proof.Machine.execWindowAutoAdvance s
  | .freeze => Sys2Proof.Machine.execFreeze s
  | .unfreeze => Sys2Proof.Machine.execUnfreeze s
  | .freezeTimeout => Sys2Proof.Machine.execFreezeTimeout s
  | .mirror => Sys2Proof.Machine.execMirror s
  | .ringWriteEnd => Sys2Proof.Machine.execRingWriteEnd s
  | .bbRelease => Sys2Proof.Machine.execBbRelease s
  | .bbCursorWrite cursor source => Sys2Proof.Machine.execBbCursorWrite cursor source s
  | .testStart fd lane => Sys2Proof.Machine.execTestStart fd lane s
  | .ringPoll r cmdProd cplCons blocks dmaOk => Sys2Proof.Machine.execRingPoll r cmdProd cplCons blocks dmaOk s
  | .ringEnable r dmaOk cmdProd cmdCons cplProd cplCons => Sys2Proof.Machine.execRingEnable r dmaOk cmdProd cmdCons cplProd cplCons s
  | .ringDisable r => Sys2Proof.Machine.execRingDisable r s
  | .completionWrite r cplCons => Sys2Proof.Machine.execCompletionWrite r cplCons s
  | .coalesceTimer r => Sys2Proof.Machine.execCoalesceTimer r s
  | .functionLevelReset => Sys2Proof.Machine.execFunctionLevelReset s
  | .perst low => Sys2Proof.Machine.execPerst low s
  | .doeRequest proto req => Sys2Proof.Machine.execDoeRequest proto req s
  | .doeAbort => Sys2Proof.Machine.execDoeAbort s
  | .getStatus => Sys2Proof.Machine.execGetStatus s
  | .mboxGetMeasurements => Sys2Proof.Machine.execMboxGetMeasurements s
  | .getLog => Sys2Proof.Machine.execGetLog s
  | .getCert => Sys2Proof.Machine.execGetCert s
  | .recoveryWrite => Sys2Proof.Machine.execRecoveryWrite s
  | .recoveryCheck sigOk => Sys2Proof.Machine.execRecoveryCheck sigOk s
  | .mboxOwnerEnroll => Sys2Proof.Machine.execMboxOwnerEnroll s
  | .entdaa addr => Sys2Proof.Machine.execEntdaa addr s
  | .rstdaa => Sys2Proof.Machine.execRstdaa s
  | .enec mask => Sys2Proof.Machine.execEnec mask s
  | .disec mask => Sys2Proof.Machine.execDisec mask s
  | .getpid => Sys2Proof.Machine.execGetpid s
  | .getbcr => Sys2Proof.Machine.execGetbcr s
  | .getdcr => Sys2Proof.Machine.execGetdcr s
  | .getstatus => Sys2Proof.Machine.execGetstatus s
  | .setmwl n => Sys2Proof.Machine.execSetmwl n s
  | .setmrl n => Sys2Proof.Machine.execSetmrl n s
  | .getmwl => Sys2Proof.Machine.execGetmwl s
  | .getmrl => Sys2Proof.Machine.execGetmrl s
  | .rstact action => Sys2Proof.Machine.execRstact action s
  | .setEndpointId eid => Sys2Proof.Machine.execSetEndpointId eid s
  | .getEndpointId => Sys2Proof.Machine.execGetEndpointId s
  | .getEndpointUuid => Sys2Proof.Machine.execGetEndpointUuid s
  | .getMctpVersionSupport type => Sys2Proof.Machine.execGetMctpVersionSupport type s
  | .getMessageTypeSupport => Sys2Proof.Machine.execGetMessageTypeSupport s
  | .serviceRequest => Sys2Proof.Machine.execServiceRequest s
  | .coolantSample inlet outlet flow => Sys2Proof.Machine.execCoolantSample inlet outlet flow s
  | .coolingLow => Sys2Proof.Machine.execCoolingLow s
  | .coolingRecovered => Sys2Proof.Machine.execCoolingRecovered s
  | .thermalTrip => Sys2Proof.Machine.execThermalTrip s
  | .registerWrite off width value => Sys2Proof.Machine.execRegisterWrite off width value s
  | .mainPowerRestore => Sys2Proof.Machine.execMainPowerRestore s
  | .ecsPresChange x present => Sys2Proof.Machine.execEcsPresChange x present s
  | .holdupBankCharged => Sys2Proof.Machine.execHoldupBankCharged s
  | .shadowCopyEnd => Sys2Proof.Machine.execShadowCopyEnd s
  | .mirrorWriteEnd => Sys2Proof.Machine.execMirrorWriteEnd s
  | .checkerLock fd lane => Sys2Proof.Machine.execCheckerLock fd lane s
  | .checkerLockLost fd lane bits errs efrMax uncorr => Sys2Proof.Machine.execCheckerLockLost fd lane bits errs efrMax uncorr s

end Sys2Proof.Machine
end

