-- ==== Sys2Proof/Machine/RegRead.lean ====
section
/-! DEFINITION. Reads of BAR0 (00, R7, R8; 15, R385, R386): what each register of the Registers sections shows. The command
table has no row for a read; these definitions say what one returns in a state. -/

namespace Sys2Proof.Machine

/-! ### Fields -/

/-- A register put together from its fields, each as (lowest bit, value): RSV bits and WO fields read 0 (R8). -/
def pk (l : List (Nat × Nat)) : Word := l.foldl (fun (w : Word) f => w ||| (BitVec.ofNat 64 f.2 <<< f.1)) 0
/-- A bit as a field's value. -/
def fb (b : Bool) : Nat := if b then 1 else 0
/-- A one-field register. -/
def one (n : Nat) : Word := pk [(0, n)]
/-- Word `w` of bytes that are held in a list. -/
def byteWord (l : List Byte) (w : Nat) : Word := one (fieldB l (4 * w) 4)
/-- An array element that starts as 0. -/
def cnt {w : Nat} (t : Tab (BitVec w)) (i : Nat) : Nat := (tabGet (fun _ => (0 : BitVec w)) t i).toNat
/-- Bit i of a field is set where `f i` holds. -/
def mask (n : Nat) (f : Nat → Bool) : Nat := (List.range n).foldl (fun a i => a + (if f i then 2 ^ i else 0)) 0

/-! ### GATE (02, 06, 07, 08, 15, 16) -/

/-- The registers of a lane test, `o` from the lane's base (14). -/
def LaneTest.read (t : LaneTest) (o : Nat) : Word :=
  match o with
  | 0x00 => pk [(0, t.gen.toNat), (4, t.chk.toNat), (8, t.loop.toNat), (10, fb t.fec), (11, fb t.invert)]
  | 0x04 => pk [(0, fb t.lock), (1, fb t.refused), (8, t.lockLost.toNat), (16, t.uncorr.toNat)]
  | 0x08 => t.pat
  | 0x10 => t.bits
  | 0x18 => t.errs
  | 0x20 => t.efr
  | _ => t.efrMax

/-- The registers of a ring, `o` from the ring's base. -/
def Ring.read (r : Ring) (o : Nat) : Word :=
  match o with
  | 0x00 => r.ctrlAddr
  | 0x08 => r.cmdBase
  | 0x10 => r.cplBase
  | 0x18 => pk [(0, r.cmdLog2.toNat), (5, r.cplLog2.toNat), (10, r.pollUs.toNat), (20, r.vector.toNat)]
  | 0x1C => pk [(0, fb r.enable), (8, r.coalesceUs.toNat)]
  | 0x20 => pk [(0, fb (r.enable && !r.stopped)), (1, fb r.error), (2, r.cause.toNat), (4, r.fetched.length), (10, r.held.length)]
  | 0x28 => r.lost
  | _ => r.cmds

/-- GATE.ECS_STATUS. -/
def State.ecsStatus (s : State) (x : Nat) : Word :=
  let c := s.ecsOf x
  pk [(0, fb c.present), (1, fb c.ready), (2, fb (c.full && c.outputOn)), (3, fb c.safe), (4, fb c.fault),
      (5, fb (s.removable x)), (6, fb c.commsFail), (16, c.temperature.toNat)]

/-- GATE.SIGNALS (R414, R419). -/
def State.signals (s : State) : Word :=
  let g := s.gate.sig
  pk [(0, fb g.auxPg), (1, fb g.mainEn), (2, fb g.perstN), (3, fb g.attnN), (4, fb s.alertLow), (5, fb g.attnReq),
      (8, g.ecsPresent.toNat)]

/-- The GATE registers. -/
def State.readGate (s : State) (off i : Nat) : Word :=
  let g := s.gate
  match off with
  | 0x0 => one 0x00484D01
  | 0x10 => pk [(0, g.rsvWrite.toNat), (16, g.badAccess.toNat), (24, fb g.domainOff)]
  | 0x100 => pk [(0, g.pcieRate.toNat), (3, fb g.pcieFlit), (4, g.pcieWidth.toNat), (8, g.pcieRetrains.toNat)]
  | 0x104 => pk [(0, g.miscVector.toNat), (12, g.irqEnable.toNat)]
  | 0x108 => pk [(0, fb g.irqMailbox), (1, fb g.irqRing), (2, fb g.irqHold), (3, fb g.irqFatal)]
  | 0x200 => s.tb
  | 0x208 => pk [(0, fb g.holdover), (1, fb g.refclkFault), (16, g.ppm.toNat)]
  | 0x300 => s.signals
  | 0x304 => pk [(0, g.vin.toNat), (16, g.pin.toNat)]
  | 0x308 => pk [(0, g.vaux.toNat), (16, g.paux.toNat), (28, fb g.holdupReady)]
  | 0x30C => pk [(0, g.inlet.toNat), (16, g.outlet.toNat)]
  | 0x310 => pk [(0, g.flow.toNat), (16, fb g.coolingLow), (17, fb g.thermalTrip)]
  | 0x800 => pk [(0, g.mbox.op.toNat), (8, g.mbox.length.toNat)]
  | 0x804 => pk [(0, fb g.mbox.busy), (1, fb g.mbox.done), (8, g.mbox.status.toNat), (16, g.mbox.rlen.toNat)]
  | 0x1000 => pk [(0, (s.band i).owner.toNat), (4, fb (s.band i).protOff), (5, fb (s.band i).busy)]
  | 0x1400 => pk [(0, fb (s.part i).protOff), (1, fb (s.part i).protOffActive),
      (8, ((List.range 160).filter (fun b => decide ((s.band b).owner.toNat = i))).length)]
  | 0x1420 => one g.bandRefused.toNat
  | 0x1500 => pk [(0, g.bar2Mask.toNat), (8, fb g.bar2Slices)]
  | 0x1508 => one g.bar2Base.toNat
  | 0x1510 => one g.bar2Err.toNat
  | 0x2000 => pk [(0, g.udpPort.toNat), (16, fb g.port0En), (17, fb g.port1En), (18, fb g.fabricEn)]
  | 0x2008 => one (cnt g.flockDrop i)
  | 0x3000 => s.ecsStatus i
  | 0x3004 => one (fb (s.ecsOf i).ctlSafe)
  | 0x6000 => byteWord g.mbox.data i
  | 0xC000 => one (tabGet (fun k => if k % 4 = 3 then (1 : BitVec 32) else 0) g.msixTable i).toNat
  | 0xD000 => g.msixPending
  | _ => if 0x4000 ≤ off then (s.test 2 i).read (off - 0x4000) else (s.ring i).read (off - 0x500)

/-! ### SHEP (10, 11) -/

/-- Milliseconds since the member was last heard, saturating; 0xFFFF of one never heard. -/
def State.obsAge (s : State) (m : Nat) : Nat :=
  if (s.obsOf m).valid then min 0xFFFF ((s.tb - (s.obsOf m).heard).toNat / 100000) else 0xFFFF

/-- SHEP.OBS. -/
def State.obsWord (s : State) (m : Nat) : Word :=
  let o := s.obsOf m
  pk [(0, fb o.a), (1, fb o.b), (2, fb o.c), (3, fb o.d), (4, fb o.suspended), (8, o.alive.toNat), (16, s.obsAge m),
      (32, o.score.toNat), (63, fb o.valid)]

/-- Granules in use by the versions and pins of a reserve. -/
def Held.inUse (x : Held) : Nat :=
  let grans := fun (v : Option Version) => ((v.map (fun v => v.grans.length)).getD 0)
  let got := fun (v : Option Version) => ((v.map (fun v => v.got.length)).getD 0)
  grans x.committed + got x.sealed + got x.inProgress + x.pinGrans

/-- The SHEP registers. -/
def State.readShep (s : State) (off i : Nat) : Word :=
  let h := s.shep
  let c := s.ckptJob i
  let k := s.heldJob i
  match off with
  | 0x0 => pk [(0, fb h.bellwether), (1, fb h.penned), (2, fb h.paddock), (3, fb h.spare), (4, fb h.draining),
      (5, fb h.watch), (6, fb h.expelOpen), (16, h.coord.toNat)]
  | 0x4 => one h.term.toNat
  | 0x8 => pk [(0, h.bell.toNat), (16, fb h.bellValid)]
  | 0x100 => s.obsWord i
  | 0x200 => h.verdicts
  | 0x208 => pk [(0, h.vSubject.toNat), (16, h.vClasses.toNat), (32, h.vTerm.toNat), (63, fb h.vValid)]
  | 0x300 => pk [(0, if h.hard then 0 else h.score.toNat), (8, fb h.hard), (16, h.watchThr.toNat), (24, h.expelThr.toNat)]
  | 0x304 => one h.hardCode.toNat
  | 0x310 => one (cnt h.ind i)
  | 0x400 => pk [(0, h.allowed.toNat), (4, s.slotsUsed), (8, fb h.trusted), (16, h.windowHours.toNat), (24, h.rejected.toNat)]
  | 0x408 => s.slotAt i
  | 0x448 => pk [(0, h.reserve.toNat), (16, h.floor.toNat)]
  | 0x480 => pk [(0, h.exSubject.toNat), (12, h.exState.toNat), (16, h.exReasons.toNat), (24, h.exScore.toNat)]
  | 0x4C0 => pk [(0, h.clean.toNat), (2, h.padPhase.toNat), (16, h.passes.toNat)]
  | 0x500 => pk [(0, min 15 (s.recentUnsub h.coord).length), (16, h.accTotal.toNat)]
  | 0x600 => pk [(0, fb h.sbUp), (8, (h.sbAlive.last.getD 0).toNat), (32, h.sbLost.toNat), (48, h.sbCrc.toNat)]
  | 0x800 => pk [(0, s.twin.coord.toNat), (16, fb s.twin.paired), (17, fb s.twin.twinless), (18, fb s.twin.handshake),
      (19, fb s.twin.crossed)]
  | 0x804 => one s.twin.timeout.toNat
  | 0x840 => pk [(0, c.state.toNat), (4, c.reason.toNat), (8, fb c.fullNext), (16, c.exportEvery.toNat), (24, c.failed.toNat)]
  | 0x848 => c.bytes
  | 0x850 => one c.pause.toNat
  | 0xC00 => pk [(0, k.jobId.toNat), (16, k.jobGen.toNat), (24, k.size.toNat), (31, fb k.sealed.isSome)]
  | 0xC08 => (k.committed.map (·.row)).getD 0
  | 0xC10 => one k.inUse
  | _ => pk [(0, k.exportRow.toNat), (60, k.exportState.toNat)]

/-! ### TALLY (14) -/

/-- The TALLY registers. -/
def State.readTally (s : State) (off i : Nat) : Word :=
  let t := s.tally
  let o := tabGet (fun _ => ((0 : BitVec 16), (0 : Byte), (0 : Byte))) t.overrides i
  match off with
  | 0x0 => pk [(0, t.used), (14, fb t.freeze), (15, fb t.freezeTimeout), (16, fb t.freezeBroken), (17, fb t.mirroring),
      (18, t.staging.length)]
  | 0x4 => pk [(0, fb t.freeze), (1, fb t.autoInc), (2, t.source.toNat)]
  | 0x8 => one t.cursor.toNat
  | 0x10 => t.stageOvf
  | 0x18 => t.lost
  | 0x20 => t.suppressed
  | 0x28 => pk [(0, s.mirrorSeq.toNat), (32, s.flash.life.toNat)]
  | 0x30 => t.mirrorTime
  | 0x40 => byteWord t.win i
  | 0x90 => pk [(0, t.rateDef.toNat), (16, t.burstDef.toNat)]
  | 0x100 => pk [(0, o.1.toNat), (16, o.2.1.toNat), (24, o.2.2.toNat)]
  | 0x200 => pk [(0, t.bbNewest.toNat), (12, fb (decide (t.ring.length = 4096))), (13, fb t.bbFrozen), (14, t.bbCause.toNat),
      (16, fb s.flash.fatalHeld), (24, t.bbSkipped.toNat)]
  | 0x204 => pk [(0, t.bbCursor.toNat), (12, t.bbSource.toNat)]
  | 0x208 => t.bbLost
  | _ => byteWord t.bbWin i

/-! ### CAST (12) -/

/-- The CAST registers. -/
def State.readCast (s : State) (off i j : Nat) : Word :=
  let c := s.cast
  let d := tabGet (fun _ => ({} : Disc)) c.disc i
  let q := tabGet (fun _ => ({} : LaneQ)) c.laneq i
  let f := tabGet (fun _ => ((0 : BitVec 16), (0 : BitVec 16))) c.fastCnt i
  let plan : Option Plan := s.flash.settings.plan
  match off with
  | 0x0 => one s.castStatus.toNat
  | 0x4 => one (fb s.flash.fullNext)
  | 0x8 => pk [(0, c.protoRev.toNat), (8, c.protoMin.toNat), (16, s.flash.run.toNat)]
  | 0xC => pk [(0, s.shep.coord.toNat), (11, fb c.coordValid), (12, fb ((plan.map (·.acceptSwaps)).getD false)),
      (16, match plan with | some p => p.version.toNat | none => 0)]
  | 0x10 => pk [(0, f.1.toNat), (16, f.2.toNat)]
  | 0x100 => if (s.report i).valid then byteWord (reportBytes (s.report i)) j else 0
  | 0x800 => pk [(0, d.planned.toNat), (16, d.found.toNat), (32, d.status.toNat), (40, d.rev.toNat)]
  | _ => pk [(0, q.result.toNat), (2, fb q.fast), (3, fb q.retrained), (8, q.ber.toNat), (16, q.uncorr.toNat)]

/-! ### OPTn and CROOKn (08, 09); every field reads as described (R258) -/

/-- OPTn.SKEIN_STATE. -/
def State.skeinWord (s : State) (q : Nat) : Word :=
  let k := s.skein q
  pk [(0, fb k.secondary), (1, fb k.quiesced), (2, fb k.switching), (3, k.fade.toNat), (5, fb k.secUnfit),
      (8, mask 4 fun j => (s.olane q j).lit), (12, mask 4 fun j => decide ((s.olane q j).state = 5)),
      (16, fb k.txSpare), (17, fb k.rxSpare)]

/-- OPTn.LANE. -/
def OLane.word (o : OLane) : Word :=
  pk [(0, o.txRing.toNat), (4, o.rxRing.toNat), (8, o.txSlot.toNat), (12, o.rxSlot.toNat), (16, o.state.toNat),
      (20, o.misroutes.toNat)]

/-- The OPTn registers. -/
def State.readOpt (s : State) (n off i j : Nat) : Word :=
  let e := s.engine n
  let q := 16 * n + i
  let k := s.skein q
  let x := s.slotI q j
  match off with
  | 0x0 => pk [(0, fb e.crookRunning), (1, fb e.blanked), (2, fb e.gaugeOk),
      (16, mask 16 fun l => (List.range 4).any (fun j => decide ((s.olane (16 * n + l) j).state = 5)))]
  | 0x100 => s.skeinWord q
  | 0x104 => pk [(0, k.feedPri.toNat), (16, k.feedSec.toNat)]
  | 0x108 => k.darkCnt
  | 0x110 => one k.misroute.toNat
  | 0x114 => one k.mismatch.toNat
  | 0x118 => k.switches
  | 0x800 => (s.olane (16 * n + i / 4) (i % 4)).word
  | 0x1000 => pk [(0, x.coord.toNat), (16, x.remoteSkein.toNat), (31, fb x.valid)]
  | 0x2000 => pk [(0, x.rel.toNat), (16, fb x.lit), (17, fb x.relValid), (24, x.projHours.toNat)]
  | 0x3000 => one e.darkThresh.toNat
  | _ => one (cnt e.moveRefused i)

/-- The code of an element mode (Table 9-5). -/
def ElemMode.code : ElemMode → Nat
  | .park => 0 | .seek => 1 | .move => 2 | .track => 3 | .hold => 4 | .test => 5

/-- Two Q15 values in one register. -/
def pair16 (t : Tab (BitVec 16)) (w : Nat) : Word := pk [(0, cnt t (2 * w)), (16, cnt t (2 * w + 1))]

/-- The registers of an element, `o` from 0x1_0000. -/
def Elem.read (x : Elem) (o : Nat) : Word :=
  match o with
  | 0x00 => pk [(0, x.mode.code), (3, fb x.faulted), (4, fb x.notchOn), (8, x.ge.toNat), (11, x.pset.toNat), (16, x.slot.toNat)]
  | 0x08 => pk [(0, x.last.toNat), (4, x.refusal.toNat), (7, fb x.sat), (8, x.missed.toNat), (16, x.feTimer.toNat)]
  | 0x0C => pk [(0, x.command.toNat), (16, x.code.toNat)]
  | 0x10 => pk [(0, x.setpoint.toNat), (16, x.proposal.toNat)]
  | 0x14 => pk [(0, x.feLimit.toNat), (16, x.fePeriods.toNat)]
  | 0x18 => pk [(0, x.livePark.toNat), (16, (nth x.liveLines x.slot.toNat (0 : BitVec 16)).toNat)]
  | 0x20 => pk [(0, x.expiries.toNat), (32, x.slips.toNat)]
  | 0x28 => pk [(0, x.refused.toNat), (32, x.lcFail.toNat)]
  | _ => 0

/-- The CROOKn registers. -/
def State.readCrook (s : State) (n off i j : Nat) : Word :=
  let g := s.engine n
  let k := s.skein (16 * n + i)
  let b := tabGet (fun _ => ((0 : BitVec 10), (0 : BitVec 11))) g.bind i
  let p := tabGet profileDef g.profiles i
  match off with
  | 0x0 => pk [(0, fb g.run), (1, fb g.slotMiss), (2, fb g.railFault), (3, fb g.railBad), (4, fb g.tempClamp), (5, fb g.tempWarn),
      (6, fb g.gaugeOk), (16, g.progStatus.toNat)]
  | 0x4 => one (fb g.run)
  | 0x8 => g.period
  | 0x10 => pk [(0, g.temp.toNat), (16, g.railMv.toNat)]
  | 0x20 => pk [(0, b.1.toNat), (16, b.2.toNat)]
  | 0x30 => pk [(0, g.phaseA.toNat), (16, g.phaseB.toNat)]
  | 0x40 => pk [(0, g.halfWidth.toNat), (16, g.detect.toNat)]
  | 0x44 => one g.recovery.toNat
  | 0x48 => pk [(0, g.slipLimit.toNat), (16, g.slipUpdates.toNat)]
  | 0x4C => one g.handover.toNat
  | 0x50 => pk [(0, g.exAmp.toNat), (16, g.exHalf.toNat), (24, fb g.exKind)]
  | 0x58 => pk [(0, g.slotMissCnt.toNat), (32, g.badCmd.toNat)]
  | 0x100 => one (if j = 0 then p.1 else if j = 1 then p.2.1 else p.2.2).toNat
  | 0x20000 => pair16 (s.elem n i).c j
  | 0x30000 => one (cnt (s.elem n i).t j)
  | 0x40000 => pk [(0, k.correction.toNat),
      (16, ((List.range 11).filter (fun e => decide ((s.elem n (11 * i + e)).mode = .track))).length), (20, fb k.frozen)]
  | 0x41000 => pair16 k.bankC j
  | 0x60000 => one (tabGet (fun _ => (0 : BitVec 32)) g.prog i).toNat
  | 0x80000 => pk [(0, (nth (s.elem n i).liveRow (2 * j) (0 : BitVec 16)).toNat),
      (16, (nth (s.elem n i).liveRow (2 * j + 1) (0 : BitVec 16)).toNat)]
  | _ => (s.elem n i).read (off - 0x10000)

/-! ### FABn, MEMn, TILEnn (07, 03, 06, 02) -/

/-- A route entry as FABn.ROUTE and word 1 of OVL_ENTRY show it. -/
def routeWord (e : RouteEntry) : Word :=
  pk (e.choices.zipIdx.flatMap (fun c => [(12 * c.2, c.1.1.toNat), (12 * c.2 + 8, c.1.2.toNat)]) ++
    [(48, e.viaGroup.toNat), (55, fb e.nonmin), (56, fb e.local_), (57, fb e.valid)])

/-- The registers of a link context, `o` from the context's base. -/
def Link.read (l : Link) (o : Nat) : Word :=
  match o with
  | 0x00 => pk [(0, l.state.toNat), (3, fb l.fenced), (4, fb l.member), (5, l.lanes.length), (16, l.partner.toNat)]
  | 0x08 => pk [(0, l.crcErr.toNat), (32, l.replays.toNat)]
  | 0x10 => pk [(0, l.fecCorr.toNat), (48, l.fecUncorr.toNat)]
  | _ => l.flits

/-- The registers of a job slot on FAB0, `o` from the slot's base. -/
def Job.read (x : Job) (o : Nat) : Word :=
  match o with
  | 0x00 => pk [(0, x.jobId.toNat), (16, x.jobGen.toNat), (24, fb x.valid), (25, fb x.reduction)]
  | 0x08 => x.row
  | 0x10 => pk [(0, x.lastHur.toNat), (12, x.lastHurGen.toNat), (20, (x.hurs.filter (fun h => h.2.openSince.isSome)).length)]
  | 0x18 => x.stale
  | _ => one (fb x.adaptive)

/-- The FABn registers. -/
def State.readFab (s : State) (n off i j : Nat) : Word :=
  let f := s.fab n
  let o := tabGet (fun _ => ({} : Overlay)) f.ovls i
  let oe := tabGet (fun _ => ((0 : Coord), ({} : RouteEntry))) o.entries j
  match off with
  | 0x0 => one (fb f.ovf)
  | 0x100 => pk [(0, (tabGet (fun _ => (0 : BitVec 2)) f.ports i).toNat), (16, cnt f.lanesUp i)]
  | 0x20000 => pk [(0, f.hopInit.toNat), (8, f.nonminThresh.toNat)]
  | 0x20010 => pk [(0, f.wReq.toNat), (4, f.wRsp.toNat), (8, f.wCol.toNat)]
  | 0x40000 => routeWord (tabGet (fun _ => ({} : RouteEntry)) f.routes i)
  | 0x60000 => pk [(0, o.jobId.toNat), (16, (o.entries.filter (fun e => e.2.2.valid)).length)]
  | 0x70000 => one oe.1.toNat
  | 0x70008 => routeWord oe.2
  | 0x80000 => one (mask 32 fun b => tabGet (fun _ => false) f.fence (32 * i + b))
  | 0x80100 => tabGet (fun _ => (0 : Word)) f.drop i
  | 0x80200 => tabGet (fun _ => (0 : Word)) f.hold i
  | 0x1E0400 => one s.hurTimeout.toNat
  | _ =>
    if 0x1E0000 ≤ off then (s.job i).read (off - 0x1E0000)
    else if 0xA0000 ≤ off then (s.test n i).read (off - 0xA0000)
    else (s.link n i).read (off - 0x10000)

/-- The MEMn registers. -/
def State.readMem (s : State) (n off i : Nat) : Word :=
  let m := s.md n
  let k := s.stack n i
  let erased := ((List.range 18).filter (fun c => k.erased.getLsbD c)).length
  match off with
  | 0x0 => pk [(0, mask 5 fun k => (s.stack n k).trained), (8, m.rate.toNat), (16, fb m.selfRefresh)]
  | 0x100 => pk [(0, k.erased.toNat), (24, fb (decide (erased = 1))), (25, fb (decide (2 ≤ erased)))]
  | 0x104 => one k.corr.toNat
  | 0x108 => one k.uncorr.toNat
  | 0x10C => one k.linkEcc.toNat
  | 0x200 => one (cnt (s.stack n (i / 18)).chanCorr (i % 18))
  | 0x400 => one m.eraseThresh.toNat
  | 0x404 => pk [(0, m.passHours.toNat), (8, fb m.scrubEnable)]
  | 0x408 => m.scrubPass
  | 0x410 => pk [(0, m.ueAddr.toNat), (48, m.ueSource.toNat), (63, fb m.ueValid)]
  | _ => m.rmw

/-- The code of a context state (Table 3-3). -/
def CtxMode.code : CtxMode → Nat
  | .empty => 0 | .loaded => 1 | .ready => 2 | .running => 3 | .waiting => 4 | .stopped => 5 | .done => 6

/-- The registers of a context, `o` from the context's base. -/
def Ctx.read (x : Ctx) (o : Nat) : Word :=
  match o with
  | 0x00 => pk [(0, x.mode.code), (4, x.waitCause.toNat), (8, x.fault.toNat), (16, x.chainId.toNat)]
  | 0x04 => one x.pc.toNat
  | 0x08 => one x.flags.toNat
  | 0x0C => pk [(0, x.jobId.toNat), (16, x.jobGen.toNat)]
  | 0x10 => x.faultWord
  | _ => x.beats

/-- The TILEnn registers; `i` and `j` are the logical tile within the die and its context. -/
def State.readTile (s : State) (n off i j : Nat) : Word :=
  let d := s.die n
  let r := tabGet (fun _ => ({} : RowMap)) d.rows i
  match off with
  | 0x0 => pk [(0, fb d.degraded), (1, fb d.outOfService), (8, d.failedTiles.toNat), (16, d.ucode.toNat)]
  | 0x100 => pk [(0, r.spareCol.toNat), (4, fb r.healthy), (5, fb r.absent), (6, r.absentCol.toNat)]
  | 0x200 => one d.faultCount.toNat
  | 0x208 => d.chDrop
  | 0x210 => one d.mapRefused.toNat
  | 0x300 => one d.storeCorr.toNat
  | 0x304 => one d.storeUncorr.toNat
  | 0x308 => pk [(0, d.repairRows.toNat), (16, d.repairPending.toNat)]
  | 0x310 => pk [(0, d.ueAddr.toNat), (63, fb d.ueValid)]
  | 0x3F0000 => one d.window.toNat
  | 0x3F0008 => pk [(0, d.beats.toNat), (32, d.seq.toNat)]
  | 0x3F0010 => d.beatCount
  | 0x3F0018 => one d.beatMin.toNat
  | 0x3F0020 => pk [(0, d.vcoreMv.toNat), (16, d.tj.toNat), (31, fb d.senseValid)]
  | 0x3F0028 => pk [(0, fb d.deficit), (1, fb d.countOvf)]
  | 0x3F0030 => one d.beatDeficit.toNat
  | _ => (s.ctx (240 * n + i) j).read (off - 0x100000)

/-! ### SEC (13) -/

/-- The SEC registers. -/
def State.readSec (s : State) (off i j : Nat) : Word :=
  let c := s.sec
  match off with
  | 0x0 => pk [(0, c.slot.toNat), (1, fb c.trial), (2, fb c.migrated), (8, c.protoRev.toNat), (16, s.flash.frogs.toNat)]
  | 0x4 => one c.version.toNat
  | 0x10 => one (slotWord (s.slotOf i)).toNat
  | 0x14 => one (s.slotOf i).version.toNat
  | 0x18 => one (s.slotOf i).svn.toNat
  | 0x40 => one s.flash.svn.toNat
  | 0x48 => c.deadline
  | 0x50 => 0
  | 0x100 => pk [(0, c.pufStatus.toNat), (16, c.pufCorr.toNat)]
  | 0x120 => byteWord (digBytes c.unitId) i
  | 0x200 => c.signNext
  | 0x208 => c.signLimit
  | 0x210 => pk [(0, fb s.flash.stuck), (1, fb c.reserveFail), (16, c.signBusy.toNat)]
  | 0x420 => byteWord (digBytes (s.meas (i + 1))) j
  | 0x600 => byteWord (digBytes (s.meas (i + 16))) j
  | 0x800 => pk [(0, c.entries), (13, fb c.truncated)]
  | 0x804 => one c.cursor.toNat
  | 0x840 => match c.log[c.cursor.toNat]? with | some e => byteWord (logBytes e) i | none => 0
  | 0x900 => pk [(0, fb s.flash.owned), (1, fb ((s.flash.settings.plan.map (·.ideRequired)).getD false)), (16, s.flash.epoch.toNat)]
  | 0x910 => one (cnt c.authFail i)
  | 0xA00 => c.bcImage
  | 0xA08 => pk [(0, c.bcTotal.toNat), (12, c.bcHeld.toNat), (24, c.bcRepaired.toNat), (36, c.bcBad.toNat), (48, c.bcState.toNat)]
  | _ => pk [(0, fb c.ideLink), (1, fb c.ideSel), (2, fb c.session), (3, fb s.ideBlocked), (8, c.integrityFail.toNat)]

/-! ### A read (R7, R386) -/

/-- The whole value of a register that is listed, from one instant (R7). -/
def State.readReg (s : State) (b : Blk) (n : Nat) (d : RegDef) (is : List Nat) : Word :=
  let i := nth is 0 0
  let j := nth is 1 0
  match b with
  | .gate => s.readGate d.off i
  | .shep => s.readShep d.off i
  | .tally => s.readTally d.off i
  | .cast => s.readCast d.off i j
  | .crook => s.readCrook n d.off i j
  | .opt => s.readOpt n d.off i j
  | .fab => s.readFab n d.off i j
  | .mem => s.readMem n d.off i
  | .tile => s.readTile n d.off i j
  | .sec => s.readSec d.off i j

/-- A 32-bit word of a register: its lower or its upper half; none where no register stands. -/
def State.readWord (s : State) (b : Blk) (n off : Nat) : Option (BitVec 32) :=
  (regAt b n off).map (fun r => ((s.readReg b n r.1 r.2.1) >>> (if r.2.2 then 32 else 0)).setWidth 32)

/-- What a read of one or two words of a block that is on returns: a word where no register stands is 0. -/
def State.readBlk (s : State) (b : Blk) (n off width : Nat) : Option Word :=
  let lo := s.readWord b n off
  let hi := if width = 8 then s.readWord b n (off + 4) else none
  if lo.isNone && hi.isNone then none
  else some (((hi.getD 0).setWidth 64 <<< 32) ||| (lo.getD 0).setWidth 64)

/-- A read of `width` bytes at an offset of BAR0 (R386): what it returns, and what it leaves. One that BAR0 does not take
returns 0 and counts in bad_access; one of a block that is off returns ones and sets domain_off. The last word of
TALLY.WIN advances the cursor under auto_inc (R369); no other read changes anything. -/
def State.readAt (s : State) (off width : Nat) : Word × State :=
  if !decide (width = 4 ∨ width = 8) || decide (off % width ≠ 0) then (0, s.badAccess false)
  else match blkAt off with
    | none => (0, s.badAccess false)
    | some (b, n, o) =>
      if !s.blkOn b n then
        (if width = 8 then BitVec.allOnes 64 else 0xFFFFFFFF, s.updGate fun g => { g with domainOff := true })
      else match s.readBlk b n o width with
        | none => (0, s.badAccess false)
        | some v => (v, if b = .tally ∧ o + width = 0x84 ∧ s.tally.autoInc then s.latch (s.tally.cursor + 1) else s)

end Sys2Proof.Machine
end

