-- ==== Sys2Proof/Safety.lean ====
section
/-! DEFINITION. The terms that claims are made in: a canonical memory, a stage instruction that issues,
and what its completion makes of the state. -/

namespace Sys2Proof.Machine

/-- The canonical form of memory: addresses strictly rising and no byte listed that an unlisted address
reads as; the same of the record of bad units, of line keys and of the bits in error. -/
def Memory.wf (s : State) : Bool :=
  (tabWf memDef s.mem && tabWf (fun _ => false) s.bad) && (tabWf (fun _ => 0) s.lineKeys && tabWf (fun _ => []) s.upsets)

/-- Context `c` owns the front end of tile `t`, and its next word is the legal word of this major opcode,
function and operand bits (R43, R78). -/
def Fetches (s : State) (t c major fn : Nat) (o : Op) : Prop :=
  s.canIssue t = true ∧ (s.tile t).owner = c ∧ (s.ctx t c).pcIn = true ∧
  s.istoreWord t (s.ctx t c).pc.toNat = wordOf major fn o ∧ legalWord (wordOf major fn o) = true

/-- The same, and the word's guard is true (R80). -/
def Issues (s : State) (t c major fn : Nat) (o : Op) : Prop :=
  Fetches s t c major fn o ∧ (s.ctx t c).guardOk o.guard = true

/-- The context has charged the instruction's beats. -/
def issued (s : State) (t c : Nat) : State := s.charge t c

/-- After the effect that led from `s` to `u`, the context's pc goes on from the word it stood at in `s` to
the next, or where its loops send it (R84). -/
def moveOn (s u : State) (t c : Nat) : State :=
  u.updCtx t c fun x => x.advance (s.ctx t c).pc.toNat ((s.ctx t c).pc.toNat + 1)

/-- The instruction changes its context by `f` and nothing else, and the pc goes on. -/
def retire (s : State) (t c : Nat) (f : Ctx → Ctx) : State :=
  moveOn s ((issued s t c).updCtx t c f) t c

/-- The same on the state `u` that what the instruction has read left: errors met on the way corrected and counted
(R127). -/
def retireOn (s u : State) (t c : Nat) (f : Ctx → Ctx) : State := moveOn s (u.updCtx t c f) t c

/-- The context waits with a cause and the tile goes on with another (R50, R52). -/
def starved (s : State) (t c : Nat) (cause : BitVec 4) : State :=
  ((issued s t c).updCtx t c fun x => { x with mode := .waiting, waitCause := cause }).dispatch t

/-- The context stops at its present word with a fault (R73). -/
def faulted (s : State) (t c : Nat) (code : BitVec 4) : State :=
  (issued s t c).faultCtx t c code (s.ctx t c).pc (s.istoreWord t (s.ctx t c).pc.toNat)

/-- A packet of a kind stands whole at die `fd`, is for this module and for partition `part`, and passes
every check of an arriving packet (R170). -/
def Arrives (s : State) (kind : Byte) (fd : Nat) (p : Packet) (part : Option Nat) : Prop :=
  s.pwr.transit = true ∧ fd < 2 ∧ p.kind = kind ∧ s.forUs fd p = true ∧ s.rxDrop fd p part = none

/-- The command of this block and opcode is the next of ring `r` that can start, aux is up and the module is
ready for it (R393, R394, R305). -/
def Starts (s : State) (r op : Nat) (blk : Block) : Prop :=
  s.pwr.aux = true ∧ s.readyFor r = true ∧ blkOp blk = op ∧
  ∃ c, nextCmd (s.ring r).fetched true = some c ∧ c.block = blk

/-- The same of a command that also runs before the module is ready (Table 15-5). -/
def StartsEarly (s : State) (r op : Nat) (blk : Block) : Prop :=
  s.pwr.aux = true ∧ blkOp blk = op ∧ ∃ c, nextCmd (s.ring r).fetched true = some c ∧ c.block = blk

/-- The ring with that command marked as started. -/
def started (s : State) (r : Nat) : State :=
  s.setRing r { s.ring r with fetched := markStarted (s.ring r).fetched }

/-- The way a flock message comes by is open and its source is not fenced there (R189, R192). -/
def Reaches (s : State) (h : FlockHdr) : Prop :=
  s.shepOn = true ∧ s.flash.owned = true ∧ s.flockOpen h = true ∧ s.flockFenced h = false

/-- A flock message passes every check of R193, its alive counter the last (R378), and has the type of its body. -/
def Hears (s : State) (h : FlockHdr) (b : FlockBody) (key : Nat) : Prop :=
  Reaches s h ∧ flockWhole h b = true ∧ h.version = 1 ∧ flockTypeKnown h.type = true ∧
  s.flash.settings.plan.map (·.pod) = some h.pod ∧ s.flockSigned h b = true ∧ h.type = b.type ∧
  ∃ n, ((s.sender key).hear h.alive).2 = .accepted n

/-- The state in which an accepted message has its effect: its counter is kept and its sender noted. -/
def heardFrom (s : State) (h : FlockHdr) (key : Nat) : State :=
  ({ s with shep := { s.shep with
      senders := tabSet (fun _ => {}) s.shep.senders key ((s.sender key).hear h.alive).1 } } : State).noteSender h

/-- A sideband frame of the twin is accepted, `n` frames before it being counted as lost (R288, R378). -/
def SideHears (s : State) (type : Byte) (f : SideFrame) (n : Nat) : Prop :=
  s.shepOn = true ∧ sideGood type f = true ∧ s.twin.paired = true ∧ f.sender = s.twin.coord ∧
  (s.shep.sbAlive.hear f.alive).2 = .accepted n

/-- The state in which an accepted frame of the twin has its effect. -/
def sideFrom (s : State) (f : SideFrame) (n : Nat) : State :=
  ({ s with shep := { s.shep with sbAlive := (s.shep.sbAlive.hear f.alive).1 } } : State).sideHeard f n

end Sys2Proof.Machine
end

