-- ==== Sys2Proof/Certificates/Slice0/Obligations.lean ====
section
/-! DEFINITION. The statements about the block, one definition each; OBLIGATIONS.json lists them. -/

open Sys2Proof Sys2Proof.Machine

/-- The block takes the command at the front of its queue and carries it out with the rest of the queue; with
none waiting it idles (the idle step is the model's choice, log entry 2). -/
def Obligations.StepTakesFrontCommand : Prop :=
  (∀ (c : Instr) (s : State), step { s with pending := c :: s.pending } = exec c s) ∧
  (∀ s : State, s.pending = [] → step s = .next s)

/-- Every legal stage word that a command stands for is read back as that command, with every operand bit (R77,
R78). -/
def Obligations.StageWordReadsBack : Prop :=
  ∀ (i : Instr) (t : Nat) (w : Word), stageWord i = some (t, w) → legalWord w = true → stageOf t w = some i

/-- Every legal word is the word of a stage instruction; an illegal one is the word of none that it is read as
(R78). -/
def Obligations.LegalWordsAreInstructions : Prop :=
  ∀ (t : Nat) (w : Word),
    (legalWord w = true → ∃ i, stageOf t w = some i ∧ stageWord i = some (t, w)) ∧
    (legalWord w = false → stageOf t w = none)

/-- Words written out bit by bit from Tables 4-3 to 4-19 and the instructions that they stand for. -/
def Obligations.SampleWordsDecode : Prop :=
  -- CTL_HALT: major 0x00, function 0x09, no operands
  stageOf 7 (0x0004800000000000 : Word) = some (.ctlHalt 7 ⟨0, 0⟩) ∧
  -- SCA_ADD s3, s1, s2: major 0x08, function 0x00, d 3, a 1, b 2
  stageOf 7 (0x2000060840000000 : Word) = some (.scaAdd 7 .reg ⟨0, 0x060840000000⟩) ∧
  -- SCA_LI s1, 5 under guard p2 negated: major 0x09, g 1, gn 1, gp 2, function 0x13, d 1, imm 5
  stageOf 7 (0x2749820000000005 : Word) = some (.scaLi 7 .imm ⟨0b11010, 0x020000000005⟩) ∧
  -- HUR_WAIT 0x123: major 0x38, function 0x01, imm 0x123
  stageOf 7 (0xE000800000000123 : Word) = some (.hurWait 7 ⟨0, 0x123⟩) ∧
  -- SYS_TIME s4: major 0x3C, function 0x0A, d 4
  stageOf 7 (0xF005080000000000 : Word) = some (.sysTime 7 ⟨0, 0x080000000000⟩) ∧
  -- MEM_WAIT 2: major 0x2C, function 0x04, d 2
  stageOf 7 (0xB002040000000000 : Word) = some (.memWait 7 ⟨0, 0x040000000000⟩) ∧
  -- major 0x3F and function 0x3F of the scalar class are no instructions
  stageOf 7 (0xFC00000000000000 : Word) = none ∧ stageOf 7 (0x201F800000000000 : Word) = none

/-- An illegal word, or a pc outside the context's region, stops the context with fault code 1, whichever stage
instruction is asked for (R43, R78). A stage instruction whose guard is false changes nothing but beats, pc
and loops: the pc goes to the next word, past the whole body for LOOP and LOOPI (R80, R81). -/
def Obligations.FetchedWordOutcomes : Prop :=
  (∀ (i : Instr) (t c : Nat) (w : Word) (s : State), stageWord i = some (t, w) → s.canIssue t = true →
     (s.tile t).owner = c →
     ((s.ctx t c).pcIn = false ∨ legalWord (s.istoreWord t (s.ctx t c).pc.toNat) = false) →
     exec i s = .next (s.faultCtx t c 1 (s.ctx t c).pc (s.istoreWord t (s.ctx t c).pc.toNat))) ∧
  (∀ (i : Instr) (t c major fn : Nat) (o : Op) (s : State), major < 64 → fn < 64 →
     stageWord i = some (t, wordOf major fn o) → Fetches s t c major fn o →
     (s.ctx t c).guardOk o.guard = false →
     exec i s = .next ((issued s t c).updCtx t c fun x =>
       x.advance (s.ctx t c).pc.toNat
         (if major = 0 ∧ (fn = 4 ∨ fn = 5) then (s.ctx t c).pc.toNat + loopLen o.body + 1
          else (s.ctx t c).pc.toNat + 1)))

/-- Control flow (R82, R85, R51, R103; Table 4-4). Branch offsets count from the branch word; the 15-bit pc
wraps (the model's choice, log entry 18). HALT is stated where nothing of the context is in flight, and
where a transfer of a MEM tag is. -/
def Obligations.ControlInstructions : Prop :=
  ∀ (t c : Nat) (o : Op) (s : State),
    let s1 := issued s t c
    let x := s1.ctx t c
    let pc := (s.ctx t c).pc.toNat
    let l := loopLvl o.body
    (Issues s t c 0x00 0x00 o → exec (.ctlNop t o) s = .next (moveOn s s1 t c)) ∧
    (Issues s t c 0x00 0x01 o →
      exec (.ctlBr t o) s = .next (s1.updCtx t c fun y => y.branch (x.pc + (immS o.body).setWidth 15))) ∧
    (Issues s t c 0x00 0x02 o →
      exec (.ctlBl t o) s = .next ((s1.updCtx t c fun y =>
        y.setS (fD o.body) (BitVec.ofNat 64 (x.pc.toNat + 1))).updCtx t c fun y =>
          y.branch (x.pc + (immS o.body).setWidth 15))) ∧
    (Issues s t c 0x00 0x03 o →
      exec (.ctlJr t o) s = .next (s1.updCtx t c fun y => y.branch ((x.getS (fA o.body)).setWidth 15))) ∧
    (Issues s t c 0x00 0x06 o → (x.loop l).active = true →
      exec (.ctlBreak t o) s = .next ((s1.updCtx t c fun y => y.breakLevel l).updCtx t c fun y =>
        y.advance pc ((x.loop l).last.toNat + 1))) ∧
    (Issues s t c 0x00 0x06 o → (x.loop l).active = false →
      exec (.ctlBreak t o) s = .next (moveOn s s1 t c)) ∧
    (Issues s t c 0x00 0x07 o →
      exec (.ctlLidx t o) s = .next (retire s t c fun y =>
        y.setS (fD o.body) (if (y.loop l).active then (y.loop l).index.setWidth 64 else 0))) ∧
    (Issues s t c 0x00 0x08 o →
      exec (.ctlYield t o) s = .next ((s1.updCtx t c fun y =>
        { y.advance pc (pc + 1) with mode := .ready }).dispatch t)) ∧
    (Issues s t c 0x00 0x09 o → (x.mems.any fun p => p.2.xfer.isSome) = false →
      (x.fabs.any fun p => p.2.xfer.isSome) = false →
      exec (.ctlHalt t o) s = .next ((s1.updCtx t c fun y =>
        { y.advance pc (pc + 1) with mode := .done }).dispatch t)) ∧
    (Issues s t c 0x00 0x09 o → (x.mems.any fun p => p.2.xfer.isSome) = true →
      exec (.ctlHalt t o) s = .next (starved s t c 4))

/-- Hardware loops (R83): a LOOP of count n > 0 on level L starts at pc + 1 and ends at pc + len, with n passes
remaining, index 0, L active and any earlier loop on L replaced; a count of 0 deactivates L and goes on at
pc + len + 1. LOOP takes its count from a register and LOOPI from the word. -/
def Obligations.LoopSetup : Prop :=
  ∀ (t c : Nat) (o : Op) (s : State) (n : BitVec 32),
    let s1 := issued s t c
    let x := s1.ctx t c
    let pc := (s.ctx t c).pc.toNat
    let l := loopLvl o.body
    let len := loopLen o.body
    let next : State := if n = 0 then
        (s1.updCtx t c fun y => y.setLoop l { y.loop l with active := false }).updCtx t c fun y =>
          y.advance pc (x.pc.toNat + len + 1)
      else (s1.updCtx t c fun y => y.setLoop l {
          start := BitVec.ofNat 15 (x.pc.toNat + 1), last := BitVec.ofNat 15 (x.pc.toNat + len),
          remaining := n, index := 0, active := true }).updCtx t c fun y => y.advance pc (pc + 1)
    (Issues s t c 0x00 0x04 o → n = (x.getS (fA o.body)).setWidth 32 → exec (.ctlLoop t o) s = .next next) ∧
    (Issues s t c 0x00 0x05 o → n = BitVec.ofNat 32 (loopCount o.body) → exec (.ctlLoopi t o) s = .next next)

/-- Scalar arithmetic (R86, Table 4-5): `sd ← op sa b`, b a register or the immediate, modulo 2^64; the other
registers stay and the next word follows. -/
def Obligations.ScalarArithmetic : Prop :=
  ∀ (t c : Nat) (f : ScaForm) (o : Op) (s : State),
    let put := fun (op : Word → Word → Word) => retire s t c fun x =>
      x.setS (fD o.body) (op (x.getS (fA o.body))
        (match f with | .reg => x.getS (fB o.body) | .imm => (o.body.setWidth 35).signExtend 64))
    (Issues s t c f.major 0x00 o → exec (.scaAdd t f o) s = .next (put fun a b => a + b)) ∧
    (Issues s t c f.major 0x01 o → exec (.scaSub t f o) s = .next (put fun a b => a - b)) ∧
    (Issues s t c f.major 0x02 o → exec (.scaMul t f o) s = .next (put fun a b => a * b)) ∧
    (Issues s t c f.major 0x03 o →
      exec (.scaMulh t f o) s = .next (put fun a b => BitVec.ofInt 64 (a.toInt * b.toInt / 2 ^ 64))) ∧
    (Issues s t c f.major 0x04 o →
      exec (.scaMulhu t f o) s = .next (put fun a b => BitVec.ofNat 64 (a.toNat * b.toNat / 2 ^ 64))) ∧
    (Issues s t c f.major 0x05 o → exec (.scaDiv t f o) s = .next (put fun a b =>
      if b = 0 then BitVec.allOnes 64 else BitVec.ofInt 64 (Int.tdiv a.toInt b.toInt))) ∧
    (Issues s t c f.major 0x06 o → exec (.scaDivu t f o) s = .next (put fun a b =>
      if b = 0 then BitVec.allOnes 64 else BitVec.ofNat 64 (a.toNat / b.toNat))) ∧
    (Issues s t c f.major 0x07 o → exec (.scaRem t f o) s = .next (put fun a b =>
      if b = 0 then a else BitVec.ofInt 64 (Int.tmod a.toInt b.toInt))) ∧
    (Issues s t c f.major 0x08 o → exec (.scaRemu t f o) s = .next (put fun a b =>
      if b = 0 then a else BitVec.ofNat 64 (a.toNat % b.toNat))) ∧
    (Issues s t c f.major 0x09 o → exec (.scaAnd t f o) s = .next (put fun a b => a &&& b)) ∧
    (Issues s t c f.major 0x0A o → exec (.scaOr t f o) s = .next (put fun a b => a ||| b)) ∧
    (Issues s t c f.major 0x0B o → exec (.scaXor t f o) s = .next (put fun a b => a ^^^ b)) ∧
    (Issues s t c f.major 0x0C o → exec (.scaShl t f o) s = .next (put fun a b => a <<< (b.toNat % 64))) ∧
    (Issues s t c f.major 0x0D o → exec (.scaShr t f o) s = .next (put fun a b => a >>> (b.toNat % 64))) ∧
    (Issues s t c f.major 0x0E o →
      exec (.scaSra t f o) s = .next (put fun a b => a.sshiftRight (b.toNat % 64))) ∧
    (Issues s t c f.major 0x0F o → exec (.scaMin t f o) s = .next (put fun a b => if a.slt b then a else b)) ∧
    (Issues s t c f.major 0x10 o → exec (.scaMax t f o) s = .next (put fun a b => if a.slt b then b else a)) ∧
    (Issues s t c f.major 0x11 o → exec (.scaMinu t f o) s = .next (put fun a b => if a.ult b then a else b)) ∧
    (Issues s t c f.major 0x12 o → exec (.scaMaxu t f o) s = .next (put fun a b => if a.ult b then b else a))

/-- Scalar moves, compares, predicates and addresses (R86, Table 4-5). -/
def Obligations.ScalarMovesAndPredicates : Prop :=
  ∀ (t c : Nat) (f : ScaForm) (o : Op) (s : State),
    let b2 := fun (x : Ctx) => match f with | .reg => x.getS (fB o.body) | .imm => immS o.body
    (Issues s t c f.major 0x13 o →
      exec (.scaLi t f o) s = .next (retire s t c fun x => x.setS (fD o.body) (immS o.body))) ∧
    (Issues s t c f.major 0x14 o →
      exec (.scaLih t f o) s = .next (retire s t c fun x =>
        x.setS (fD o.body) (BitVec.ofNat 32 (fImm o.body) ++ (x.getS (fD o.body)).extractLsb' 0 32))) ∧
    (Issues s t c f.major 0x15 o →
      exec (.scaCmp t f o) s = .next (retire s t c fun x =>
        x.setP (fD o.body % 8) (match fD o.body / 8 with
          | 0 => decide (x.getS (fA o.body) = b2 x)
          | 1 => decide (x.getS (fA o.body) ≠ b2 x)
          | 2 => (x.getS (fA o.body)).slt (b2 x)
          | 3 => !(x.getS (fA o.body)).slt (b2 x)
          | 4 => (x.getS (fA o.body)).ult (b2 x)
          | _ => !(x.getS (fA o.body)).ult (b2 x)))) ∧
    (Issues s t c f.major 0x16 o →
      exec (.scaPlog t f o) s = .next (retire s t c fun x =>
        x.setP (fD o.body) (match fX o.body % 4 with
          | 0 => x.getP (fA o.body) && x.getP (fB o.body)
          | 1 => x.getP (fA o.body) || x.getP (fB o.body)
          | 2 => x.getP (fA o.body) != x.getP (fB o.body)
          | _ => x.getP (fA o.body) && !x.getP (fB o.body)))) ∧
    (Issues s t c f.major 0x17 o →
      exec (.scaPget t f o) s = .next (retire s t c fun x => x.setS (fD o.body) (x.p.setWidth 64))) ∧
    (Issues s t c f.major 0x18 o →
      exec (.scaPset t f o) s = .next (retire s t c fun x => { x with p := (x.getS (fA o.body)).setWidth 8 })) ∧
    (Issues s t c f.major 0x19 o →
      exec (.scaAmov t f o) s = .next (retire s t c fun x =>
        x.setA (fD o.body) ((x.getS (fA o.body)).setWidth 48))) ∧
    (Issues s t c f.major 0x1A o →
      exec (.scaAget t f o) s = .next (retire s t c fun x =>
        x.setS (fD o.body) ((x.getA (fA o.body)).setWidth 64))) ∧
    (Issues s t c f.major 0x1B o →
      exec (.scaAadd t f o) s = .next (retire s t c fun x =>
        x.setA (fD o.body) (x.getA (fA o.body) + (b2 x).setWidth 48)))

/-- Lane-wise vector arithmetic on two registers (R87, R101, R113, R114, R120; Table 4-8): integer lanes wrap in
the lane width, float lanes take one rounding from the exact value, and only a rounding that is stochastic
advances the context's generator. VSHL and VSHR have no float form. -/
def Obligations.VectorLaneArithmetic : Prop :=
  ∀ (t c : Nat) (o : Op) (s : State),
    let b := o.body
    let ty := xT (fX b)
    let w := typeWidth ty
    let ints := fun (fi : Int → Int → Int) => retire s t c fun x =>
      x.putLanes (fD b) w (((lanesOf w (x.getV (fA b))).zip (lanesOf w (x.getV (fB b)))).map fun p =>
        ((fi (laneInt ty p.1) (laneInt ty p.2) % (2 ^ w : Int)).toNat, 0))
    let floats := fun (draw : Bool) (ff : FVal → FVal → FVal × FlagSet) => retire s t c fun x =>
      let rd := if draw then x.rounding (xRnd (fX b)) (typeLanes ty) else (.nearest, fun _ => 0, x)
      rd.2.2.putLanes (fD b) w ((((lanesOf w (x.getV (fA b))).zip (lanesOf w (x.getV (fB b)))).zipIdx).map fun p =>
        let v := ff ((fmtOf ty).decode p.1.1) ((fmtOf ty).decode p.1.2)
        let r := (fmtOf ty).round rd.1 x.ftz (rd.2.1 p.2) v.1
        (r.1, v.2 ||| r.2))
    (Issues s t c 0x10 0x00 o → exec (.vecVadd t o) s = .next (if typeFloat ty then floats true fadd
      else ints fun p q => p + q)) ∧
    (Issues s t c 0x10 0x01 o → exec (.vecVsub t o) s = .next (if typeFloat ty
      then floats true fun p q => fadd p q.negate else ints fun p q => p - q)) ∧
    (Issues s t c 0x10 0x02 o → exec (.vecVmul t o) s = .next (if typeFloat ty then floats true fmul
      else ints fun p q => p * q)) ∧
    (Issues s t c 0x10 0x04 o → exec (.vecVmin t o) s = .next (if typeFloat ty then floats false (fminmax false)
      else ints fun p q => min p q)) ∧
    (Issues s t c 0x10 0x05 o → exec (.vecVmax t o) s = .next (if typeFloat ty then floats false (fminmax true)
      else ints fun p q => max p q)) ∧
    (Issues s t c 0x10 0x09 o → typeFloat ty = false → exec (.vecVshl t o) s = .next
      (ints fun p q => p * 2 ^ (q % (w : Int)).toNat)) ∧
    (Issues s t c 0x10 0x0A o → typeFloat ty = false → exec (.vecVshr t o) s = .next
      (ints fun p q => p / 2 ^ (q % (w : Int)).toNat))

/-- Vector operations that move or combine bits and lanes without rounding (R87, R109; Table 4-8). Lanes packed
into a register are read back, each modulo its width, in a register that holds them all (Table 3-1, R109). -/
def Obligations.VectorBitsAndLanes : Prop :=
  (∀ (t c : Nat) (o : Op) (s : State),
     let b := o.body
     let ty := xT (fX b)
     let w := typeWidth ty
     (Issues s t c 0x10 0x06 o → exec (.vecVand t o) s = .next (retire s t c fun x =>
       x.setV (fD b) (x.getV (fA b) &&& x.getV (fB b)))) ∧
     (Issues s t c 0x10 0x07 o → exec (.vecVor t o) s = .next (retire s t c fun x =>
       x.setV (fD b) (x.getV (fA b) ||| x.getV (fB b)))) ∧
     (Issues s t c 0x10 0x08 o → exec (.vecVxor t o) s = .next (retire s t c fun x =>
       x.setV (fD b) (x.getV (fA b) ^^^ x.getV (fB b)))) ∧
     (Issues s t c 0x10 0x0C o → exec (.vecVsel t o) s = .next (retire s t c fun x =>
       x.setV (fD b) (packLanes w ((List.range (2048 / w)).map fun i =>
         if laneGet w (x.getV (fC b)) i ≠ 0 then laneGet w (x.getV (fA b)) i else laneGet w (x.getV (fB b)) i)))) ∧
     (Issues s t c 0x10 0x10 o → exec (.vecVbcast t o) s = .next (retire s t c fun x =>
       x.setV (fD b) (packLanes w (List.replicate (2048 / w) (x.getS (fA b)).toNat)))) ∧
     (Issues s t c 0x10 0x11 o → exec (.vecVext t o) s = .next (retire s t c fun x =>
       x.setS (fD b) (BitVec.ofInt 64 (laneInt ty (laneGet w (x.getV (fA b)) (xLane (fX b))))))) ∧
     (Issues s t c 0x10 0x12 o → exec (.vecVins t o) s = .next (retire s t c fun x =>
       x.setV (fD b) (putBits (x.getV (fD b)) (w * xLane (fX b)) w (x.getS (fA b)).toNat))) ∧
     (Issues s t c 0x10 0x13 o → exec (.vecVperm t o) s = .next (retire s t c fun x =>
       x.setV (fD b) (packLanes w ((lanesOf w (x.getV (fB b))).map fun k =>
         laneGet w (x.getV (fA b)) (k % (2048 / w)))))) ∧
     (Issues s t c 0x10 0x16 o → exec (.vecVmov t o) s = .next (retire s t c fun x =>
       x.setV (fD b) (x.getV (fA b)))) ∧
     (Issues s t c 0x10 0x17 o → exec (.vecVzero t o) s = .next (retire s t c fun x => x.setV (fD b) 0)) ∧
     (Issues s t c 0x10 0x18 o → exec (.vecVneg t o) s = .next (retire s t c fun x =>
       x.setV (fD b) (packLanes w ((lanesOf w (x.getV (fA b))).map fun n =>
         if typeFloat ty then (n + 2 ^ (w - 1)) % 2 ^ w else (-(laneInt ty n) % (2 ^ w : Int)).toNat)))) ∧
     (Issues s t c 0x10 0x19 o → exec (.vecVabs t o) s = .next (retire s t c fun x =>
       x.setV (fD b) (packLanes w ((lanesOf w (x.getV (fA b))).map fun n =>
         if typeFloat ty then n % 2 ^ (w - 1) else (((laneInt ty n).natAbs : Int) % (2 ^ w : Int)).toNat))))) ∧
  (∀ (w : Nat) (l : List Nat) (i : Nat), 0 < w → l.length * w ≤ 2048 → i < l.length →
     laneGet w (packLanes w l) i = nth l i 0 % 2 ^ w)

/-- Fused multiply-add, compares, conversions, functions, reductions and the block formats (R88, R89, R90, R118,
R119, R120; Table 4-8). VFN's result on an ordinary operand is a free value
within 2 units in the last place of the correctly rounded value (log entry 7). -/
def Obligations.VectorFloatAndFormats : Prop :=
  ∀ (t c : Nat) (o : Op) (s : State),
    let b := o.body
    let ty := xT (fX b)
    let w := typeWidth ty
    let n := typeLanes ty
    let f := fmtOf ty
    (Issues s t c 0x10 0x03 o → exec (.vecVfma t o) s = .next (retire s t c fun x =>
      let rd := x.rounding (xRnd (fX b)) n
      rd.2.2.putLanes (fD b) w ((List.range n).map fun i =>
        let v := ffma (f.decode (laneGet w (x.getV (fA b)) i)) (f.decode (laneGet w (x.getV (fB b)) i))
          (f.decode (laneGet w (x.getV (fC b)) i))
        let r := f.round rd.1 x.ftz (rd.2.1 i) v.1
        (r.1, v.2 ||| r.2)))) ∧
    (Issues s t c 0x10 0x0B o → exec (.vecVcmp t o) s = .next (retire s t c fun x =>
      x.putLanes (fD b) w ((List.range n).map fun i =>
        let p := laneGet w (x.getV (fA b)) i
        let q := laneGet w (x.getV (fB b)) i
        let r := if typeFloat ty then fcmp (xOp (fX b)) (f.decode p) (f.decode q)
          else (icmp (xOp (fX b)) (laneInt ty p) (laneInt ty q), 0)
        (if r.1 then 2 ^ w - 1 else 0, r.2)))) ∧
    (Issues s t c 0x10 0x0D o → exec (.vecVcvt t o) s = .next (retire s t c fun x =>
      let w2 := typeWidth (xT2 (fX b))
      let k := 2048 / max w w2
      let part := xPart (fX b)
      let rd := if typeFloat ty || typeFloat (xT2 (fX b)) then x.rounding (xRnd (fX b)) k
        else (.nearest, fun _ => 0, x)
      let rs := (List.range k).map fun i => cvtLane ty (xT2 (fX b)) rd.1 x.ftz (rd.2.1 i)
        (laneGet w (x.getV (fA b)) (if w < w2 then part * k + i else i))
      (rd.2.2.setV (fD b) (putBits (x.getV (fD b)) (if w2 < w then part * k * w2 else 0) (k * w2)
        (packNat w2 (rs.map (·.1))))).raise (flAll (rs.map (·.2))))) ∧
    (Issues s t c 0x10 0x0E o → exec (.vecVfn t o) s = .next (retire s t c fun x =>
      x.putLanes (fD b) 32 ((lanesOf 32 (x.getV (fA b))).map (vfnLane (xT2 (fX b)) x.ftz)))) ∧
    (Issues s t c 0x10 0x0F o → typeFloat ty = false → exec (.vecVred t o) s = .next (retire s t c fun x =>
      let is := (lanesOf w (x.getV (fA b))).map (laneInt ty)
      x.putLanes (fD b) w [(((if xOp (fX b) = 0 then is.foldl (· + ·) 0 else if xOp (fX b) = 1
        then is.foldl max (is.headD 0) else is.foldl min (is.headD 0)) % (2 ^ w : Int)).toNat, 0)])) ∧
    (Issues s t c 0x10 0x0F o → typeFloat ty = true → xOp (fX b) = 0 → exec (.vecVred t o) s =
      .next (retire s t c fun x =>
        let rd := x.rounding (xRnd (fX b)) (n - 1)
        rd.2.2.putLanes (fD b) w
          [redSum f rd.1 x.ftz rd.2.1 (Nat.log2 n) 0 (lanesOf w (x.getV (fA b)))])) ∧
    (Issues s t c 0x10 0x0F o → typeFloat ty = true → xOp (fX b) ≠ 0 → exec (.vecVred t o) s =
      .next (retire s t c fun x =>
        x.putLanes (fD b) w [redMax f (decide (xOp (fX b) = 1)) x.ftz (lanesOf w (x.getV (fA b)))])) ∧
    (Issues s t c 0x10 0x14 o → exec (.vecVmxq t o) s = .next (retire s t c fun x =>
      let code := xT2 (fX b)
      let e := elemBits code
      let rd := x.rounding (xRnd (fX b)) 64
      let vs := (lanesOf 32 (x.getV (fA b))).map f32.decode
      let q0 := quantBlock code rd.1 rd.2.1 (vs.take 32)
      let q1 := quantBlock code rd.1 (fun i => rd.2.1 (32 + i)) (vs.drop 32)
      ((rd.2.2.setV (fD b) (putBits (x.getV (fD b)) (64 * e * xPart (fX b)) (64 * e)
        (packNat e (q0.2.1 ++ q1.2.1)))).setS (fB b)
          (putScales (x.getS (fB b)) (xH (fX b)) q0.1 q1.1)).raise (q0.2.2 ||| q1.2.2))) ∧
    (Issues s t c 0x10 0x15 o → exec (.vecVmxd t o) s = .next (retire s t c fun x =>
      let code := xT2 (fX b)
      let e := elemBits code
      x.putLanes (fD b) 32 ((List.range 64).map fun k =>
        dequant code (byteOf (x.getS (fB b)) (2 * xH (fX b) + k / 32))
          ((x.getV (fA b)).toNat / 2 ^ (64 * e * xPart (fX b)) / 2 ^ (e * k) % 2 ^ e) x.ftz)))

/-- Matrix unit registers: weight loads, accumulator clears and moves, MMA (R91 to R94, R115, R116; Tables 4-9
to 4-12). An unlisted pairing or a broken HT2 pair writes no accumulator and sets invalid. -/
def Obligations.MatrixInstructions : Prop :=
  ∀ (t c : Nat) (o : Op) (s : State),
    let b := o.body
    let m := fX b
    let s1 := issued s t c
    let x := s1.ctx t c
    let imm := fImm b
    let ea := effAddr x (fA b) (bitsAt imm 0 23) 32
    (Issues s t c 0x20 0x00 o → x.winOk ea (wbufBytes (bitsAt imm 23 3)) = true →
      s1.firstBad (winAddr t x ea) (wbufBytes (bitsAt imm 23 3)) = none →
      exec (.matLdw t o) s = .next (
        let u := s1.fixRange (winAddr t x ea) (wbufBytes (bitsAt imm 23 3))
        retireOn s u t c fun y => y.setW (fD b) {
          tag := BitVec.ofNat 3 (bitsAt imm 23 3),
          data := BitVec.ofNat 32768 (leVal (u.readBytes (winAddr t x ea) (wbufBytes (bitsAt imm 23 3)))) })) ∧
    (Issues s t c 0x20 0x01 o → exec (.matZacc t o) s = .next (retire s t c fun y => y.setAcc (fD b) 0)) ∧
    (Issues s t c 0x20 0x02 o → exec (.matAccw t o) s = .next (retire s t c fun y =>
      y.setAcc (fD b) (BitVec.ofNat 1024 ((y.getV (fA b)).toNat / 2 ^ (1024 * m))))) ∧
    (Issues s t c 0x20 0x03 o → exec (.matAccr t o) s = .next (retire s t c fun y =>
      let r := y.accOut (fA b) (bitsAt m 0 2) (bitsAt m 4 2)
      let z := (r.2.2.2.setV (fD b) (putBits (y.getV (fD b)) (32 * r.2.1 * bitsAt m 2 2) (32 * r.2.1)
        (packNat r.2.1 r.1))).raise r.2.2.1
      if bitsAt m 6 1 = 1 then z.setAcc (fA b) 0 else z)) ∧
    (Issues s t c 0x20 0x04 o →
      let wt := (x.getW (fC b)).tag.toNat
      let af := bitsAt m 0 3
      mmaListed wt af = false ∨ (wt = 4 ∧ (fD b % 2 = 1 ∨ fC b % 2 = 1 ∨ (x.getW (fC b + 1)).tag ≠ 4)) →
      exec (.matMma t o) s = .next (moveOn s (s1.setCtx t c { x with flags := x.flags ||| 1 }) t c)) ∧
    (Issues s t c 0x20 0x04 o →
      let wt := (x.getW (fC b)).tag.toNat
      let af := bitsAt m 0 3
      let as := actElems (x.getV (fA b)) af (bitsAt m 3 3)
      let s0 := byteOf (x.getS (fB b)) (2 * bitsAt m 6 2)
      let s1' := byteOf (x.getS (fB b)) (2 * bitsAt m 6 2 + 1)
      (mmaListed wt af = true → wt ≠ 4 →
        exec (.matMma t o) s = .next (moveOn s (s1.setCtx t c (x.mmaInto (fD b) (fC b) af as s0 s1')) t c)) ∧
      (mmaListed wt af = true → wt = 4 → fD b % 2 = 0 → fC b % 2 = 0 → (x.getW (fC b + 1)).tag = 4 →
        exec (.matMma t o) s = .next (moveOn s (s1.setCtx t c
          ((x.mmaInto (fD b) (fC b) af as s0 s1').mmaInto (fD b + 1) (fC b + 1) af as s0 s1')) t c))) ∧
    (Issues s t c 0x20 0x05 o →
      let r := x.accOut (fD b) (bitsAt imm 23 2) (bitsAt imm 25 2)
      let bytes := leBytes (4 * r.2.1) (packNat r.2.1 r.1)
      x.winOk ea bytes.length = true → s1.mergeBad [(winAddr t x ea, bytes)] = none →
      exec (.matAccst t o) s = .next (
        let u := (s1.writeRange (winAddr t x ea) bytes 0).1
        let z := r.2.2.2.raise r.2.2.1
        moveOn s (u.setCtx t c (if bitsAt imm 27 1 = 1 then z.setAcc (fD b) 0 else z)) t c))

/-- Store loads (R73, R95, R127, R128; Table 4-13). The effective address is `aa + off` modulo 2^48 with the bits
below the access size ignored; with the whole access in the window and no uncorrectable word the errors met are
corrected and counted and the register takes the little-endian bytes; outside the window the context stops with fault 2. -/
def Obligations.StoreLoads : Prop :=
  ∀ (t c : Nat) (o : Op) (s : State),
    let s1 := issued s t c
    let x := s1.ctx t c
    let b := o.body
    let ok := fun (ea n : Nat) => x.winOk ea n = true ∧ s1.firstBad (winAddr t x ea) n = none
    -- the state and the value that a read of `n` bytes leaves
    let red := fun (n : Nat) => s1.fixRange (winAddr t x (effAddr x (fA b) (fImm b) n)) n
    let val := fun (n : Nat) =>
      BitVec.ofNat (8 * n) (leVal ((red n).readBytes (winAddr t x (effAddr x (fA b) (fImm b) n)) n))
    let vec := fun (ea : Nat) =>
      BitVec.ofNat 2048 (leVal ((s1.fixRange (winAddr t x ea) 256).readBytes (winAddr t x ea) 256))
    (Issues s t c 0x28 0x00 o → ok (effAddr x (fA b) (fImm b) 32) 256 → exec (.stoLdv t o) s = .next
      (let ea := effAddr x (fA b) (fImm b) 32
       retireOn s (s1.fixRange (winAddr t x ea) 256) t c fun y => y.setV (fD b) (vec ea))) ∧
    (Issues s t c 0x28 0x02 o → ok (effAddr x (fA b) 0 32) 256 → exec (.stoLdvi t o) s = .next
      (let ea := effAddr x (fA b) 0 32
       retireOn s (s1.fixRange (winAddr t x ea) 256) t c fun y =>
        let z := y.setV (fD b) (vec ea)
        z.setA (fA b) (z.getA (fA b) + BitVec.ofNat 48 (fImm b)))) ∧
    (Issues s t c 0x28 0x08 o → ok (effAddr x (fA b) (fImm b) 1) 1 → exec (.stoLd8 t o) s = .next
      (retireOn s (red 1) t c fun y => y.setS (fD b) ((val 1).signExtend 64))) ∧
    (Issues s t c 0x28 0x09 o → ok (effAddr x (fA b) (fImm b) 1) 1 → exec (.stoLd8u t o) s = .next
      (retireOn s (red 1) t c fun y => y.setS (fD b) ((val 1).setWidth 64))) ∧
    (Issues s t c 0x28 0x0A o → ok (effAddr x (fA b) (fImm b) 2) 2 → exec (.stoLd16 t o) s = .next
      (retireOn s (red 2) t c fun y => y.setS (fD b) ((val 2).signExtend 64))) ∧
    (Issues s t c 0x28 0x0B o → ok (effAddr x (fA b) (fImm b) 2) 2 → exec (.stoLd16u t o) s = .next
      (retireOn s (red 2) t c fun y => y.setS (fD b) ((val 2).setWidth 64))) ∧
    (Issues s t c 0x28 0x0C o → ok (effAddr x (fA b) (fImm b) 4) 4 → exec (.stoLd32 t o) s = .next
      (retireOn s (red 4) t c fun y => y.setS (fD b) ((val 4).signExtend 64))) ∧
    (Issues s t c 0x28 0x0D o → ok (effAddr x (fA b) (fImm b) 4) 4 → exec (.stoLd32u t o) s = .next
      (retireOn s (red 4) t c fun y => y.setS (fD b) ((val 4).setWidth 64))) ∧
    (Issues s t c 0x28 0x0E o → ok (effAddr x (fA b) (fImm b) 8) 8 → exec (.stoLd64 t o) s = .next
      (retireOn s (red 8) t c fun y => y.setS (fD b) ((val 8).setWidth 64))) ∧
    (Issues s t c 0x28 0x05 o →
      let at_ := fun i => ((x.getA (fA b)).toNat + laneGet 32 (x.getV (fB b)) i) % 2 ^ 48 / 4 * 4
      (∀ i < 64, x.winOk (at_ i) 4 = true) → (∀ i < 64, s1.unitBad (unitOf (winAddr t x (at_ i))) = false) →
      exec (.stoGath t o) s = .next (
        let u := (List.range 64).foldl (fun (v : State) i => v.fixRange (winAddr t x (at_ i)) 4) s1
        retireOn s u t c fun y => y.setV (fD b)
          (packLanes 32 ((List.range 64).map fun i => leVal (u.readBytes (winAddr t x (at_ i)) 4))))) ∧
    (Issues s t c 0x28 0x0E o → x.winOk (effAddr x (fA b) (fImm b) 8) 8 = false →
      exec (.stoLd64 t o) s = .next (faulted s t c 2))

/-- Store writes (R73, R95, R128; Table 4-13). With the whole access in the window, and no uncorrectable word
written in part, the bytes of the source are stored at the effective address. -/
def Obligations.StoreWrites : Prop :=
  ∀ (t c : Nat) (o : Op) (s : State),
    let s1 := issued s t c
    let x := s1.ctx t c
    let b := o.body
    let ok := fun (ea : Nat) (l : List Byte) => x.winOk ea l.length = true ∧ s1.mergeBad [(winAddr t x ea, l)] = none
    let put := fun (ea : Nat) (l : List Byte) => (s1.writeRange (winAddr t x ea) l 0).1
    let low := fun (n : Nat) => leBytes n (x.getS (fD b)).toNat
    let ea := fun (n : Nat) => effAddr x (fA b) (fImm b) n
    (Issues s t c 0x28 0x01 o → ok (ea 32) (vecBytes (x.getV (fD b))) →
      exec (.stoStv t o) s = .next (moveOn s (put (ea 32) (vecBytes (x.getV (fD b)))) t c)) ∧
    (Issues s t c 0x28 0x03 o → ok (effAddr x (fA b) 0 32) (vecBytes (x.getV (fD b))) →
      exec (.stoStvi t o) s = .next (moveOn s ((put (effAddr x (fA b) 0 32) (vecBytes (x.getV (fD b)))).updCtx t c
        fun y => y.setA (fA b) (y.getA (fA b) + BitVec.ofNat 48 (fImm b))) t c)) ∧
    (Issues s t c 0x28 0x10 o → ok (ea 1) (low 1) → exec (.stoSt8 t o) s = .next (moveOn s (put (ea 1) (low 1)) t c)) ∧
    (Issues s t c 0x28 0x11 o → ok (ea 2) (low 2) → exec (.stoSt16 t o) s = .next (moveOn s (put (ea 2) (low 2)) t c)) ∧
    (Issues s t c 0x28 0x12 o → ok (ea 4) (low 4) → exec (.stoSt32 t o) s = .next (moveOn s (put (ea 4) (low 4)) t c)) ∧
    (Issues s t c 0x28 0x13 o → ok (ea 8) (low 8) → exec (.stoSt64 t o) s = .next (moveOn s (put (ea 8) (low 8)) t c)) ∧
    (Issues s t c 0x28 0x06 o →
      let ws := (List.range 64).map fun i =>
        (winAddr t x (((x.getA (fA b)).toNat + laneGet 32 (x.getV (fB b)) i) % 2 ^ 48 / 4 * 4),
          leBytes 4 (laneGet 32 (x.getV (fD b)) i))
      (∀ i < 64, x.winOk (((x.getA (fA b)).toNat + laneGet 32 (x.getV (fB b)) i) % 2 ^ 48 / 4 * 4) 4 = true) →
      s1.mergeBad ws = none →
      exec (.stoScat t o) s = .next (moveOn s
        (ws.foldl (fun (u : State) w => (u.writeRange w.1 w.2 0).1) s1) t c)) ∧
    (Issues s t c 0x28 0x04 o →
      let e := effAddr x (fA b) (fX b) 32
      let ws := maskedWrites e (x.getV (fD b)) (x.getV (fB b))
      x.winOk e 256 = true → (∀ w ∈ ws, x.winOk w.1 w.2.length = true) →
      s1.mergeBad (ws.map fun w => (winAddr t x w.1, w.2)) = none →
      exec (.stoStvm t o) s = .next (moveOn s ((ws.map fun w => (winAddr t x w.1, w.2)).foldl
        (fun (u : State) w => (u.writeRange w.1 w.2 0).1) s1) t c)) ∧
    (Issues s t c 0x28 0x13 o → x.winOk (ea 8) 8 = false →
      exec (.stoSt64 t o) s = .next (faulted s t c 2))

/-- MEM descriptors (R97, R146; Table 4-14): a legal transfer puts its tag in flight, a length of 0 completes at
once with status 0, and a length over 4 MiB or an address out of reach completes at once with status 1;
WAIT, TEST and STAT report on a tag. The bytes of a PUT are those of its window at issue.
MEM_TRANSFER_COMPLETE (R71, R131, R147): on a powered die, once no earlier transfer of the context shares a line
with it, a transfer moves its bytes and its tag completes; a GET that meets no uncorrectable unit leaves the
memory's bytes in the window with status 0; one whose stacks have gone to self-refresh ends with status 1. -/
def Obligations.MemTransfers : Prop :=
  (∀ (t c : Nat) (o : Op) (s : State),
     let s1 := issued s t c
     let x := s1.ctx t c
     let b := o.body
     let sl := x.getS (fC b)
     let len := sl.toNat % 2 ^ 32 / 32 * 32
     let xf := fun (k : XferKind) (rows stride : Nat) => ({
       kind := k, aw := (x.getA (fA b)).toNat / 32 * 32, am := (x.getA (fB b)).toNat / 32 * 32, len := len,
       rows := rows, stride := stride } : Xfer)
     let strd := sl.toNat / 2 ^ 32 / 32 * 32
     let fly := fun (u : State) (z : Xfer) => moveOn s (u.updCtx t c fun y =>
       { y.setMem (fD b) { y.mem (fD b) with xfer := some z, status := 0 } with memOrder := y.memOrder ++ [fD b] }) t c
     let free := (x.mem (fD b)).xfer.isSome = false
     let fits := fun (z : Xfer) => 0 < len ∧ len ≤ 0x400000 ∧ x.winOk z.aw (len * z.rows) = true ∧
       z.rowAddrs.all (fun a => s1.reach (partOfTile t) a len) = true
     let good := fun (z : Xfer) => s1.firstBad (winAddr t x z.aw) (len * z.rows) = none
     (Issues s t c 0x2C 0x00 o → free → fits (xf .get 1 0) →
       exec (.memGet t o) s = .next (fly s1 (xf .get 1 0))) ∧
     (Issues s t c 0x2C 0x01 o → free → fits (xf .put 1 0) → good (xf .put 1 0) →
       exec (.memPut t o) s = .next (
         let u := s1.fixRange (winAddr t x (xf .put 1 0).aw) (len * 1)
         fly u { xf .put 1 0 with bytes := u.readBytes (winAddr t x (xf .put 1 0).aw) (len * 1) })) ∧
     (Issues s t c 0x2C 0x02 o → free → fits (xf .gets (fX b) strd) →
       exec (.memGets t o) s = .next (fly s1 (xf .gets (fX b) strd))) ∧
     (Issues s t c 0x2C 0x03 o → free → fits (xf .puts (fX b) strd) → good (xf .puts (fX b) strd) →
       exec (.memPuts t o) s = .next (
         let u := s1.fixRange (winAddr t x (xf .puts (fX b) strd).aw) (len * fX b)
         fly u { xf .puts (fX b) strd with bytes := u.readBytes (winAddr t x (xf .puts (fX b) strd).aw) (len * fX b) })) ∧
     (Issues s t c 0x2C 0x00 o → free → len = 0 →
       exec (.memGet t o) s = .next (moveOn s (s1.memDone t c (fD b) 0) t c)) ∧
     (Issues s t c 0x2C 0x00 o → free → 0x400000 < len →
       exec (.memGet t o) s = .next (moveOn s (s1.memDone t c (fD b) 1) t c)) ∧
     (Issues s t c 0x2C 0x00 o → (x.mem (fD b)).xfer.isSome = true →
       exec (.memGet t o) s = .next (starved s t c 4)) ∧
     (Issues s t c 0x2C 0x04 o → free → exec (.memWait t o) s = .next (moveOn s s1 t c)) ∧
     (Issues s t c 0x2C 0x04 o → (x.mem (fD b)).xfer.isSome = true →
       exec (.memWait t o) s = .next (starved s t c 4)) ∧
     (Issues s t c 0x2C 0x05 o → exec (.memTest t o) s = .next (retire s t c fun y =>
       y.setP (fD b) (!(y.mem (fA b)).xfer.isSome))) ∧
     (Issues s t c 0x2C 0x06 o → exec (.memStat t o) s = .next (retire s t c fun y =>
       y.setS (fD b) (if (y.mem (fA b)).xfer.isSome then 256 else (y.mem (fA b)).status.setWidth 64)))) ∧
  (∀ (t c tag : Nat) (s : State) (xf : Xfer),
     ((s.ctx t c).mem tag).xfer = some xf → s.dieOn (dieOfTile t) = true → c < 4 →
     (s.ctx t c).mustWait tag xf = false →
     (s.xferAsleep xf = true → exec (.memTransferComplete t c tag) s = .next (s.memDone t c tag 1)) ∧
     (s.xferAsleep xf = false → xf.kind.writes = true →
       exec (.memTransferComplete t c tag) s = .next
         ((s.writeRows xf.len xf.bytes xf.rowAddrs).1.memDone t c tag
           (if (s.writeRows xf.len xf.bytes xf.rowAddrs).2 then xf.worst else 2))) ∧
     (s.xferAsleep xf = false → xf.kind.writes = false → xf.rows = 1 → s.firstBad xf.am xf.len = none →
       exec (.memTransferComplete t c tag) s = .next (
         let u := s.fixRange xf.am xf.len
         (u.writeRange (winAddr t (s.ctx t c) xf.aw) (u.readBytes xf.am xf.len) 0).1.memDone t c tag 0)))

/-- Stream channels (R45 to R48, R98; Table 4-15). SEND spends a credit and hands the entry over, RECV takes the
oldest entry and frees its credit, FWD does both together; an entry or a credit that is wanting makes the
context wait with cause 1 or 2, an unusable channel is fault 3. Entries and credits of other modules (R45,
R46, R48): an entry in its turn is written into the receive buffer and those that came early follow it; one
that came early waits; credits add to the sender's; what names another job is dropped and counted.
CH_CREDIT_SEND returns up to 8 credits in one packet, once 8 are owed or the oldest has waited 20 ticks. -/
def Obligations.StreamChannels : Prop :=
  (∀ (t c : Nat) (o : Op) (s : State),
     let s1 := issued s t c
     let x := s1.ctx t c
     let b := o.body
     let out := x.outEp (fD b)
     let inp := x.inEp (fA b)
     let red := s1.fixRange (inp.addr t inp.head) 256
     let entry := vecOfBytes (red.readBytes (inp.addr t inp.head) 256)
     (Issues s t c 0x30 0x00 o → out.far.isNone = false → out.closed = false → out.credits ≠ 0 →
       exec (.strSend t o) s = .next
         (moveOn s (s1.chSend t c (fD b) (x.getV (fA b)) (decide (fX b % 2 = 1))) t c)) ∧
     (Issues s t c 0x30 0x00 o → out.far.isNone = false → out.closed = false → out.credits = 0 →
       exec (.strSend t o) s = .next (starved s t c 2)) ∧
     (Issues s t c 0x30 0x00 o → out.far.isNone = true ∨ out.closed = true →
       exec (.strSend t o) s = .next (faulted s t c 3)) ∧
     (Issues s t c 0x30 0x01 o → inp.far.isNone = false → inp.lasts ≠ [] →
       s1.firstBad (inp.addr t inp.head) 256 = none →
       exec (.strRecv t o) s = .next
         (moveOn s ((red.updCtx t c fun y => y.setV (fD b) entry).chTake t c (fA b)) t c)) ∧
     (Issues s t c 0x30 0x01 o → inp.far.isNone = false → inp.ended = false → inp.lasts = [] →
       exec (.strRecv t o) s = .next (starved s t c 1)) ∧
     (Issues s t c 0x30 0x01 o → inp.lasts = [] → inp.ended = true →
       exec (.strRecv t o) s = .next (faulted s t c 3)) ∧
     (Issues s t c 0x30 0x02 o → inp.far.isNone = false → inp.lasts ≠ [] → out.far.isNone = false →
       out.closed = false → out.credits ≠ 0 → s1.firstBad (inp.addr t inp.head) 256 = none →
       exec (.strFwd t o) s = .next
         (moveOn s ((red.chTake t c (fA b)).chSend t c (fD b) entry (nth inp.lasts 0 false)) t c)) ∧
     (Issues s t c 0x30 0x03 o → inp.far.isNone = false → exec (.strEos t o) s = .next
       (retire s t c fun y => y.setP (fD b) inp.ended)) ∧
     (Issues s t c 0x30 0x04 o → inp.far.isNone = false → exec (.strAvail t o) s = .next
       (retire s t c fun y => y.setP (fD b) (!inp.lasts.isEmpty))) ∧
     (Issues s t c 0x30 0x05 o → (x.outEp (fA b)).far.isNone = false → exec (.strCred t o) s = .next
       (retire s t c fun y => y.setP (fD b) (decide (0 < (x.outEp (fA b)).credits))))) ∧
  (∀ (fd : Nat) (p : Packet) (s : State),
     let t := p.dstTile.toNat
     let c := p.ctx.toNat
     let ep := p.ep.toNat
     let x := s.ctx t c
     let e := x.inEp ep
     let mine := x.mode ≠ .empty ∧ x.jobId = p.jobId ∧ x.jobGen = p.jobGen
     (Arrives s 0x01 fd p (some (t / 1200)) → mine → e.far.isNone = false →
       e.lasts.length + e.early.length < e.depth → p.ident = e.nextSeq →
       exec (.chEntry fd p) s = .next
         ((s.chWrite t c ep (vecOfBytes p.payload) (p.arg.getLsbD 0)).chDrain t c ep 64)) ∧
     (Arrives s 0x01 fd p (some (t / 1200)) → mine → e.far.isNone = false →
       e.lasts.length + e.early.length < e.depth → p.ident ≠ e.nextSeq →
       e.early.any (fun a => decide (a.1 = p.ident)) = false →
       exec (.chEntry fd p) s = .next (s.updCtx t c fun y => y.setIn ep
         { e with early := e.early ++ [(p.ident, vecOfBytes p.payload, p.arg.getLsbD 0)] })) ∧
     (Arrives s 0x01 fd p (some (t / 1200)) → ¬ mine → exec (.chEntry fd p) s = .next (s.chDropped t)) ∧
     (Arrives s 0x02 fd p (some (t / 1200)) → mine → (x.outEp ep).far.isNone = false →
       exec (.chCredit fd p) s = .next (s.updCtx t c fun y =>
         y.setOut ep { x.outEp ep with credits := (x.outEp ep).credits + p.arg.toNat % 16 })) ∧
     (∀ (t' c' ep' t1 c1 ep1 : Nat) (co : Coord),
       let y := s.ctx t' c'
       let i := y.inEp ep'
       i.far = some (.away co t1 c1 ep1) → s.dieOn (dieOfTile t') = true →
       8 ≤ i.owed.length ∨ i.owed.head?.any (fun f => s.passed f 20) = true →
       exec (.chCreditSend t' c' ep') s = .next
         ((s.updCtx t' c' fun z => z.setIn ep' { i with owed := i.owed.drop (min 8 i.owed.length) }).sendPacket (fdOfTile t') {
           dst := co, src := 0, kind := 0x02, vc := 1, det := s.jobDet y.jobId, jobId := y.jobId, jobGen := y.jobGen,
           dstTile := BitVec.ofNat 16 t1, srcTile := BitVec.ofNat 16 t', ep := BitVec.ofNat 3 ep1,
           ctx := BitVec.ofNat 2 c1, b23 := chB23 c' ep', arg := BitVec.ofNat 64 (min 8 i.owed.length) })))

/-- FAB transfers at their source (R99, R173, R174, R182; Tables 4-16 and 4-17). A legal PUT or GET puts its tag
in flight and its packets leave; WAIT, TEST and STAT report on a tag; an answer closes its packet; a
transfer whose packets are all answered completes with the worst status met. FAB packets at their
destination and back at their source (R146, R173, R181, R182): a PUT is checked against the address filter,
written and acknowledged; a GET_REQ is answered with the bytes; PUT_ACK and GET_DATA close their packet; one
that no tag waits for is dropped as late. -/
def Obligations.FabTransfers : Prop :=
  (∀ (t c : Nat) (o : Op) (s : State),
     let s1 := issued s t c
     let b := o.body
     let tag := fD b
     let free := ((s1.ctx t c).fab tag).xfer.isSome = false ∧ s1.tagHeld ((s1.ctx t c).fab tag) = false
     -- the tag is freed of its last reduction and of its hold first
     let s2 := s1.updCtx t c fun x =>
       (x.redWaited tag).setFab tag { (x.redWaited tag).fab tag with holdFrom := none }
     let x := s2.ctx t c
     let sl := x.getS (fC b)
     let len := sl.toNat % 2 ^ 32 / 32 * 32
     let aw := (x.getA (fA b)).toNat / 32 * 32
     let xf := fun (k : XferKind) (co : Coord) (bs : List Byte) => ({
       kind := k, aw := aw, am := (x.getA (fB b)).toNat / 32 * 32, len := len, peer := co, bytes := bs,
       open_ := List.range ((len + 4095) / 4096) } : Xfer)
     let fly := fun (u : State) (z : Xfer) => u.updCtx t c fun y =>
       y.setFab tag { y.fab tag with xfer := some { z with bytes := [] }, status := 0 }
     let fits := 0 < len ∧ len ≤ 0x400000 ∧ x.winOk aw len = true
     (∀ co, Issues s t c 0x34 0x00 o → free → fits →
       s2.peerOf t x (sl.toNat / 2 ^ 32 % 65536) = some co → s2.firstBad (winAddr t x aw) len = none →
       exec (.fabPut t o) s = .next (
         let u := s2.fixRange (winAddr t x aw) len
         let z := xf .fabPut co (u.readBytes (winAddr t x aw) len)
         moveOn s ((fly u z).sendXfer t c tag x z 0x03) t c)) ∧
     (∀ co, Issues s t c 0x34 0x01 o → free → fits → s2.peerOf t x (sl.toNat / 2 ^ 32 % 65536) = some co →
       exec (.fabGet t o) s = .next (moveOn s ((fly s2 (xf .fabGet co [])).sendXfer t c tag x (xf .fabGet co []) 0x05) t c)) ∧
     (Issues s t c 0x34 0x04 o → ((s1.ctx t c).fab tag).xfer.isSome = false →
       exec (.fabWait t o) s = .next (retire s t c fun y => y.redWaited tag)) ∧
     (Issues s t c 0x34 0x04 o → ((s1.ctx t c).fab tag).xfer.isSome = true →
       exec (.fabWait t o) s = .next (starved s t c 5)) ∧
     (Issues s t c 0x34 0x05 o → exec (.fabTest t o) s = .next (retire s t c fun y =>
       y.setP (fD b) (!(y.fab (fA b)).xfer.isSome))) ∧
     (Issues s t c 0x34 0x06 o → exec (.fabStat t o) s = .next (retire s t c fun y =>
       y.setS (fD b) (if (y.fab (fA b)).xfer.isSome then 256 else (y.fab (fA b)).status.setWidth 64))) ∧
     (∀ (g : Nat) (z : Xfer), ((s.ctx t c).fab g).xfer = some z → s.dieOn (dieOfTile t) = true → c < 4 →
       z.open_ = [] → z.kind ≠ .fabRed →
       exec (.fabTransferComplete t c g) s = .next (s.fabDone t c g z.worst))) ∧
  (∀ (fd : Nat) (p : Packet) (s : State),
     let a := p.arg.toNat % 2 ^ 48 / 32 * 32
     let t := p.dstTile.toNat
     let c := p.ctx.toNat
     let tag := p.b23.toNat % 16
     let i := p.ident.toNat
     let n := p.payload.length
     (Arrives s 0x03 fd p (s.partOfAddr a) → s.jobReach p.jobId a n = true →
       exec (.put fd p) s = .next ((s.writeXfer a p.payload).1.sendPacket fd
         (answerTo p 0x04 (if (s.writeXfer a p.payload).2 then 0 else 2) []))) ∧
     (Arrives s 0x03 fd p (s.partOfAddr a) → s.jobReach p.jobId a n = false →
       exec (.put fd p) s = .next (s.sendPacket fd (answerTo p 0x04 1 []))) ∧
     (Arrives s 0x05 fd p (s.partOfAddr a) → s.jobReach p.jobId a p.len.toNat = true →
       s.firstBad a p.len.toNat = none →
       exec (.getReq fd p) s = .next ((s.fixRange a p.len.toNat).sendPacket fd
         (answerTo p 0x06 0 ((s.fixRange a p.len.toNat).readBytes a p.len.toNat)))) ∧
     (Arrives s 0x05 fd p (s.partOfAddr a) → s.jobReach p.jobId a p.len.toNat = false →
       exec (.getReq fd p) s = .next (s.sendPacket fd (answerTo p 0x06 1 []))) ∧
     (Arrives s 0x04 fd p (some (t / 1200)) → s.awaited t c tag i .fabPut p.jobId p.jobGen = true →
       exec (.putAck fd p) s = .next (s.updCtx t c fun x => x.answered tag i (p.arg.extractLsb' 48 8))) ∧
     (Arrives s 0x04 fd p (some (t / 1200)) → s.awaited t c tag i .fabPut p.jobId p.jobGen = false →
       exec (.putAck fd p) s = .next (s.countDrop fd 9)) ∧
     (∀ xf, Arrives s 0x06 fd p (some (t / 1200)) → ((s.ctx t c).fab tag).xfer = some xf →
       s.awaited t c tag i .fabGet p.jobId p.jobGen = true → p.arg.extractLsb' 48 8 = (0 : BitVec 8) →
       exec (.getData fd p) s = .next ((s.writeRange (winAddr t (s.ctx t c) (xf.aw + i * 4096))
         (sliceB p.payload 0 (min 4096 (xf.len - i * 4096))) 0).1.updCtx t c fun x => x.answered tag i 0)))

/-- System registers of a context (R40, R43, R69, R71, R102, R121; Table 4-19). -/
def Obligations.SystemInstructions : Prop :=
  ∀ (t c : Nat) (o : Op) (s : State),
    let s1 := issued s t c
    let b := o.body
    let put := fun (v : Ctx → Word) => retire s t c fun x => x.setS (fD b) (v x)
    (∀ j, Issues s t c 0x3C 0x00 o → (s1.ctx t c).jobId = j →
      exec (.sysRow t o) s = .next (moveOn s (s1.updCtx t c fun x =>
        x.setS (fD b) (match s1.slotOfJob j with | some k => (s1.job k).row | none => 0)) t c)) ∧
    (Issues s t c 0x3C 0x01 o → exec (.sysGetflags t o) s = .next (put fun x => x.flags.setWidth 64)) ∧
    (Issues s t c 0x3C 0x02 o → exec (.sysClrflags t o) s = .next (retire s t c fun x =>
      { x with flags := x.flags &&& ~~~ (BitVec.ofNat 5 (fImm b)) })) ∧
    (Issues s t c 0x3C 0x03 o → exec (.sysSetrm t o) s = .next (retire s t c fun x =>
      { x with rm := BitVec.ofNat 2 (fImm b) })) ∧
    (Issues s t c 0x3C 0x04 o → exec (.sysSetftz t o) s = .next (retire s t c fun x =>
      { x with ftz := decide (fImm b % 2 = 1) })) ∧
    (Issues s t c 0x3C 0x05 o → exec (.sysSeed t o) s = .next (retire s t c fun x =>
      if x.getS (fA b) = 0 then { x with flags := x.flags ||| 1 } else { x with gen := x.getS (fA b) })) ∧
    (Issues s t c 0x3C 0x06 o → exec (.sysGetseed t o) s = .next (put fun x => x.gen)) ∧
    (Issues s t c 0x3C 0x07 o → exec (.sysEvent t o) s = .next (moveOn s ((s1.updCtx t c fun x =>
      { x with heldEvents := x.heldEvents ++ [(BitVec.ofNat 16 (fImm b), x.getS (fA b), writeTags x.mems,
        writeTags x.fabs)] }).postEvents t c) t c)) ∧
    (Issues s t c 0x3C 0x08 o → exec (.sysTile t o) s = .next (put fun _ => BitVec.ofNat 64 (t + 65536 * c))) ∧
    (Issues s t c 0x3C 0x09 o → exec (.sysJob t o) s = .next (put fun x =>
      BitVec.ofNat 64 (x.jobId.toNat + 65536 * x.jobGen.toNat))) ∧
    (Issues s t c 0x3C 0x0A o → exec (.sysTime t o) s = .next (put fun _ => s1.tb)) ∧
    (Issues s t c 0x3C 0x0B o → exec (.sysBeats t o) s = .next (put fun x => x.beats)) ∧
    (Issues s t c 0x3C 0x0C o → exec (.sysGetrm t o) s = .next (put fun x =>
      BitVec.ofNat 64 (x.rm.toNat + (if x.ftz then 4 else 0))))

/-- Hurdle instructions (R50, R64, R66, R71; Table 4-18). An arrival that keeps the rules of R66 is recorded at
the current generation and counted, or held until the context's earlier writes are complete; a WAIT returns
once the generation arrived at has passed and else waits with cause 3; an arrival that breaks them is fault
4. A SYNC arrives and then waits. -/
def Obligations.HurdleInstructions : Prop :=
  ∀ (t c : Nat) (o : Op) (s : State),
    let s1 := issued s t c
    let x := s1.ctx t c
    let h : BitVec 12 := BitVec.ofNat 12 (fImm o.body)
    let legal := (s1.planOf t x h).isSome = true ∧ x.arrived.any (fun a => decide (a.1 = h.toNat)) = false
    let arrive := (s1.plainJoin t c h).arriveAt t c h (writeTags x.mems) (writeTags x.fabs)
    let synced := arrive.updCtx t c fun y => { y with inSync := true }
    let sync2 := fun (cause : BitVec 4) =>
      (synced.updCtx t c fun y => { y with mode := .waiting, waitCause := cause }).dispatch t
    (Issues s t c 0x38 0x00 o → legal → exec (.hurArrive t o) s = .next (moveOn s arrive t c)) ∧
    (Issues s t c 0x38 0x00 o → ¬ legal → exec (.hurArrive t o) s = .next (faulted s t c 4)) ∧
    (∀ g, Issues s t c 0x38 0x01 o → x.arrivedAt h = some g → s1.genNow t x h ≠ g →
      exec (.hurWait t o) s = .next (retire s t c fun y => { y with
        arrived := y.arrived.filter (fun a => decide (a.1 ≠ h.toNat)), inSync := false, lastHur := h, lastHurGen := g })) ∧
    (∀ g, Issues s t c 0x38 0x01 o → x.arrivedAt h = some g → s1.genNow t x h = g →
      exec (.hurWait t o) s = .next (starved s t c 3)) ∧
    (Issues s t c 0x38 0x01 o → x.arrivedAt h = none → exec (.hurWait t o) s = .next (faulted s t c 4)) ∧
    (∀ g, Issues s t c 0x38 0x02 o → x.inSync = false → legal → (synced.ctx t c).arrivedAt h = some g →
      synced.genNow t (synced.ctx t c) h = g → exec (.hurSync t o) s = .next (sync2 3)) ∧
    (∀ g, Issues s t c 0x38 0x02 o → x.inSync = false → legal → (synced.ctx t c).arrivedAt h = some g →
      synced.genNow t (synced.ctx t c) h ≠ g → exec (.hurSync t o) s = .next (moveOn s (synced.hurPassed t c h g) t c)) ∧
    (∀ g, Issues s t c 0x38 0x02 o → x.inSync = true → x.arrivedAt h = some g → s1.genNow t x h ≠ g →
      exec (.hurSync t o) s = .next (moveOn s (s1.hurPassed t c h g) t c)) ∧
    (Issues s t c 0x38 0x03 o → exec (.hurGen t o) s = .next (retire s t c fun y =>
      y.setS (fD o.body) ((s1.genNow t y h).setWidth 64)))

/-- The hurdle unit (R64 to R71, R174). A held arrival counts when the writes before it are complete; a die's
summed message counts at the current generation and is dropped as stale at another; a child's message counts
for the child, and one that comes before any image names the hurdle is held as early; a parent's release releases; a hurdle open for the limit is reported once; a release
held back by the reuse rule goes when the hold ends. Releasing a hurdle ends its generation: the next one
begins with no arrival and no child counted, and the row counter goes up by one exactly where the hurdle
commits (R64, R65, R69), in a state whose job table is canonical. -/
def Obligations.HurdleUnit : Prop :=
  (∀ (s : State),
     (∀ (t c : Nat) (h g : _) (ms fs : List Nat),
       (s.ctx t c).heldArr.find? (fun a => decide (a.1 = h)) = some (h, g, ms, fs) → s.dieOn (dieOfTile t) = true →
       c < 4 → ms = [] → fs = [] →
       exec (.arrivalWritesComplete t c h) s = .next ((s.updCtx t c fun x =>
         { x with heldArr := x.heldArr.filter (fun b => decide (b.1 ≠ h)) }).countArrival t (s.ctx t c) h g)) ∧
     (∀ (die : Nat) (m : ArrMsg) (ms : List ArrMsg) (j : Nat), (s.die die).arrMsgs = m :: ms → s.pwr.transit = true →
       die < 40 →
       let u := s.updDie die fun d => { d with arrMsgs := ms }
       u.slotOfJob m.jobId = some j → (u.job j).jobGen = m.jobGen →
       (((u.job j).hur m.hur).gen = m.hurGen → exec (.hurdleArrival die) s = .next (u.hurCount j m.hur m.count none)) ∧
       (((u.job j).hur m.hur).gen ≠ m.hurGen → exec (.hurdleArrival die) s = .next (u.stale_ j 1))) ∧
     (∀ (p : Packet) (j : Nat), Arrives s 0x09 0 p none → s.slotOfJob p.jobId = some j →
       ((s.job j).hur (p.ident.setWidth 12)).gen = p.arg.setWidth 8 →
       (s.slotRecs j (p.ident.setWidth 12) ≠ [] →
         exec (.hurArrivePacket p) s = .next (s.hurCount j (p.ident.setWidth 12) 0 (some p.src))) ∧
       (s.slotRecs j (p.ident.setWidth 12) = [] →
         exec (.hurArrivePacket p) s = .next ((s.updHur j (p.ident.setWidth 12) fun x =>
           { x with early := x.early + 1 }).hurCount j (p.ident.setWidth 12) 0 (some p.src)))) ∧
     (∀ (p : Packet) (j : Nat), Arrives s 0x0A 0 p none → s.slotOfJob p.jobId = some j →
       s.slotRecs j (p.ident.setWidth 12) ≠ [] → ((s.job j).hur (p.ident.setWidth 12)).gen = p.arg.setWidth 8 →
       exec (.hurReleasePacket p) s = .next (s.hurRelease j (p.ident.setWidth 12))) ∧
     (∀ (j : Nat) (h : BitVec 12) (t : Word), s.pwr.transit = true → j < 8 → (s.job j).valid = true →
       s.hurTimeout ≠ 0 → ((s.job j).hur h).timedOut = false → ((s.job j).hur h).openSince = some t →
       s.passed t s.hurTimeout.toNat = true → exec (.hurdleTimeout j h) s = .next (s.hurReport j h)) ∧
     (∀ ticks, s.pwr.transit = true → (∀ j < 8, (s.job j).valid = false) →
       exec (.hurTimeoutWrite ticks) s = .next { s with hurTimeout := ticks }) ∧
     (∀ (j : Nat) (h : BitVec 12), s.pwr.transit = true → j < 8 → (s.job j).valid = true →
       ((s.job j).hur h).complete = true → hurParent (s.slotRecs j h) = none →
       hurFull (s.slotRecs j h) ((s.job j).hur h) = true → s.releaseHeld ((s.job j).hur h) = false →
       exec (.releaseHoldEnd j h) s = .next (s.hurRelease j h))) ∧
  (∀ (s : State) (j : Nat) (h : BitVec 12), tabWf (fun _ => ({} : Job)) s.jobs = true →
     tabWf (fun _ => ({} : Hur)) (s.job j).hurs = true →
     (((s.hurRelease j h).job j).hur h).gen = ((s.job j).hur h).gen + 1 ∧
     (((s.hurRelease j h).job j).hur h).local_ = 0 ∧ (((s.hurRelease j h).job j).hur h).kids = [] ∧
     ((s.hurRelease j h).job j).row =
       (if (s.slotRecs j h).any (fun r => r.2.commit) then (s.job j).row + 1 else (s.job j).row))

/-- In-fabric reduction (R100, R183 to R185): FAB.RED joins with the window's bytes, puts its tag in flight and
arrives at its hurdle; a chunk whose contributions are all present is combined in the order of R183 and goes
down from the root or up to the parent; packets of the engines above and below join and land, a result that no
member waits for counting as late (R173). The layout of a reduction packet's arg is the model's (log entry 20). -/
def Obligations.Reductions : Prop :=
  ∀ (s : State),
    (∀ (t c : Nat) (o : Op) (j : Nat),
      let s1 := issued s t c
      let b := o.body
      let tag := fD b
      let s2 := s1.updCtx t c fun x =>
        (x.redWaited tag).setFab tag { (x.redWaited tag).fab tag with holdFrom := none }
      let x := s2.ctx t c
      let h : BitVec 12 := BitVec.ofNat 12 (fX b)
      let len := (x.getS (fC b)).toNat % 2 ^ 32 / 256 * 256
      let aw := (x.getA (fA b)).toNat / 32 * 32
      let ad := (x.getA (fB b)).toNat / 32 * 32
      let g := ((s2.job j).hur h).gen
      let u := s2.fixRange (winAddr t x aw) len
      let bytes := u.readBytes (winAddr t x aw) len
      Issues s t c 0x34 0x02 o → ((s1.ctx t c).fab tag).xfer.isSome = false →
      s1.tagHeld ((s1.ctx t c).fab tag) = false → s2.badArrival t x h = false →
      (s2.planOf t x h).any (fun r => decide (r.level = 2)) = true → len ≤ 0x100000 →
      (s2.imageOf t x).any (fun i => i.flags.getLsbD 0) = true → x.winOk aw len = true → x.winOk ad len = true →
      s2.slotOfJob x.jobId = some j → s2.firstBad (winAddr t x aw) len = none →
      exec (.fabRed t o) s = .next (moveOn s ((((u.updCtx t c fun y => y.setFab tag ({ y.fab tag with
        xfer := some ({ kind := .fabRed, aw := aw, am := ad, len := len, hur := h, gen := g,
                        open_ := List.range (max 1 ((len + 4095) / 4096)) } : Xfer),
        status := 0, redHur := some h } : Tag)).redJoin j h g {
        tile := t, ctx := c, child := none, op := BitVec.ofNat 2 (bitsAt (fX b) 12 2),
        f := BitVec.ofNat 1 (bitsAt (fX b) 14 1), len := len, data := bytes })).arriveAt t c h
          (writeTags x.mems) (writeTags x.fabs)) t c)) ∧
    (∀ (j : Nat) (h : BitVec 12) (chunk key : Nat) (r : Red) (x : Contrib) (xs : List Contrib), s.pwr.transit = true →
      (s.job j).reds.find? (fun e => decide (e.1 / 256 = h.toNat) && chunkReady (s.slotRecs j h) e.2 chunk) =
        some (key, r) → r.contribs = x :: xs →
      let g : Byte := BitVec.ofNat 8 key
      let es := chunkValue (s.slotRecs j h) r x.op x.f chunk
      let u := s.updRed j key fun e => { e with
        chunks := tabSet (fun _ => none) e.chunks chunk (some (redCarry x.op x.f es)) }
      let n := if x.op = 0 ∧ x.f = 1 then 2 else 1
      let part := (redCarry x.op x.f es).length / n
      (hurParent (s.slotRecs j h) = none →
        exec (.reductionChunkCombine j h chunk) s = .next
          ((u.redLand j h g chunk (redFinal x.op x.f es)).redDownTo j h g chunk x (redFinal x.op x.f es))) ∧
      (∀ co, hurParent (s.slotRecs j h) = some co →
        exec (.reductionChunkCombine j h chunk) s = .next ((List.range n).foldl (fun (v : State) i =>
          v.redSend j 0x07 co h (redArg g x.op x.f (n * chunk + i) x.len 0)
            (((redCarry x.op x.f es).drop (i * part)).take part)) u))) ∧
    (∀ (fd : Nat) (p : Packet) (j : Nat), Arrives s 0x07 fd p none → s.slotOfJob p.jobId = some j →
      let h : BitVec 12 := p.ident.setWidth 12
      let g : Byte := p.arg.setWidth 8
      let x : Contrib := {
        tile := 0, ctx := 0, child := some p.src, op := BitVec.ofNat 2 (bitsAt p.arg.toNat 8 2),
        f := BitVec.ofNat 1 (bitsAt p.arg.toNat 10 1), len := bitsAt p.arg.toNat 32 21 }
      redPktStatus p = 0 → g = ((s.job j).hur h).gen →
      -- the child's first packet joins its contribution, each packet but an empty partial's brings a unit
      let u := if (s.red j (redKey h g)).contribs.any (fun x => decide (x.child = some p.src)) then s else s.redJoin j h g x
      exec (.redUp fd p) s = .next (if x.op = 3 then u else u.updRed j (redKey h g) fun r => { r with
        contribs := r.contribs.map (fun x => if x.child = some p.src then
          { x with units := tabSet (fun _ => none) x.units (bitsAt p.arg.toNat 16 16) (some p.payload) } else x) })) ∧
    (∀ (fd : Nat) (p : Packet) (j : Nat), Arrives s 0x08 fd p none → s.slotOfJob p.jobId = some j →
      let h : BitVec 12 := p.ident.setWidth 12
      let g : Byte := p.arg.setWidth 8
      let i := bitsAt p.arg.toNat 16 16
      let u := if hurMembers (s.slotRecs j h) ≠ 0 ∧ (s.redMembers j h g).isEmpty = true then s.countDrop fd 9 else s
      redPktStatus p = 0 →
      exec (.redDown fd p) s = .next ((u.redLand j h g i p.payload).redDownTo j h g i {
        tile := 0, ctx := 0, child := none,
        op := BitVec.ofNat 2 (bitsAt p.arg.toNat 8 2), f := BitVec.ofNat 1 (bitsAt p.arg.toNat 10 1),
        len := bitsAt p.arg.toNat 32 21 } p.payload))

/-- Tiles (R50 to R52, R54 to R57, R73, R74, R174, R283). A waiting context whose cause has cleared is READY and
takes an idle front end; a tile's failure stops its live contexts with code 7, and is dealt with at once where
there are none; a fault record reaches the
host as an event; a row map takes effect at once on an EMPTY row and is held pending on another. -/
def Obligations.TilesAndRowMaps : Prop :=
  ∀ (s : State),
    (∀ (t c : Nat), s.dieOn (dieOfTile t) = true → s.pwr.mode ≠ 3 → t < 9600 → c < 4 →
      (s.ctx t c).mode = .waiting → (s.tile t).failed = false → s.canGo t c = true →
      exec (.waitCauseClear t c) s = .next ((s.updCtx t c fun x => { x with mode := .ready, waitCause := 0 }).dispatch t)) ∧
    (∀ t, s.dieOn (dieOfTile t) = true → t < 9600 → (s.tile t).failed = false →
      let live := [0, 1, 2, 3].filter (fun c => (s.ctx t c).live)
      let u := s.updTile t fun x => { x with failed := true }
      (live ≠ [] → exec (.tileFailure t) s = .next (live.foldl (fun (v : State) c =>
        v.faultCtx t c 7 (v.ctx t c).pc (v.istoreWord t (v.ctx t c).pc.toNat)) u)) ∧
      (live = [] → exec (.tileFailure t) s = .next (u.outFault (u.tileLost (t / 240) (t % 240 / 15)
        (((u.die (t / 240)).row (t % 240 / 15)).phys (t % 15)))))) ∧
    (∀ (r : FaultRec) (rs : List FaultRec), s.faultRecs = r :: rs → s.pwr.aux = true → s.cast.hold ≠ 1 →
      r.code ≠ 7 →
      let hw := decide (r.code = 5 ∨ r.code = 7)
      exec .tileFaultRecord s = .next ((({ s with faultRecs := rs }.raise (.fault r.tile r.ctx r.code)
        (if hw then 3 else 2)).updDie (dieOfTile r.tile) fun d => { d with faultCount := stickAdd d.faultCount 1 }).event
          (r.tile / 1200) 1 [(16, 2, r.tile), (18, 1, r.ctx), (19, 1, r.code.toNat), (20, 1, if hw then 2 else 1),
            (22, 2, r.pc.toNat), (24, 8, r.word.toNat), (32, 2, r.jobId.toNat), (34, 1, r.jobGen.toNat),
            (36, 2, r.hurId.toNat), (38, 1, r.hurGen.toNat), (40, 8, r.row.toNat), (48, 8, r.tb.toNat)])) ∧
    (∀ (t c tag : Nat), ((s.ctx t c).fab tag).holdFrom.isSome = true → s.tagHeld ((s.ctx t c).fab tag) = false →
      (s.ctx t c).mode = .running → tabWf (fun _ => ({} : Ctx)) s.ctxs = true →
      exec (.tagHoldEnd t c tag) s = .next (s.updCtx t c fun x =>
        x.setFab tag { (s.ctx t c).fab tag with holdFrom := none })) ∧
    (∀ (die row : Nat) (col : BitVec 4) (healthy : Bool) (absent : Option (BitVec 4)), s.pwr.aux = true →
      s.cast.hold ≠ 1 → s.dieOn die = true → row < 16 →
      let m : RowMap := { spareCol := col, healthy := healthy, absent := absent.isSome, absentCol := absent.getD 0 }
      (s.rowEmpty die row = true → exec (.rowMapWrite die row col healthy absent) s = .next (s.applyMap die row m)) ∧
      (s.rowEmpty die row = false → exec (.rowMapWrite die row col healthy absent) s = .next
        (s.updDie die fun d => { d with
          mapRefused := stickAdd d.mapRefused 1,
          pendingMap := tabSet (fun _ => none) d.pendingMap row (some m) }))) ∧
    (∀ (die row : Nat) (m : RowMap), s.dieOn die = true → row < 16 → s.pendingOf die row = some m →
      s.rowEmpty die row = true → exec (.pendingMapApply die row) s = .next (s.applyMap die row m))

/-- Chains (R58 to R63, R76, R103, R180). LOAD_CHAIN of an image that passes every check of Table 3-9 places it
and completes OK with its chain ID, and one that fails check k places nothing and completes with the check's
status and k; START_CHAIN starts the loaded contexts of the identity together; both after the writes that the host
has posted (R71); STOP_CHAIN stops the live ones with
code 6; UNLOAD_CHAIN empties them once nothing of theirs runs or flies. -/
def Obligations.ChainCommands : Prop :=
  ∀ (r : Nat) (blk : Block) (s : State),
    let u := started s r
    let tag := blkTag blk
    let now := u.flushWhere fun _ => true
    (∀ (image : List Byte) (ps : List Coord),
      let job := BitVec.ofNat 16 (fieldB blk 24 2)
      let n := fieldB blk 40 2
      let peers := ps.take n ++ List.replicate (n - ps.length) 0
      let b := sliceB image 0 (fieldB blk 16 4)
      Starts s r 0x01 blk → (nth blk 20 0).getLsbD 0 = false →
      ((now.applyDue r).loadFault r job b n = none →
        exec (.loadChain r true image ps) s = .next
          (((now.applyDue r).writeImage r job (BitVec.ofNat 8 (fieldB blk 26 1)) b peers).complete r tag 0
            [(16, 8, fieldB b 8 2)])) ∧
      (∀ k st, (now.applyDue r).loadFault r job b n = some (k, st) →
        exec (.loadChain r true image ps) s = .next ((now.applyDue r).complete r tag st [(24, 2, k)]))) ∧
    (∀ (j : Nat),
      let chain := BitVec.ofNat 16 (fieldB blk 8 2)
      let job := BitVec.ofNat 16 (fieldB blk 10 2)
      let gen := BitVec.ofNat 8 (fieldB blk 12 1)
      let adaptive := (nth blk 13 0).getLsbD 0
      let row := BitVec.ofNat 64 (fieldB blk 16 8)
      let go := (now.chainCtxs r chain).filter fun e =>
        decide ((now.ctx e.1 e.2).mode = .loaded) && (now.ctx e.1 e.2).sameJob job gen
      Starts s r 0x02 blk → now.shep.penned = false → now.jobHeld job gen = false → now.slotOfJob job = some j →
      (now.job j).jobGen = gen → go ≠ [] → (adaptive = true → now.adaptiveOk job = true) → (now.ckptJob j).state ≠ 4 →
      ((now.job j).hasRow = true → (now.job j).row = row) →
      exec (.startChain r) s = .next (((now.updJob j fun x => { x with
        row := if x.hasRow then x.row else row, hasRow := true, adaptive := adaptive,
        reduction := x.reduction || now.images.any (fun i => decide (i.jobId = job) && i.flags.getLsbD 0) }).startAll
          go).complete r tag 0)) ∧
    (Starts s r 0x03 blk → exec (.stopChain r) s = .next ((u.stopWhere fun k x =>
      decide (k / 4 / 1200 = r ∧ x.chainId = BitVec.ofNat 16 (fieldB blk 8 2))).complete r tag 0)) ∧
    (let chain := BitVec.ofNat 16 (fieldB blk 8 2)
     Starts s r 0x04 blk → (s.ring r).fetched.find? (fun c => c.started && decide (blkOp c.block = 0x04)) = none →
     (∀ e ∈ u.chainCtxs r chain, (u.ctx e.1 e.2).mode = .loaded ∨ (u.ctx e.1 e.2).mode = .stopped ∨
       (u.ctx e.1 e.2).mode = .done) → (∀ e ∈ u.chainCtxs r chain, (u.ctx e.1 e.2).flying = false) →
     exec (.unloadChain r) s = .next ((u.unload r chain).complete r tag 0))

/-- Scrubbing, protection and bands (R127, R128, R131 to R140, R153, R154). One wrong bit in a store word is
corrected and counted for its row, more make the word uncorrectable; a line that can be corrected is, another is
reported; the scrubber moves on by a line; a band changes
owner only between free and a partition (host) or free and the twin reserve (firmware), and a refused write
is counted. What R133 makes of a line: with no channel erased the errors of one channel are corrected and
attributed to it; with one erased an error in another is uncorrectable, and none there is rebuilt; two erased
channels are rebuilt; three always make the line uncorrectable. The host's window (R149 to R151): a read in reach of good bytes answers them, one out of reach ends in
Completer Abort and is counted; a whole line is written at once, a part waits to be merged, and waits 1 µs
at most; a write out of reach is discarded and counted. -/
def Obligations.MemoryProtection : Prop :=
  (∀ (s : State),
     (∀ (t word : Nat), s.dieOn (dieOfTile t) = true → t < 9600 → word < 131072 →
       let n := dieOfTile t
       let pos := t % 240 * 131072 + word
       let s1 := s.updDie n fun d => { d with
         scrubRow := if pos ≤ d.scrubPos then [] else d.scrubRow
         scrubPos := pos }
       let u := sliceAddr t + word * 32
       let key := storeRowKey (t % 240 / 15) ((s.rowOf t).phys (t % 15)) (word / 8192) (word / 8 % 1024)
       (tabGet (fun _ => false) s.bad u = false → s.flips u = [] → exec (.storeScrub t word) s = .next s1) ∧
       (∀ b, tabGet (fun _ => false) s.bad u = false → s.flips u = [b] →
         exec (.storeScrub t word) s = .next ((s1.setFlips u []).updDie n fun d => { d with
           storeCorr := stickAdd d.storeCorr 1
           scrubRow := tabSet (fun _ => 0) d.scrubRow key (tabGet (fun _ => 0) d.scrubRow key + 1) })) ∧
       (2 ≤ (s.flips u).length → exec (.storeScrub t word) s = .next (s1.reportUe u 2))) ∧
     (∀ (die trow tcol sub row : Nat), s.pwr.aux = true →
       8 ≤ tabGet (fun _ => 0) (s.die die).scrubRow (storeRowKey trow tcol sub row) →
       s.flash.settings.fieldRepair.contains (Repair.storeRow die trow tcol sub row) = false →
       exec (.scrubRowReport die trow tcol sub row) s = .next (({ s with flash := { s.flash with settings :=
         { s.flash.settings with fieldRepair := s.flash.settings.fieldRepair ++ [Repair.storeRow die trow tcol sub row] } } }).updDie
           die fun d => { d with repairPending := stickAdd d.repairPending 1 })) ∧
     (∀ (addr b : Nat) (off : Nat) (bytes : List Byte) (link : Nat), bandOf addr = some b → s.pwr.memory = true →
       (s.band b).owner.toNat ≤ 8 → (s.band b).busy = false → (s.md (b / 20)).selfRefresh = false →
       let l := addr / 512 * 512
       let u := s.linkFixed l link
       (u.unitBad l = false → exec (.lineAccess addr none link) s = .next (u.fixUnit l)) ∧
       (u.unitBad l = true → exec (.lineAccess addr none link) s = .next (u.reportUe l 0)) ∧
       (off % 512 + bytes.length ≤ 512 →
         exec (.lineAccess addr (some (off, bytes)) link) s = .next (u.writeRange (l + off % 512) bytes 1).1)) ∧
     (∀ (md : Nat) (link : Nat), s.pwr.memory = true → md < 8 → (s.md md).scrubEnable = true →
       (s.md md).selfRefresh = false → (s.md md).scrubLine + 1 < 20 * 0x400000000 / 512 →
       let l := md * 0x5000000000 + (s.md md).scrubLine * 512
       let u := s.linkFixed l link
       exec (.memoryScrub md link) s = .next ((if u.unitBad l then u.reportUe l 2 else u.fixUnit l).updMd
         md fun x => { x with scrubLine := (s.md md).scrubLine + 1 })) ∧
     (∀ (md : Nat) (t : Word), (s.md md).twinTraffic = some t → s.pwr.memory = true → md < 8 → s.pwr.mode = 3 →
       s.passed t 100000 = true → exec (.selfRefreshReturn md) s = .next (s.updMd md fun x => { x with
         selfRefresh := true
         twinTraffic := none })) ∧
     (∀ (firmware : Bool) (band : Nat) (o : BitVec 4), s.pwr.aux = true → band < 160 → o ≠ (s.band band).owner →
       (s.bandAccept firmware band o = true → exec (.bandOwnerWrite firmware band o) s = .next (s.giveBand band o)) ∧
       (s.bandAccept firmware band o = false → exec (.bandOwnerWrite firmware band o) s = .next
         { s with gate := { s.gate with bandRefused := stickAdd s.gate.bandRefused 1 } })) ∧
     (∀ (u : UeRep) (us : List UeRep) (j : Nat), s.ueReports = u :: us → s.pwr.aux = true → s.cast.hold ≠ 1 →
       u.owner.toNat < 8 → s.slotOfPart u.owner.toNat = some j →
       exec .ueReport s = .next ((((({ s with ueReports := us } : State).raise (.ue u.addr) 3)).updJob j fun x =>
         { x with unfit := true }).event u.owner.toNat 5
           [(16, 8, u.addr.toNat), (24, 1, u.source.toNat), (25, 1, u.owner.toNat)]))) ∧
  (decodeLine 0 [] = .clean ∧
   (∀ (c : Nat) (f : List Nat), c < 18 → f ≠ [] → (∀ b ∈ f, b / 256 = c) → decodeLine 0 f = .corrected c) ∧
   (∀ (e c : Nat) (f : List Nat), e < 18 → c < 18 → c ≠ e → f ≠ [] → (∀ b ∈ f, b / 256 = c) →
     decodeLine (1 <<< e) f = .uncorrectable) ∧
   (∀ (e : Nat) (f : List Nat), e < 18 → (∀ b ∈ f, b / 256 = e) → decodeLine (1 <<< e) f = .rebuilt) ∧
   (∀ (er : BitVec 18) (f : List Nat), (erasedList er).length = 2 → decodeLine er f = .rebuilt) ∧
   (∀ (er : BitVec 18) (f : List Nat), 3 ≤ (erasedList er).length → decodeLine er f = .uncorrectable)) ∧
  (∀ (s : State) (off : Nat), s.pwr.aux = true → s.gate.sig.perstN = true → s.cast.hold ≠ 1 → s.ideBlocked = false →
     (∀ len, 0 < len → off + len ≤ s.bar2Size → s.gate.merge = [] →
       (reachAll s.bar2Byte (s.bar2Addr off) len = true → s.firstBad (s.bar2Addr off) len = none →
         exec (.bar2Read off len) s = .next (
           let u := s.fixRange (s.bar2Addr off) len
           u.emit (.bar2Data (u.readBytes (s.bar2Addr off) len)))) ∧
       (reachAll s.bar2Byte (s.bar2Addr off) len = false →
         exec (.bar2Read off len) s = .next ({ s with gate := { s.gate with
           bar2Err := stickAdd s.gate.bar2Err 1 } }.emit .bar2Abort))) ∧
     (∀ bytes : List Byte, bytes ≠ [] → off + bytes.length ≤ s.bar2Size →
       (reachAll s.bar2Byte (s.bar2Addr off) bytes.length = false →
         exec (.bar2Write off bytes) s = .next { s with gate := { s.gate with
           bar2Err := stickAdd s.gate.bar2Err 1 } }) ∧
       (reachAll s.bar2Byte (s.bar2Addr off) bytes.length = true → s.bar2Addr off < 0x100000000000 →
         exec (.bar2Write off bytes) s = .next ((unitsOf (s.bar2Addr off) bytes.length).foldl (fun (u : State) l =>
           u.bar2Part (unitPart (s.bar2Addr off) bytes l).1 (unitPart (s.bar2Addr off) bytes l).2) s)) ∧
       (reachAll s.bar2Byte (s.bar2Addr off) bytes.length = true → 0x100000000000 ≤ s.bar2Addr off →
         (s.writeRange (s.bar2Addr off) bytes 3).2 = true →
         exec (.bar2Write off bytes) s = .next (s.writeRange (s.bar2Addr off) bytes 3).1)) ∧
     exec .bar2MergeTimeout s = .next (s.flushWhere fun m => s.passed m.first 100))

/-- Memory reads what was written last: in a state with canonical memory, a byte stored at an address is what
the address holds, and every other address holds what it held. A range write stores its bytes and no others:
where no unit of the range is merged with an uncorrectable one, byte `i` of the range holds byte `i` of the
list, and every address outside the range holds what it held, for a store range (R6, R128); memory stays
canonical. -/
def Obligations.MemoryReadsBack : Prop :=
  (∀ (s : State) (a b : Nat) (v : Byte), Memory.wf s = true →
     (s.setCell a v).cell a = v ∧ (b ≠ a → (s.setCell a v).cell b = s.cell b) ∧ Memory.wf (s.setCell a v) = true) ∧
  (∀ (s : State) (a : Nat) (l : List Byte) (source : Byte), Memory.wf s = true → 0x100000000000 ≤ a →
     (∀ u ∈ unitsOf a l.length, s.unitBad u = false) →
     let u := (s.writeRange a l source).1
     (s.writeRange a l source).2 = true ∧ Memory.wf u = true ∧
     (∀ i, i < l.length → u.cell (a + i) = nth l i 0) ∧
     (∀ b, b < a ∨ a + l.length ≤ b → u.cell b = s.cell b))

/-- Flits (R155, R160, R161, R165). A flit with a bad CRC or an uncorrectable codeword counts and brings a
NAK; a good one of types 5 to 15 is dropped; another acknowledges, returns its credits and then acts by its type: DATA in order is accepted, DATA
ahead of the order brings a NAK, once, DATA behind it is dropped, a NAK replays, ACK and IDLE name the next
sequence and a gap before it brings a NAK; after each the link sends what holds credits. Link upkeep (R159,
R161, R163, R164, R190, R211 to R213): the ACK timer, failure after 10 ms, commanded retrain with its
announcement and DRAIN reason 3, removal of a lane, training flits and the identity report that does not
come. -/
def Obligations.FlitsAndLinks : Prop :=
  (∀ (fd k : Nat) (h : FlitHdr) (d : FlitData) (s : State),
     s.pwr.transit = true → fd < 2 → k < 176 → (s.link fd k).live = true →
     let l := s.link fd k
     let c := stickAdd l.fecCorr h.fecCorr
     let u := stickAdd l.fecUncorr h.fecUncorr
     let s1 := (s.setLink fd k { l with
       fecCorr := c
       fecUncorr := u }).updFab fd fun x => { x with ovf := x.ovf || decide (c = stickMax 48 ∨ u = stickMax 16) }
     let s2 := s1.updLink fd k fun y =>
       let z := if h.ackValid then y.acked h.ack s.tb else y
       (z.credited h).retrain h.retrain s.tb
     let ahead := (h.seq - (s2.link fd k).expected).toNat
     let bad := (s1.updLink fd k fun y => { y with crcErr := stickAdd y.crcErr 1 }).sendNak fd k
     let nak := if (s2.link fd k).nakSent then s2 else s2.sendNak fd k
     (h.crc ≠ flitCrc h (some d) ∨ h.fecUncorr ≠ 0 → exec (.dataFlit fd k h d) s = .next bad) ∧
     (h.crc ≠ flitCrc h none ∨ h.fecUncorr ≠ 0 → exec (.ackFlit fd k h) s = .next bad ∧
       exec (.nakFlit fd k h) s = .next bad ∧ exec (.idleFlit fd k h) s = .next bad) ∧
     (h.crc = flitCrc h (some d) → h.fecUncorr = 0 →
       (h.type = 1 → ahead = 0 → exec (.dataFlit fd k h d) s = .next ((s2.acceptData fd k d).pump fd k)) ∧
       (h.type = 1 → 0 < ahead → ahead < 2048 → exec (.dataFlit fd k h d) s = .next (nak.pump fd k)) ∧
       (h.type = 1 → 2048 ≤ ahead → exec (.dataFlit fd k h d) s = .next (s2.pump fd k)) ∧
       (5 ≤ h.type.toNat → exec (.dataFlit fd k h d) s = .next s1)) ∧
     (h.crc = flitCrc h none → h.fecUncorr = 0 →
       (h.type = 2 → exec (.ackFlit fd k h) s = .next ((s2.seqGap fd k h.seq).pump fd k)) ∧
       (h.type = 0 → exec (.idleFlit fd k h) s = .next ((s2.seqGap fd k h.seq).pump fd k)) ∧
       (h.type = 3 → exec (.nakFlit fd k h) s = .next ((((s2.updLink fd k fun y => { y with
         replays := stickAdd y.replays 1 }).resend fd k).seqGap fd k h.seq).pump fd k)))) ∧
  (∀ (fd k : Nat) (s : State), s.pwr.transit = true → fd < 2 → k < 176 →
     let l := s.link fd k
     (l.live = true → 0 < l.unacked → s.passed l.unackedSince 20 = true →
       exec (.ackTimer fd k) s = .next (s.sendFlit fd k 2 l.nextSeq none)) ∧
     (l.member = false → l.live = true → l.replay ≠ [] → s.passed l.ackProgress 1000000 = true →
       exec (.linkFail fd k) s = .next (s.failLink fd k)) ∧
     (∀ t, l.member = false → l.downSince = some t → s.passed t 1000000 = true → l.state ≠ 5 → l.state ≠ 0 →
       l.state ≠ 2 → exec (.linkFail fd k) s = .next (s.failLink fd k)) ∧
     (l.state = 2 ∨ l.state = 4 → l.member = false →
       exec (.commandedRetrain fd k) s = .next
         ((((s.updLink fd k fun y => { y with
             retrainTx := true
             retrainAt := s.tb }).sendFlit fd k 0 l.nextSeq none).sendOnLink fd k 0x0C 3 []).updLink fd k fun y => { y with
               state := 3
               downSince := some s.tb })) ∧
     (∀ lane, lane < 192 → (s.link fd (s.linkOfLane fd lane)).lanes.contains (lane % 16) = true →
       exec (.laneRemove fd lane true 0) s = .next (s.removeElec fd lane) ∧
       (∀ n, 16 ≤ n → exec (.laneRemove fd lane false n) s = .next (s.removeElec fd lane)) ∧
       (∀ n, n < 16 → exec (.laneRemove fd lane false n) s = .next s)) ∧
     (∀ i, i < 128 → (s.olane (32 * fd + i / 4) (i % 4)).state = 5 →
       exec (.laneRemove fd (192 + i) true 0) s = .next (s.laneOut (32 * fd + i / 4) (i % 4) 2)) ∧
     (∀ (h : FlitHdr) (i : TrainInfo), h.crc = flitCrc h (some (trainData i)) → h.fecUncorr = 0 → h.type = 4 →
       (k < 48 → exec (.trainFlit fd k h i) s = .next ((s.countFec fd k h).trainElec fd k i)) ∧
       (48 ≤ k → exec (.trainFlit fd k h i) s = .next ((s.countFec fd k h).trainOptical fd (k - 48) i))) ∧
     (48 ≤ k → (s.olane (32 * fd + (k - 48) / 4) ((k - 48) % 4)).state = 4 →
       s.passed (s.olane (32 * fd + (k - 48) / 4) ((k - 48) % 4)).trainSince 300000 = true →
       exec (.identityReportTimeout fd k) s = .next (s.misroute (32 * fd + (k - 48) / 4) ((k - 48) % 4) true)))

/-- An optical lane in training whose TRAIN flits name the expected sender and this receiver is in service, where it is
not under test; one that has no report yet waits; one
whose sender is another is misrouted, and so is one that its partner hears as another (R211, R212, Table 14-8).
Keepalives, drain and silence (R186, R187, R190, R263, R189): a keepalive leaves after 100 µs without a CTL
packet; an accepted one is heard and its digest checked; one under a fence is dropped; DRAIN takes the
sender's links out of route choices and READY ends that, unless a retrain brought it; 1 ms without a CTL packet
is a class (a) report. -/
def Obligations.IdentityAndKeepalives : Prop :=
  (∀ (fd i : Nat) (t : TrainInfo) (s : State),
     let q := 32 * fd + i / 4
     let j := i % 4
     (s.olane q j).state = 4 →
     -- what was heard is reported back
     let s1 := (s.updOlane q j fun o => { o with heard := some (t.coord, t.skein), rxOk := true }).sendTrain q j
     (s.expected q j = some (t.coord, t.skein) → t.heard = some (s.shep.coord, BitVec.ofNat 6 q) →
       s.underTest fd (192 + i) = false →
       ∃ u v, u = s1.updOlane q j (fun o => { o with
           state := 5, txOk := true, rxOk := true, misroutes := 0, rxMisroutes := 0, txLost := none, rxLost := none }) ∧
         v = u.joinStrand fd i t.coord t.digest t.rev ∧
         s.trainOptical fd i t = (match v.linkOfStrand fd i with | some k => v.unpenLink fd k | none => v)) ∧
     (s.expected q j = some (t.coord, t.skein) → t.heard = none → s.trainOptical fd i t = s1) ∧
     (s.expected q j ≠ some (t.coord, t.skein) → s.trainOptical fd i t = s1.misroute q j false) ∧
     (∀ w, s.expected q j = some (t.coord, t.skein) → t.heard = some w → w ≠ (s.shep.coord, BitVec.ofNat 6 q) →
       s.trainOptical fd i t = s1.misroute q j true)) ∧
  (∀ (fd k : Nat) (s : State), s.pwr.transit = true → fd < 2 → k < 176 →
     let l := s.link fd k
     (l.state = 2 ∨ l.state = 4 → l.member = false → s.shep.hard = false → s.passed l.lastCtlTx 10000 = true →
       exec (.keepaliveSend fd k) s = .next ((s.updLink fd k fun y => { y with
         aliveTx := y.aliveTx + 1
         lastCtlTx := s.tb }).sendOnLink fd k 0x0B 0 (s.keepalivePayload l))) ∧
     (∀ (co : Coord) (n : Byte) (p dr re : Bool), l.live = true → l.fenced = false → (s.fab fd).fenced co = false →
       (l.aliveRx.hear n).2 = .accepted 0 →
       exec (.keepalive fd k co n p dr re l.partnerDigest) s = .next
         ((s.setLink fd k { l with aliveRx := (l.aliveRx.hear n).1 }).updLink fd k fun y =>
           { y.retrain (re || y.retrainRx) s.tb with
             lastCtlRx := s.tb
             silent := false })) ∧
     (∀ (co : Coord) (n : Byte) (p dr re : Bool) (dg : Word), l.live = true → l.fenced = true →
       exec (.keepalive fd k co n p dr re dg) s = .next (s.countDrop fd 3)) ∧
     (l.state = 2 ∨ l.state = 5 → l.drainReason = 0 → l.member = false → l.retrainTx = false → l.retrainRx = false →
       l.silent = false → s.passed l.lastCtlRx 100000 = true → s.pwr.aux = true → s.cast.hold ≠ 1 →
       s.shep.hasCoord = true →
       exec (.partnerSilent fd k) s = .next ((s.updLink fd k fun y => { y with silent := true }).ownReports.verdictAll)) ∧
     (∀ (co : Coord) (reason : Byte), l.live = true → l.fenced = false → (s.fab fd).fenced co = false → reason ≠ 3 →
       exec (.drain fd k co reason) s = .next ((s.linksTo co).foldl (fun (u : State) key =>
         u.updLink (key / 176) (key % 176) fun y => { y with
           drainReason := reason
           state := if y.state = 2 then 4 else y.state }) s)) ∧
     (∀ co : Coord, l.live = true → l.fenced = false → (s.fab fd).fenced co = false →
       s.shep.admits.any (fun a => decide (a.coord = co)) = false →
       exec (.ready fd k co) s = .next (((s.linksTo co).foldl (fun (u : State) key =>
         if (u.link (key / 176) (key % 176)).drainReason = 3 then u else u.endDrain (key / 176) (key % 176)) s).updObsC
           co fun o => { o with suspended := false })) ∧
     (∀ (co : Coord) (reason : Byte), l.live = true → l.fenced = true →
       exec (.drain fd k co reason) s = .next (s.countDrop fd 3) ∧ exec (.ready fd k co) s = .next (s.countDrop fd 3)))

/-- The alive-counter rule (R378): with d the distance from the last accepted counter and e that from the
candidate, 0 is a repeat that changes nothing; 1 to 3 is accepted, with the messages between counted as lost
and no candidate left; any other distance is a jump that becomes the candidate. The first message of a
sender is accepted. -/
def Obligations.AliveCounterRule : Prop :=
  ∀ (l n c : Byte) (cand : Option Byte),
    let d := (n - l).toNat
    let e := (n - c).toNat
    let from_ := fun (x : Option Byte) => ({ last := some l, cand := x } : Alive).hear n
    (d = 0 → from_ cand = ({ last := some l, cand := cand }, .again)) ∧
    (1 ≤ d → d ≤ 3 → from_ cand = ({ last := some n, cand := none }, .accepted (d - 1))) ∧
    (4 ≤ d → from_ none = ({ last := some l, cand := some n }, .jump)) ∧
    (4 ≤ d → e = 0 → from_ (some c) = ({ last := some l, cand := some c }, .again)) ∧
    (4 ≤ d → 1 ≤ e → e ≤ 3 →
      from_ (some c) = ({ last := some n, cand := none }, .accepted ((c - l - 1).toNat + (e - 1)))) ∧
    (4 ≤ d → 4 ≤ e → from_ (some c) = ({ last := some l, cand := some n }, .jump)) ∧
    (({ last := none, cand := cand } : Alive).hear n = ({ last := some n, cand := none }, .accepted 0))

/-- Transit, routes, fences, DROP notices and probes (R75, R169, R170, R172, R175, R179, R189, R272). -/
def Obligations.RoutingAndFences : Prop :=
  ∀ (fd k : Nat) (p : Packet) (s : State), s.pwr.transit = true → fd < 2 → k < 176 →
    (∀ n, (s.link fd k).live = true → (s.link fd k).fenced = false →
      exec (.transitPacket fd k p n) s = .next ((if s.forUs fd p then s else
        { s with pwr := { s.pwr with lastTransit := s.tb } }).forward fd { s.viaHere p with age := addAge p.age n })) ∧
    (∀ n, (s.link fd k).live = true → (s.link fd k).fenced = true → s.ownProbe p = false →
      exec (.transitPacket fd k p n) s = .next (s.dropPacket fd 3 p)) ∧
    (∀ (co : Coord) (e : RouteEntry), s.pwr.aux = true → s.cast.hold ≠ 1 → e.choices.length ≤ 4 →
      exec (.routeEntryWrite fd none co e) s = .next (s.setRoute fd co e)) ∧
    (∀ (co : Coord), s.pwr.aux = true → s.cast.hold ≠ 1 →
      exec (.fenceWrite (some co) none true) s = .next ((s.fenceCoord co true).endDrains co) ∧
      (s.coordHeld co = false → s.penTime co = none ∨ s.admittedReady co = true →
        exec (.fenceWrite (some co) none false) s = .next (s.liftCoord co)) ∧
      (s.coordHeld co = false → (s.penTime co).isSome = true → s.admittedReady co = false →
        exec (.fenceWrite (some co) none false) s = .next s) ∧
      (s.coordHeld co = true → exec (.fenceWrite (some co) none false) s = .next ((s.countHold 0 3).countHold 1 3)) ∧
      (∀ on, on = true ∨ (s.link fd k).penFence = false →
        exec (.fenceWrite none (some (fd, k)) on) s = .next (s.updLink fd k fun l => { l with fenced := on })) ∧
      ((s.penTime co).isSome = true → s.coordHeld co = false →
        s.shep.admits.any (fun a => decide (a.coord = co) && a.ready) = true →
        exec (.coordinateHoldEnd co) s = .next (s.liftCoord co))) ∧
    (Arrives s 0x0E fd p none → p.arg.extractLsb' 8 8 = (0x03 : Byte) →
      s.awaited p.srcTile.toNat p.ctx.toNat (p.b23.toNat % 16) p.ident.toNat .fabPut p.jobId p.jobGen = true →
      exec (.drop fd p) s = .next (s.updCtx p.srcTile.toNat p.ctx.toNat fun x =>
        x.answered (p.b23.toNat % 16) p.ident.toNat 4)) ∧
    (Arrives s 0x10 fd p (some (p.dstTile.toNat / 1200)) → s.isMine p.src = false → p.dstTile.toNat < 9600 →
      s.dieOn (dieOfTile p.dstTile.toNat) = true → (s.tile p.dstTile.toNat).failed = false →
      s.tileAbsent p.dstTile.toNat = false →
      exec (.probe fd p) s = .next ((s.emit (.probeEcho p.dstTile.toNat true)).sendPacket fd {
        dst := p.src, src := 0, kind := 0x11, vc := 3, dstTile := p.srcTile, srcTile := p.dstTile, ident := p.ident })) ∧
    (Arrives s 0x11 fd p none → exec (.probeReply fd p) s = .next (s.probeAnswered p.src fun r =>
      if r.answered.contains p.srcTile.toNat then r else { r with answered := r.answered ++ [p.srcTile.toNat] }))

/-- Comb sources (R200 to R202, R215, R219, R220): a read that answers takes the source's report, a new serial number
drops the references, and references that are due are taken; the third failed read in a row sets comms_fail; a lost
fibre sends the source to safe mode and is an immediate trigger of the buses on it; the safe control is written only
while no bus uses the source, and one let go goes to full output where its fibres are continuous. -/
def Obligations.CombSources : Prop :=
  ∀ (x : Nat) (s : State), s.pwr.aux = true → x < 4 →
    (∀ r : EcsReport, (s.ecsOf x).present = true →
      let u := ((s.emit (.ecsWrite x 0x7F 1)).emit (.ecsWrite x 0x7F 0)).updEcs x fun c => { c with
        fails := 0, ready := r.ready, outputOn := r.outputOn, safe := r.safe, fault := r.fault,
        temperature := r.temperature, serial := r.serial, bias := r.bias, biasRef := r.biasRef, power := r.power }
      let st := s.flash.settings
      exec (.ecsPoll x (some r)) s = .next ((if r.serial = tabGet (fun _ => (0 : BitVec 128)) st.ecsSerials x then u
        else State.dropRefs { u with flash := { u.flash with settings := { u.flash.settings with
          ecsSerials := tabSet (fun _ => (0 : BitVec 128)) st.ecsSerials x r.serial } } } x).takeRefs x)) ∧
    ((s.ecsOf x).present = true → exec (.ecsPoll x none) s = .next (s.updEcs x fun c => { c with
      fails := c.fails + 1, commsFail := c.commsFail || decide (2 ≤ c.fails) })) ∧
    (∀ f, f < 4 → (s.ecsOf x).outputOn = true → exec (.feedLoss x f) s = .next
      (((s.updEcs x fun c => { c with full := false }).emit (.ecsWrite x 0x02 2)).loseFeeds x (1 <<< f))) ∧
    (s.removable x = true → exec (.ecsSafeWrite x true) s = .next
      ((s.updEcs x fun c => { c with ctlSafe := true, full := false }).emit (.ecsWrite x 0x02 2))) ∧
    (s.removable x = true → s.fibresWhole x = true → exec (.ecsSafeWrite x false) s = .next
      ((s.updEcs x fun c => { c with ctlSafe := false, full := true, feedLost := 0 }).emit (.ecsWrite x 0x02 1))) ∧
    (s.removable x = true → s.fibresWhole x = false → exec (.ecsSafeWrite x false) s = .next
      ((s.updEcs x fun c => { c with ctlSafe := false, full := false }).emit (.ecsWrite x 0x02 2))) ∧
    (∀ v, s.removable x = false → exec (.ecsSafeWrite x v) s = .next s)

/-- Skeins (R204, R209, R214 to R220, R222, R224): reach entries, quiescing and its release, dark-slot events,
fade levels, scheduled and immediate switches, the return of a primary, blanking and its end. The fade level
of a line (R216, Table 8-8): 3 at −3 dB or below; else 2 at −2 dB, a projection to there within 24 h, or a bias of 150
percent; else 1 at −1 dB or a bias of 125 percent; else 0. -/
def Obligations.SkeinsAndFade : Prop :=
  (∀ (q : Nat) (s : State), s.pwr.aux = true → s.cast.hold ≠ 1 → s.pwr.transit = true → q < 64 →
     let k := s.skein q
     (∀ e : ReachEntry, s.flash.owned = true → ∃ u, exec (.reachWrite e) s = .next u ∧
       u.flash.settings.reach = s.flash.settings.reach.filter (fun r => !(decide (r.skein = e.skein ∧ r.slot = e.slot))) ++ [e]) ∧
     (exec (.quiesce q) s = .next (s.quiesceSkein q)) ∧
     (k.quiesced = true → k.switching = false → s.movesOn q = false → exec (.quiesceRelease q) s = .next
       ((List.range 4).foldl (fun (u : State) j => if (u.olane q j).state = 8 then
           (if u.laneStage q j = 4 then u.beginTrain q j else u.updOlane q j fun o => { o with state := u.laneStage q j })
         else u) (s.updSkein q fun y => { y with quiesced := false }))) ∧
     (256 ≤ k.darkOver → k.darkArmed = true → exec (.darkSlotEvent q) s = .next
       (((s.setSkein q { k with darkCnt := stickAdd k.darkCnt 1, darkArmed := false, darkOver := 0, darkUnder := 0 }).raise
         (.dark q) 2).stuck (0x800108 + 0x100000 * (q / 16) + 0x40 * (q % 16)) k.darkCnt (stickAdd k.darkCnt 1))) ∧
     (k.schedSince.isSome = true → s.maySwitch q = true → s.movesOn q = false → s.commitHolds q = true →
       exec (.scheduledSwitch q) s = .next (s.scheduled q)) ∧
     (∀ t, k.schedSince = some t → s.maySwitch q = true → s.movesOn q = false → s.passed t 90000000000 = true →
       exec (.scheduledSwitchTimeout q) s = .next (s.scheduled q)) ∧
     (k.fade = 3 → s.maySwitch q = true → k.lastImmediate = none → k.secondary = false → s.feedFit q true = true →
       exec (.immediateSwitch q) s = .next (((s.stallLanes q).switchSource q true).updSkein q fun y =>
         { y with lastImmediate := some s.tb })) ∧
     (∀ t, k.fade = 3 → s.maySwitch q = true → k.lastImmediate = some t → s.passed t 60000000000 = false →
       exec (.immediateSwitch q) s = .next (s.raise (.switchRefused q) 2)) ∧
     (∀ t, k.primaryFitSince = some t → k.secondary = true → k.schedSince = none → s.passed t 60000000000 = true →
       exec (.primaryReturn q) s = .next (s.updSkein q fun y => { y with schedSince := some s.tb })) ∧
     (exec .blank s = .next s.blankAll) ∧
     (s.shep.penned = false → exec .blankLift s = .next ((List.range 4).foldl (fun (u : State) n =>
       u.updEngine n fun g => { g with blanked := false }) { s with gate := { s.gate with blank := false } })) ∧
     (s.shep.penned = true → exec .blankLift s = .next s)) ∧
  ((∀ (q : Nat) (ber5 : Bool) (s : State), s.pwr.aux = true → s.cast.hold ≠ 1 →
     s.pwr.transit = true → q < 64 →
     let u := s.fadeLines q
     let v := u.fadeSet q (u.fadeLevel q ber5)
     exec (.fadeEvaluation q ber5) s = .next
       ((if (s.skein q).fade.toNat < u.fadeLevel q ber5 then v.raise (.fadeWatch q) 2 else v).darkBus q)) ∧
   (∀ (q : Nat) (s : State), s.fadeLevel q true = 3) ∧
   (∀ (rel : Int) (soon : Bool) (bias ref : Nat),
     (rel ≤ -300 → lineLevel rel soon bias ref = 3) ∧
     (-300 < rel → (rel ≤ -200 ∨ soon = true ∨ (ref ≠ 0 ∧ 3 * ref ≤ 2 * bias)) → lineLevel rel soon bias ref = 2) ∧
     (-200 < rel → soon = false → ref = 0 ∨ 2 * bias < 3 * ref → (rel ≤ -100 ∨ (ref ≠ 0 ∧ 5 * ref ≤ 4 * bias)) →
       lineLevel rel soon bias ref = 1) ∧
     (-100 < rel → soon = false → ref = 0 ∨ 4 * bias < 5 * ref → lineLevel rel soon bias ref = 0)))

/-- Element commands of the Crook (R206, R207, R217, R234, R239 to R244, R250; Table 9-6). A move command of an
element under way waits; MOVE starts from TRACK or HOLD, SEEK from PARK or HOLD, PARK from any other mode,
each after the checks of Table 8-6; HOLD holds, RELEASE evaluates at the held command, TEST leaves service,
SEL takes a selector to a position, CLEAR clears a fault. One command of an element is taken at a period
boundary, and a further one waits (R241; log entry 21). -/
def Obligations.ElementCommands : Prop :=
  ∀ (n e : Nat) (k : BitVec 3) (lane : BitVec 2) (s : State), s.pwr.transit = true → n < 4 → e < 176 →
    (s.engine n).railHeld = false →
    let g := s.engine n
    let x := s.elem n e
    -- the command is the element's first at this boundary, or the Crook does not run
    let first := g.crookRunning = false ∨ x.cmdAt ≠ some g.period
    let u := s.updElem n e fun y => { y with cmdAt := some g.period }
    (g.crookRunning = true → x.cmdAt = some g.period → exec (.elemMove n e k lane) s = .next
      (s.updElem n e fun y => { y with cmds := y.cmds ++ [(1, k, lane)] })) ∧
    (first → elemIsSel e = false → x.run = none → x.mode = .track →
      (u.moveRefusal n e (some k) [] [] = none →
        exec (.elemMove n e k lane) s = .next (u.beginMove n e (some k) (laneFor e lane) false)) ∧
      (∀ r, u.moveRefusal n e (some k) [] [] = some r → exec (.elemMove n e k lane) s = .next (u.refuseMove n e r))) ∧
    (first → elemIsSel e = false → x.run.isSome = true → exec (.elemMove n e k lane) s = .next
      (u.updElem n e fun y => { y with queued := some { cmd := 1, slot := k, lane := lane } })) ∧
    (first → elemIsSel e = false → x.run = none → x.mode = .park → u.moveRefusal n e (some k) [] [] = none →
      exec (.elemSeek n e k lane) s = .next (u.beginMove n e (some k) (laneFor e lane) true)) ∧
    (first → elemIsSel e = false → x.run = none → x.mode = .track → u.moveRefusal n e none [] [] = none →
      exec (.elemPark n e) s = .next (u.beginMove n e none (laneFor e x.lane) false)) ∧
    (first → x.mode ≠ .park → exec (.elemHold n e) s = .next ((u.ringOut n e 2).updElem n e fun y =>
      { y.held 10 with adrift := y.adrift || (elemIsSel e && y.run.isSome) })) ∧
    (first → elemIsSel e = false → x.mode = .hold → x.slot.toNat < 8 → x.faulted = false →
      exec (.elemRelease n e) s = .next (u.updElem n e Elem.startRelease)) ∧
    (first → elemIsSel e = false → u.servesNow n e = false → x.faulted = false → g.blanked = false →
      exec (.elemTest n e) s = .next ((u.ringOut n e 2).updElem n e fun y => { y with
        mode := .test
        run := none
        exciteCnt := 0
        feTimer := 0 })) ∧
    (first → elemIsSel e = true → k.toNat ≤ 1 → x.run = none →
      exec (.elemSel n e k) s = .next (u.updElem n e fun y => y.startSel (g.limitsOf e (u.elem n e)) (some k))) ∧
    (first → elemIsSel e = true → x.run = none → x.mode ≠ .park →
      exec (.elemPark n e) s = .next (u.updElem n e fun y => y.startSel (g.limitsOf e (u.elem n e)) none)) ∧
    (first → elemIsSel e = false → exec (.elemSel n e k) s = .next
      (u.updEngine n fun g => { g with badCmd := stickAdd g.badCmd 1 })) ∧
    (first → exec (.elemClear n e) s = .next ((({ u with flash := { u.flash with settings := { u.flash.settings with
        faulted := u.flash.settings.faulted.filter (fun i => decide (i ≠ elemKey n e)) } } } : State)).updElem n e
      fun y => { y with
        faulted := false
        misroutes := 0 })) ∧
    (∀ q : Queued, x.queued = some q → x.run = none → q.ofSet = false →
      let v := s.updElem n e fun y => { y with queued := none }
      (elemIsSel e = true → q.cmd = 7 → exec (.queuedMoveStart n e) s =
        .next (v.updElem n e fun y => y.startSel (g.limitsOf e (v.elem n e)) (some q.slot))) ∧
      (elemIsSel e = false → s.selBusy n e = false → q.cmd = 1 → exec (.queuedMoveStart n e) s =
        .next (v.moveCmd n e 1 q.slot q.lane))) ∧
    (∀ ms, exec (.moveSet n ms) s = .next ((ms.foldl (fun (v : State) m =>
      v.updSkein (skeinOfElem n (min 175 m.elem)) fun k => { k with late := false }) s).moveAll n (ms.map (s.moveSpan n)) ms []))

/-- Supervision by the Crook (R234, R235, R237, R248, R249, R251, R252, R254 to R256): hand-over, slips,
following-error expiry, slot misses, rail faults, live values, coefficients and loop programs. -/
def Obligations.CrookSupervision : Prop :=
  ∀ (n e : Nat) (s : State), s.pwr.transit = true → n < 4 → e < 176 →
    let g := s.engine n
    let x := s.elem n e
    (∀ smp, g.crookRunning = true →
      let u := (s.slotZero n smp).nextCmds n
      let outs := u.crookA n g.period.toNat g.railMv.toNat smp
      let w := u.crookPut n outs
      let z := if g.period.toNat % 4 = 0 ∧ (w.engine n).run = true
        then (List.range 16).foldl (fun (v : State) i => v.ringPower n i) w else w
      let v := ((z.crookEnds n outs).crookB n).crookAdapt n g.period.toNat smp
      exec (.crookPeriod n smp) s = .next { v with free := v.free + 1 }) ∧
    (∀ r : Run, x.run = some r → r.phase = .evaluating → 4 ≤ r.proposals.length →
      handoverOk (r.proposals.take 4) (q15 r.to_) g.handover.toNat = false →
      exec (.handoverEvaluation n e) s = .next (((s.ringOut n e 2).updElem n e fun y =>
        { y.held 2 with
          command := r.to_
          setpoint := r.to_
          refused := stickAdd y.refused 1 }).raise (.handover n e) 3)) ∧
    (x.mode = .track → 1 ≤ x.slipRun → g.slipUpdates.toNat ≤ x.slipRun →
      exec (.slip n e) s = .next (((s.ringOut n e 2).updElem n e fun y =>
        { y.held 4 with
          slips := stickAdd y.slips 1
          queued := some { cmd := 2, slot := y.slot.setWidth 3, lane := y.lane } }).raise (.slip n e) 3)) ∧
    (elemIsSel e = true → x.mode = .move → 1 ≤ x.feTimer.toNat → x.fePeriods.toNat ≤ x.feTimer.toNat →
      exec (.followingErrorExpiry n e) s = .next (((s.ringOut n e 7).updElem n e fun y =>
        { y.held 3 with expiries := stickAdd y.expiries 1 }).raise (.expiry n e) 3)) ∧
    (x.notch = 1 → exec (.notchRecoveryEnd n e) s = .next (s.updElem n e fun y => { y with notch := 0 })) ∧
    (g.run = true → g.lastMiss = none → exec (.slotMiss n) s = .next (((s.holdEngine n 6 true).updEngine n fun y =>
      { y with slotMiss := true, run := false, slotMissCnt := stickAdd y.slotMissCnt 1,
               lastMiss := some s.tb }).raise (.slotMiss n) 3)) ∧
    (16 ≤ g.railOut → g.railActed = false → exec (.railFault n) s = .next
      (((s.holdEngine n 7 true).updEngine n fun y => { y with
        railFault := true
        railActed := true
        railHeld := true }).raise (.rail n) 3)) ∧
    (g.crookRunning = true → g.gaugeOk = true → g.period.toNat % 256 = 0 → exec (.liveValuesUpdate n) s = .next
      ((List.range 176).foldl (fun (u : State) i =>
        u.updElem n i fun y => y.liveAt (elemIsSel i) (clampTemp g.temp)) s)) ∧
    (∀ (i w : Nat) (word : BitVec 32), w < 32 → i < 176 → g.coefQ.length < 16 →
      exec (.coefficientWrite n false i w word) s = .next (s.updEngine n fun y =>
        if y.coefQ.length < 16 then { y with coefQ := y.coefQ ++ [(false, i, w, word)] }
        else { y with coefWait := y.coefWait ++ [(false, i, w, word)] })) ∧
    (∀ (w : BitVec 10) (word : BitVec 32), g.run = false → exec (.progMemWrite n w word) s = .next
      (s.updEngine n fun y => { y with prog := tabSet (fun _ => (0 : BitVec 32)) y.prog w.toNat word })) ∧
    (∀ (w : BitVec 10) (word : BitVec 32), g.run = true → exec (.progMemWrite n w word) s = .next s) ∧
    (exec (.progRun n) s = .next (s.startProgs n)) ∧
    (exec (.progStop n) s = .next ((s.holdEngine n 10 false).updEngine n fun y => { y with run := false }))

/-- Aux and main power (R15 to R18, R35, R300, R304, R328, R410): aux up starts cast-on from CO0; at its fall
main goes off, the sources go to safe mode and the ring is frozen; removal ends a drain; a loss of main is
hard fault 1, and after it MAIN_EN runs cast-on from CO2. -/
def Obligations.MainAndAuxPower : Prop :=
  ∀ (s : State),
    (s.pwr.aux = false → exec .auxPowerUp s = .next s.auxUp ∧
      (s.fresh.tb = 0 ∧ s.fresh.flash.life = s.flash.life + 1 ∧ s.fresh.pwr.transit = false ∧
        s.fresh.keys = s.keys ∧ s.fresh.ctxs = [] ∧ s.fresh.mem = [])) ∧
    (s.pwr.aux = true → s.tally.bbFrozen = true → ∃ u, exec .auxPgFall s = .next u ∧
      u.pwr.aux = false ∧ u.pwr.transit = false ∧ u.pwr.memory = false ∧
      u.tally.bbFrozen = true ∧ u.tally.bbCause = 2 ∧ u.tally.ring = s.tally.ring ∧
      u.flash.powerArea = (if s.gate.holdupReady then
        some { entries := s.tally.ring, cause := 2, life := s.flash.life } else none)) ∧
    (s.pwr.aux = true → exec .holdupBankCharged s = .next { s with gate := { s.gate with holdupReady := true } }) ∧
    (∀ (cause : DrainCause) (t : Word), s.pwr.aux = true → s.pwr.drain = some (cause, t) →
      (s.passed t 10000 = true ∧ s.passed s.pwr.lastTransit 10000 = true) ∨ s.passed t 5000000 = true →
      exec .mainPowerRemove s = .next
        (({ s.abortMain.sourcesSafe.mainOff with pwr := { s.abortMain.sourcesSafe.mainOff.pwr with drain := none } } : State).afterDrain cause)) ∧
    (∀ (cause : DrainCause) (t : Word), s.pwr.drain = some (cause, t) → s.passed t 5000000 = false →
      s.passed s.pwr.lastTransit 10000 = false → exec .mainPowerRemove s = .next s) ∧
    (s.pwr.aux = true → s.pwr.drain = none → s.mainOn = true → ∃ u, exec .mainPowerLoss s = .next u ∧
      u.gate.sig.mainEn = false ∧ u.pwr.lost = true) ∧
    (s.shepOn = true → s.pwr.lost = true → s.pwr.mainBarred = false → s.cast.running = false →
      s.pwr.drain = none → s.shep.padWait = none → exec .mainPowerRestore s = .next
        (({ s with
            gate := { s.gate with sig := { s.gate.sig with mainEn := true } }
            pwr := { s.pwr with lost := false } } : State).startRun (if s.shep.paddock then .paddock else .main)))

/-- Resets and islands (R12 to R16, R140, R145, R394): MAIN_RESET drains first; a partition reset aborts the
partition's commands, rotates its key, applies its protection and takes its island down, to come up again
where it is assigned; ISLAND_ASSIGN refuses to take an island in use or one without transit and memory, and
an island assigned no more goes off, whatever of its bring-up waits or is under way (R12). -/
def Obligations.ResetsAndIslands : Prop :=
  ∀ (r : Nat) (blk : Block) (s : State),
    let u := started s r
    let tag := blkTag blk
    let mask := BitVec.ofNat 8 (fieldB blk 8 1)
    let old := s.flash.settings.islands
    let gone := (List.range 8).filter (fun p => old.getLsbD p && !mask.getLsbD p)
    let new := (List.range 8).filter (fun p => mask.getLsbD p && !old.getLsbD p)
    (StartsEarly s r 0x23 blk → s.pwr.drain = none → s.pwr.mainBarred = false →
      s.cast.running = false ∨ 2 ≤ s.cast.stage.toNat → ∃ v, v = ((u.cutStage.abortPartitions).selfReport 2 0).drainSend 1 ∧
      exec (.mainReset r) s = .next { v with pwr := { v.pwr with drain := some (.mainReset r tag, s.tb) } }) ∧
    (StartsEarly s r 0x23 blk → s.pwr.drain.isSome = true → exec (.mainReset r) s = .next (u.complete r tag stBusy)) ∧
    (Starts s r 0x0A blk → old.getLsbD r = true → exec (.partitionReset r) s = .next
      (((u.abortRing r (some tag)).resetPart r).queueIsland r (some (r, tag)))) ∧
    (Starts s r 0x0A blk → old.getLsbD r = false → exec (.partitionReset r) s = .next
      (((u.abortRing r (some tag)).resetPart r).complete r tag stOk)) ∧
    (Starts s r 0x22 blk → exec (.allPartitionReset r) s = .next
      (((List.range 8).foldl State.resetPart u.abortPartitions).queueIslands r tag
        ((List.range 8).filter (fun p => old.getLsbD p)))) ∧
    (Starts s r 0x21 blk → gone.any s.partInUse = true → exec (.islandAssign r) s = .next (u.complete r tag stBusy)) ∧
    (Starts s r 0x21 blk → gone.any s.partInUse = false → new.isEmpty = false →
      (s.pwr.transit && s.pwr.memory) = false → exec (.islandAssign r) s = .next (u.complete r tag stSequence)) ∧
    (Starts s r 0x21 blk → gone.any s.partInUse = false → (s.pwr.transit && s.pwr.memory) = true →
      ∃ v, v = gone.foldl State.unassign
          { u with flash := { u.flash with settings := { u.flash.settings with islands := mask } } } ∧
        exec (.islandAssign r) s = .next
          ((if s.cast.running && !v.cast.running then v.nextIsland else v).queueIslands r tag new)) ∧
    (∀ (p : Nat) (v : State), v.cast.islandQ.all (fun e => decide (e.1 ≠ p)) = true →
      v.cast.running = false ∨ v.cast.run ≠ .island p → v.unassign p = v.islandOff p) ∧
    (Starts s r 0x00 blk → exec (.nop r) s = .next (u.complete r tag stOk))

/-- The envelope and the timebase (R20 to R24, R35, R36, R270, R328): steps of 5 mV between 600 and 800 mV, each
100 µs at least, by the mean input of the last 10 ms, the pause of admission at 600 mV, ENVELOPE_SET, a tick, and
the start and end of holdover. Beat windows (R30 to
R33): at its end the die latches the beats, their sum and their minimum, the voltage and the temperature,
and a deficit when the beats are below 93.2 percent of the typical rate; a written window is clamped to 1
000 to 1 000 000 ticks and, when it differs, starts anew. -/
def Obligations.EnvelopeAndBeats : Prop :=
  ((∀ (watts : Nat) (hot : Int) (s : State), s.pwr.aux = true →
     let s1 := s.measurePower watts hot
     let mean := meanNat ((watts :: s.pwr.inputs).take 100)
     let due := s.pwr.lastStep = none ∨ ∃ t, s.pwr.lastStep = some t ∧ s.passed t 10000 = true
     (due → s.pwr.islands ≠ 0 → s.pwr.mode ≠ 3 → exec (.envelopeStep watts hot) s = .next
       { s1 with pwr := { s1.pwr with vcore := s.vcoreStep mean hot } }) ∧
     (due → s.pwr.islands = 0 ∨ s.pwr.mode = 3 → exec (.envelopeStep watts hot) s = .next s1) ∧
     (∀ t, s.pwr.lastStep = some t → s.passed t 10000 = false → exec (.envelopeStep watts hot) s = .next s) ∧
     (s.powerLimit < mean ∨ 380 < hot → s.vcoreStep mean hot = max 600 (s.pwr.vcore - 5)) ∧
     (mean < s.powerLimit → hot ≤ 380 → s.pwr.vcore ≤ s.vcoreTop mean →
       s.vcoreStep mean hot = min (s.vcoreTop mean) (s.pwr.vcore + 5)) ∧
     (∀ ticks, s.cast.hold ≠ 1 → s.pwr.islands ≠ 0 → s.pwr.mode ≠ 3 → s.pwr.vcore ≤ 600 →
       (∃ t, s.pwr.overSince = some t ∧ s.passed t 1000000 = true) ∨ s.tooHot = true →
       exec (.admissionPause watts ticks) s = .next (({ s with
         gate := { s.gate with pin := BitVec.ofNat 16 (min watts 65535) }
         pwr := { s.pwr with overSince := if s.powerLimit < watts then s.pwr.overSince else none } } : State).raise
           (.admissionPause ticks) 1))) ∧
   (∀ (r : Nat) (blk : Block) (s : State), StartsEarly s r 0x20 blk →
     let u := started s r
     let m := BitVec.ofNat 2 (fieldB blk 8 1)
     (3 < fieldB blk 8 1 → exec (.envelopeSet r) s = .next (u.complete r (blkTag blk) stMalformed)) ∧
     (m = 3 → fieldB blk 8 1 ≤ 3 → s.atHurdles = false → exec (.envelopeSet r) s = .next (u.complete r (blkTag blk) stBusy)) ∧
     (fieldB blk 8 1 ≤ 3 → m ≠ 3 ∨ s.atHurdles = true → m ≠ s.pwr.mode → (nth blk 9 0).getLsbD 0 = false →
       exec (.envelopeSet r) s = .next ((u.setMode m).complete r (blkTag blk) stOk)) ∧
     (fieldB blk 8 1 ≤ 3 → m ≠ 3 ∨ s.atHurdles = true → m = s.pwr.mode → (nth blk 9 0).getLsbD 0 = true →
       exec (.envelopeSet r) s = .next
         (({ u with flash := { u.flash with settings := { u.flash.settings with mode := some m } } } : State).complete r
           (blkTag blk) stOk))) ∧
   (∀ s : State, s.pwr.aux = true →
     exec (.tbTick []) s = .next { s with tb := s.tb + 1 } ∧
     (∀ l, exec (.tbTick l) s = .next { l.foldl State.upset s with tb := s.tb + 1 }) ∧
     (∀ ppm, s.gate.holdover = false → s.cast.hold ≠ 1 → s.cast.running = false →
       exec (.holdoverEntry ppm) s = .next
         ((({ s with gate := { s.gate with
               holdover := true, refclkFault := true, ppm := ppm, holdoverAt := s.tb } } : State).loseLock).hardFault 2)) ∧
     (s.loseLock.gate.pcieWidth = 0 ∧ (s.pwr.memory = true → ∀ b, b < 8 → (s.loseLock.md b).selfRefresh = true)) ∧
     (∀ (ppm : BitVec 16), s.gate.holdover = true → s.cast.hold ≠ 1 → -300 ≤ ppm.toInt → ppm.toInt ≤ 300 →
       s.passed s.gate.holdoverAt 1000000 = true →
       let u := ({ s with gate := { s.gate with holdover := false, ppm := ppm } } : State).pcieUp
       let v := (if u.gate.pcieWidth = 0 then u else { u with gate := { u.gate with
         pcieRetrains := stickAdd u.gate.pcieRetrains 1 } }).clearRefclk
       (s.cast.refclkRestart = false → v.padReady = false → s.pwr.transit = true → s.pwr.memory = true →
         s.cast.running = false → exec (.holdoverExit ppm) s = .next (v.startRun .refclk)) ∧
       (s.cast.refclkRestart = true → v.shep.hard = false → exec (.holdoverExit ppm) s = .next v.rampAgain)) ∧
     (∀ (ppm : BitVec 16), s.passed s.gate.holdoverAt 1000000 = false → exec (.holdoverExit ppm) s = .next s))) ∧
  ((∀ (die : Nat) (beats : BitVec 32) (mv tj : BitVec 12) (s : State), s.dieOn die = true →
     s.passed (s.die die).windowStart (s.die die).window.toNat = true →
     let d := s.die die
     let d1 := d.endWindow s.tb beats mv tj
     exec (.beatWindowEnd die beats mv tj) s = .next
       ((s.setDie die d1).stuck (0x2000000 + 0x400000 * die + 0x3F0010) d.beatCount d1.beatCount) ∧
     d1.beats = beats ∧ d1.seq = d.seq + 1 ∧ d1.windowStart = s.tb ∧ d1.beatCount = stickAdd d.beatCount beats.toNat ∧
     d1.vcoreMv = mv ∧ d1.tj = tj ∧ d1.beatMin.toNat = min beats.toNat d.beatMin.toNat ∧
     d1.deficit = (d.deficit || rateDeficit beats.toNat mv.toNat d.window.toNat tj.toInt)) ∧
   (∀ (die : Nat) (w : BitVec 20) (beats : BitVec 32) (s : State), s.dieOn die = true →
     (clampWindow w = (s.die die).window → exec (.beatWindowWrite die w beats) s = .next s) ∧
     exec (.minRearm die) s = .next (s.updDie die fun d => { d with beatMin := 0xFFFFFFFF })) ∧
   (∀ w : BitVec 20, 1000 ≤ (clampWindow w).toNat ∧ (clampWindow w).toNat ≤ 1000000 ∧
     (1000 ≤ w.toNat → w.toNat ≤ 1000000 → clampWindow w = w)) ∧
   rate70 600 = 950000000 ∧ rate70 750 = 1550000000 ∧ rate70 800 = 1720000000)

/-- A write of the beat window (R33): a value that differs from the one in force, after the range rule of the
field, abandons the window; the next starts at the next tick and nothing is latched for the one abandoned,
whose beats count in BEAT_COUNT, as every beat since the island came up does (R32). A write that leaves the value unchanged changes nothing, and one made only to set min_rearm does not disturb
the window. -/
def Obligations.BeatWindowWrite : Prop :=
  ∀ (die : Nat) (w : BitVec 20) (beats : BitVec 32) (s : State), s.dieOn die = true →
    let d := s.die die
    let count := stickAdd d.beatCount beats.toNat
    let inForce : BitVec 20 := if w.toNat < 1000 then 1000 else if 1000000 < w.toNat then 1000000 else w
    (inForce ≠ d.window → exec (.beatWindowWrite die w beats) s = .next
      ((s.setDie die { d with
        window := inForce, windowStart := s.tb + 1, beatCount := count
        countOvf := d.countOvf || decide (count = stickMax 64) }).stuck (0x2000000 + 0x400000 * die + 0x3F0010)
          d.beatCount count)) ∧
    (inForce = d.window → exec (.beatWindowWrite die w beats) s = .next s) ∧
    (exec (.minRearm die) s = .next (s.setDie die { d with beatMin := 0xFFFFFFFF }))

/-- Rings (R386 to R398): a poll fetches the new commands, with cause 1 for a producer beyond the ring and cause
2 for a failed transfer; enabling restarts the counts with phase 1; a completion is written at the producer
with the phase of the pass, in the order due; after drops EVENTS_LOST precedes the events held; the
coalescing timer sends the message. FLR and PERST reset the Gate's PCIe core alone, and the link trains as
PERST_N goes high (R384, R413). -/
def Obligations.HostRings : Prop :=
  ∀ (r : Nat) (s : State), s.pwr.aux = true → r < 9 →
    let x := s.ring r
    (∀ (prod cons : BitVec 32) (blocks : List (List Byte)), x.enable = true → x.stopped = false →
      s.ideBlocked = false → s.cast.hold ≠ 1 → s.gate.sig.perstN = true →
      x.polledAt = none ∨ (∃ t, x.polledAt = some t ∧ s.passed t (100 * x.pollUs.toNat) = true) →
      (exec (.ringPoll r prod cons blocks false) s = .next (s.ringError r 2)) ∧
      (x.cmdN < (prod - x.cmdCons).toNat → exec (.ringPoll r prod cons blocks true) s = .next (s.ringError r 1)) ∧
      ((prod - x.cmdCons).toNat ≤ x.cmdN → 8 ≤ x.free → ∀ n, n = min (x.mayFetch prod) blocks.length → 0 < n →
        exec (.ringPoll r prod cons blocks true) s = .next
          (((blocks.take n).foldl (fun (u : State) b => u.fetch r (blkOf b))
            (s.setRing r { x with
              cmdCons := x.cmdCons + BitVec.ofNat 32 n
              polledAt := if prod = x.cmdCons then some s.tb else none })).emit
              (.cmdCons r (x.cmdCons + BitVec.ofNat 32 n))))) ∧
    (∀ b : Block, blkFault r b = none → s.fetch r b = s.setRing r { x with fetched := x.fetched ++ [{ block := b }] }) ∧
    (∀ (prod cc cp ck : BitVec 32), x.enable = false → s.gate.sig.perstN = true → s.ideBlocked = false → ∃ u,
      u = s.setRing r { x with
        enable := true, stopped := false, parked := false, polledAt := none, phase := true, cause := 0,
        cmdCons := cc, cplProd := cp, cplCons := ck, unsignalled := none } ∧
      exec (.ringEnable r false prod cc cp ck) s = .next (u.ringError r 2) ∧
      ((u.ring r).cmdN < (prod - cc).toNat → exec (.ringEnable r true prod cc cp ck) s = .next (u.ringError r 1)) ∧
      ((prod - cc).toNat ≤ (u.ring r).cmdN → exec (.ringEnable r true prod cc cp ck) s = .next u)) ∧
    (x.enable = true → exec (.ringDisable r) s = .next (s.updRing r fun y => { y with enable := false })) ∧
    (∀ (c : Cpl) (cs : List Cpl) (cons : BitVec 32), x.parked = false → s.gate.sig.perstN = true → 8 ≤ x.free →
      x.due = c :: cs → x.used < x.cplN →
      exec (.completionWrite r cons) s = .next ((s.setRing r { x with due := cs }).writeEntry r c)) ∧
    (∀ cons : BitVec 32, x.parked = false → s.gate.sig.perstN = true → 8 ≤ x.free → x.due = [] → x.enable = true →
      (x.lostSince ≠ 0 → exec (.completionWrite r cons) s = .next
        ((s.setRing r { x with lostSince := 0, eventSeq := x.eventSeq + 1 }).writeEntry r
          { kind := 0x0C, tag := x.eventSeq, tbTime := s.tb, detail := [(16, 4, x.lostSince.toNat)] })) ∧
      (∀ c cs, x.lostSince = 0 → x.held = c :: cs → exec (.completionWrite r cons) s = .next
        ((s.setRing r { x with held := cs }).writeEntry r c))) ∧
    (∀ t, x.unsignalled = some t → s.passed t (100 * x.coalesceUs.toNat) = true →
      exec (.coalesceTimer r) s = .next ((s.setRing r { x with unsignalled := none }).msix x.vector)) ∧
    (exec .functionLevelReset s = .next s.flr.pcieUp) ∧
    (s.gate.sig.perstN = true → exec (.perst true) s = .next
      (({ s with gate := { s.gate with sig := { s.gate.sig with perstN := false } } } : State).flr)) ∧
    (s.gate.sig.perstN = false → exec (.perst false) s = .next
      (({ s with gate := { s.gate with sig := { s.gate.sig with perstN := true } } } : State).pcieUp)) ∧
    (∀ (proto : Byte) (req : List Byte), s.gate.sig.perstN = true → s.mgmt.doeBusy = false → req.length ≤ 16384 →
      proto = 1 ∨ proto = 2 → s.cast.hold ≠ 1 → exec (.doeRequest proto req) s = .next { s with mgmt := { s.mgmt with doeBusy := true } }) ∧
    (s.gate.sig.perstN = true → exec .doeAbort s = .next { s with mgmt := { s.mgmt with doeBusy := false } })

/-- The mailbox (R400, Table 15-9): an operation runs whole and leaves its answer and status 0, 2 where it is
not served in this state, 3 for a request that cannot be met, 4 where the Gate does not sign; one begun
while another runs is discarded and counted. -/
def Obligations.MailboxOperations : Prop :=
  ∀ (s : State), s.pwr.aux = true →
    let req := sliceB s.gate.mbox.data 0 s.gate.mbox.length.toNat
    let ends := fun (u : State) (op st : Byte) (l : List Byte) =>
      ({ u with gate := { u.gate with mbox := u.gate.mbox.reply op st l } } : State).misc 0
    (s.gate.mbox.busy = true →
      exec .getStatus s = .next { s with gate := { s.gate with badAccess := stickAdd s.gate.badAccess 1 } }) ∧
    (s.gate.mbox.busy = false →
      (exec .getStatus s = .next (ends s 1 0 (leBytes 4 s.castStatus.toNat ++ reportBytes (s.report 0) ++
        reportBytes (s.report 1) ++ leBytes 4 (slotWord (s.slotOf 0)).toNat ++ leBytes 4 (slotWord (s.slotOf 1)).toNat))) ∧
      (s.cast.hold = 1 → exec .getLog s = .next (ends s 3 2 [])) ∧
      (s.cast.hold ≠ 1 → req.length = 36 → ∀ i u, s.sign = some (i, u) →
        exec .mboxGetMeasurements s = .next (ends (u.emit (.measurements 9 (BitVec.ofNat 32 (fieldB req 32 4))
          (u.measVals (BitVec.ofNat 32 (fieldB req 32 4))) (some i))) 2 0
          ((u.measVals (BitVec.ofNat 32 (fieldB req 32 4))).flatMap digBytes))) ∧
      (s.cast.hold ≠ 1 → req.length = 36 → s.sign = none →
        exec .mboxGetMeasurements s = .next (ends s.signRefused 2 4 [])) ∧
      (s.cast.hold ≠ 1 → 0 < fieldB req 4 4 → fieldB req 4 4 ≤ 256 → req.length = 8 → exec .getLog s = .next
        (ends s 3 0 (((s.sec.log.drop (fieldB req 0 4)).take (fieldB req 4 4)).flatMap logBytes))) ∧
      (s.cast.hold ≠ 1 → exec .getCert s = .next
        (ends s 4 0 (((Config.document 0).drop (fieldB req 0 4)).take 16384))) ∧
      (s.cast.hold = 1 → fieldB req 0 8 < 2 → 16 ≤ req.length → req.length ≤ 16384 →
        slotWritable (s.slotOf (fieldB req 0 8)) = true → exec .recoveryWrite s = .next
        (ends (s.slotWrite (fieldB req 0 8) (fieldB req 8 8) (req.drop 16)) 0x10 0 [])) ∧
      (∀ info, s.cast.hold = 1 → fieldB req 0 4 < 2 → (s.slotOf (fieldB req 0 4)).state = slotWriting →
        exec (.recoveryCheck info) s = .next (ends (s.judgeSlot (fieldB req 0 4) info) 0x11 0
          [((s.judgeSlot (fieldB req 0 4) info).slotOf (fieldB req 0 4)).reason.setWidth 8])) ∧
      (33 ≤ req.length → s.flash.owned = false → exec .mboxOwnerEnroll s = .next
        (ends (s.enroll (enrollSplit req).1 (enrollSplit req).2) 0x12 0 [])) ∧
      (33 ≤ req.length → s.flash.owned = true → exec .mboxOwnerEnroll s = .next (ends (s.authFail 5) 0x12 3 [])))

/-- I3C and MCTP (R401, R402): a target takes one dynamic address and answers the common commands while it has
it; lengths are at most 256; the MCTP commands set and tell the endpoint. SPDM (R351 to R353, R360, R399):
each request that can arrive is answered; a signed answer takes the next signature index, and is refused
where the Gate does not sign; an unowned module opens no session; IDE keys are set inside a session. -/
def Obligations.ManagementAndSpdm : Prop :=
  (∀ (s : State), s.pwr.aux = true →
     (∀ a, s.mgmt.dynAddr = none → exec (.entdaa a) s = .next
       (({ s with mgmt := { s.mgmt with dynAddr := some a } } : State).emit (.i3c (s.pid ++ [0x06, 0x00])))) ∧
     (exec .rstdaa s = .next { s with mgmt := { s.mgmt with dynAddr := none } }) ∧
     (∀ m, exec (.enec m) s = .next { s with mgmt := { s.mgmt with ibiEn := s.mgmt.ibiEn || m.getLsbD 0 } }) ∧
     (∀ m, exec (.disec m) s = .next { s with mgmt := { s.mgmt with ibiEn := s.mgmt.ibiEn && !m.getLsbD 0 } }) ∧
     (s.mgmt.dynAddr.isSome = true →
       exec .getpid s = .next (s.emit (.i3c s.pid)) ∧
       exec .getbcr s = .next (s.emit (.i3c [0x06])) ∧
       exec .getdcr s = .next (s.emit (.i3c [0x00])) ∧
       (∃ a b, exec .getstatus s = .next (({ s with free := s.free + 1 } : State).emit (.i3c [a, b]))) ∧
       exec .getmwl s = .next (s.emit (.i3c (leBytes 2 s.mgmt.mwl.toNat).reverse)) ∧
       exec .getmrl s = .next (s.emit (.i3c ((leBytes 2 s.mgmt.mrl.toNat).reverse ++ [1])))) ∧
     (∀ n, n.toNat ≤ 256 → exec (.setmwl n) s = .next { s with mgmt := { s.mgmt with mwl := n } } ∧
       exec (.setmrl n) s = .next { s with mgmt := { s.mgmt with mrl := n } }) ∧
     (∀ n, 256 < n.toNat → exec (.setmwl n) s = .next { s with mgmt := { s.mgmt with mwl := 256 } } ∧
       exec (.setmrl n) s = .next { s with mgmt := { s.mgmt with mrl := 256 } }) ∧
     (∀ a, exec (.rstact a) s = .next { s with mgmt := { s.mgmt with rstact := a } }) ∧
     (∀ e, e ≠ 0 → e ≠ 0xFF → exec (.setEndpointId e) s = .next
       (mctpReply { s with mgmt := { s.mgmt with eid := e } } 1 [0, 0, e, 0])) ∧
     (exec .getEndpointId s = .next (mctpReply s 2 [0, s.mgmt.eid, 0, 0])) ∧
     (exec .getEndpointUuid s = .next (mctpReply s 3 (0 :: Config.document 1))) ∧
     (∀ t, s.mctpTypes.contains t = true → exec (.getMctpVersionSupport t) s = .next
       (mctpReply s 4 [0, 1, 0xF1, 0xF3, 0xFF, 0])) ∧
     (∀ t, s.mctpTypes.contains t = false → exec (.getMctpVersionSupport t) s = .next (mctpReply s 4 [0x80])) ∧
     (s.cast.hold ≠ 1 → exec .getMessageTypeSupport s = .next (mctpReply s 5 [0, 4, 0, 5, 6, 0x7F])) ∧
     (s.cast.hold = 1 → exec .getMessageTypeSupport s = .next (mctpReply s 5 [0, 2, 0, 0x7F])) ∧
     (∀ c l, s.mgmt.ibiEn = true → s.mgmt.dynAddr.isSome = true →
       mctpReply s c l = (s.emit (.mctp c l)).emit (.ibi 1))) ∧
  (∀ (via : Nat) (s : State), s.spdmOpen via = true →
     (exec (.spdmGetVersion via) s = .next (s.spdmAnswer via 0x04 [0x00, 0x12] none)) ∧
     (exec (.getCapabilities via) s = .next (s.spdmAnswer via 0x61 (Config.document 2) none)) ∧
     (exec (.negotiateAlgorithms via) s = .next (s.spdmAnswer via 0x63 (Config.document 3) none)) ∧
     (exec (.getDigests via) s = .next
       (s.spdmAnswer via 0x01 (1 :: digBytes (shake256 (Config.document 0))) none)) ∧
     (∀ off len, exec (.getCertificate via 0 off len) s = .next
       (s.spdmAnswer via 0x02 (((Config.document 0).drop off).take len) none)) ∧
     (∀ (nonce : BitVec 256) (mask : BitVec 32) (i : Word) (u : State), s.sign = some (i, u) →
       exec (.challenge via nonce) s = .next (u.spdmAnswer via 0x03 (digBytes nonce) (some i)) ∧
       exec (.getMeasurements via nonce mask) s = .next (u.spdmAnswer via 0x60
         (digBytes nonce ++ (s.measVals mask).flatMap digBytes) (some i))) ∧
     (∀ (nonce : BitVec 256), s.sign = none → ∃ e, exec (.challenge via nonce) s = .next
       (s.signRefused.spdmAnswer via 0x7F [e] none)) ∧
     (s.signBarred = false → s.signsNow.length < 16 → (s.sec.signNext + 1).toNat ≠ 2 ^ 40 → ∃ u,
       s.sign = some (s.sec.signNext, u) ∧ u.sec.signNext = s.sec.signNext + 1 ∧ u.sec.signTimes = s.tb :: s.signsNow) ∧
     (s.signBarred = true ∨ 16 ≤ s.signsNow.length → s.sign = none) ∧
     (s.signsNow = s.sec.signTimes.filter (fun t => !s.passed t 100000000)) ∧
     (s.flash.owned = true →
       exec (.pskExchange via true) s = .next (s.spdmAnswer via 0x66 [] none) ∧
       exec (.pskFinish via true) s = .next
         (({ s with sec := { s.sec with session := true } } : State).spdmAnswer via 0x67 [] none)) ∧
     (s.flash.owned = false → ∀ ok, exec (.pskExchange via ok) s = .next (s.spdmAnswer via 0x7F [1] none)) ∧
     (s.sec.session = true →
       exec (.spdmHeartbeat via) s = .next (s.spdmAnswer via 0x68 [] none) ∧
       exec (.endSession via) s = .next
         (({ s with sec := { s.sec with session := false } } : State).spdmAnswer via 0x6C [] none) ∧
       exec (.vendorDefinedRequest via true true) s = .next
         (({ s with sec := { s.sec with ideSel := true } } : State).spdmAnswer via 0x7E [] none) ∧
       exec (.vendorDefinedRequest via false true) s = .next
         (({ s with sec := { s.sec with ideLink := true } } : State).spdmAnswer via 0x7E [] none)))

/-- Image slots and control messages (R332 to R345, R352, R356 to R358): staging and its verdict, activation at
the next maintenance point, the forced reset, confirmation and deadline of a trial; a control message that
fails a check is counted and has no effect. -/
def Obligations.ImagesAndControl : Prop :=
  ∀ (r : Nat) (blk : Block) (s : State),
    let u := started s r
    let tag := blkTag blk
    let n := fieldB blk 8 1
    let open_ := s.pwr.aux = true ∧ s.flash.owned = true ∧ s.cast.hold ≠ 1
    (∀ bytes info, StartsEarly s r 0x26 blk → n < 2 → slotWritable (s.slotOf n) = true →
      let w := u.slotWrite n (fieldB blk 28 4) (sliceB bytes 0 (fieldB blk 24 4))
      ((nth blk 32 0).getLsbD 0 = false → exec (.imageStage r true bytes info) s = .next (w.complete r tag stOk)) ∧
      ((nth blk 32 0).getLsbD 0 = true → exec (.imageStage r true bytes info) s = .next
        (if ((w.judgeSlot n info).slotOf n).reason = 0 then (w.judgeSlot n info).complete r tag stOk
         else (w.judgeSlot n info).complete r tag stBadImage [(24, 2, ((w.judgeSlot n info).slotOf n).reason.toNat)]))) ∧
    (∀ bytes info, StartsEarly s r 0x26 blk → n < 2 → slotWritable (s.slotOf n) = false →
      exec (.imageStage r true bytes info) s = .next (u.complete r tag stSlotBusy)) ∧
    (StartsEarly s r 0x27 blk → (s.canActivate n = true → exec (.activateImage r) s = .next
        (({ u with sec := { u.sec with activate := some n } } : State).complete r tag stOk)) ∧
      (s.canActivate n = false → exec (.activateImage r) s = .next (u.complete r tag stSlotState))) ∧
    (StartsEarly s r 0x28 blk → (s.trialSlot = none → exec (.rejectImage r) s = .next (u.complete r tag stSlotState)) ∧
      (s.trialSlot.isSome = true → (nth blk 8 0).getLsbD 0 = true →
        exec (.rejectImage r) s = .next (u.forceReset.complete r tag stOk)) ∧
      (s.trialSlot.isSome = true → (nth blk 8 0).getLsbD 0 = false → exec (.rejectImage r) s = .next
        (({ u with sec := { u.sec with reject := true } } : State).complete r tag stOk))) ∧
    (∀ m, s.pwr.aux = true → s.maintenance = true → s.sec.resetting = false → s.sec.activate = some m →
      s.canActivate m = true → ∃ v, v = s.setSlot m { s.slotOf m with state := slotTrial, booted := false } ∧
      exec .maintenancePoint s = .next
        ({ v with sec := { v.sec with activate := none, reject := false } } : State).forceReset) ∧
    (s.pwr.aux = true → s.sec.trial = true → s.sec.deadline ≠ 0 → s.sec.resetting = false →
      s.sec.deadline.toNat ≤ s.tb.toNat → exec .trialDeadline s = .next s.forceReset) ∧
    (∀ v, s.pwr.aux = true → s.sec.trial = true → v = s.sec.version → s.sec.resetting = false →
      (s.sec.deadline ≠ 0 → s.tb.toNat < s.sec.deadline.toNat) → ∃ t, exec (.fwConfirm v) s = .next t ∧
      t.sec.trial = false ∧ t.sec.deadline = 0 ∧ s.flash.svn.toNat ≤ t.flash.svn.toNat ∧ t.flash.oldSettings = none) ∧
    (∀ v, v ≠ s.sec.version → exec (.fwConfirm v) s = .next s) ∧
    (∀ (h : CtlHdr) (o : CtlOrder), open_ →
      (∀ i, s.ctlFail h = some i → exec (.controlMessage h o) s = .next (s.authFail i)) ∧
      (s.ctlFail h = none → exec (.controlMessage h o) s = .next ((s.seqAccept h (orderKeeps o)).order o)) ∧
      (∀ (w : State) (m : BitVec 2), w.order .other = w ∧ w.order (.ownerRelease true) = w.disown ∧
        w.order (.ownerRelease false) = w.authFail 4 ∧
        (w.order .clearHard).shep.hard = false ∧ (w.order .clearHard).shep.hardCodes = [] ∧
        (w.pwr.transit = true → m ≠ w.pwr.mode → m ≠ 3 ∨ w.atHurdles = true →
          w.order (.envelopeMode m) = w.setMode m)) ∧
      (∀ m, s.ctlFail h = none → s.canActivate m = true → ∃ w, w = s.seqAccept h true ∧
        exec (.controlActivateImage h m) s = .next { w with sec := { w.sec with activate := some m } })) ∧
    (s.pwr.aux = true → s.passed s.sec.lastSeqRecord 60000000000 = true → exec .sequenceRecord s = .next
      { s with
        flash := { s.flash with settings := { s.flash.settings with seqs := s.sec.seqs } }
        sec := { s.sec with lastSeqRecord := s.tb } }) ∧
    (∀ p, s.pwr.aux = true → s.sec.prevEpoch = some p → s.passed p.2 60000000000 = true →
      exec .epochGraceEnd s = .next { s with sec := { s.sec with prevEpoch := none } }) ∧
    (s.pwr.aux = true → s.sec.reservePending = true → s.sec.reserveFail = false →
      exec (.reservationRetry true) s = .next { s with
        sec := { s.sec with signLimit := s.sec.signLimit + 1024, reservePending := false, reserveFail := false }
        flash := { s.flash with signLimit := s.sec.signLimit + 1024 } } ∧
      exec (.reservationRetry false) s = .next { s with sec := { s.sec with reserveFail := true, reserveTry := s.tb } })

/-- The checks of an image and of a control message end at the first that fails (R333, R356), and an owner is
enrolled only while there is none and released only under its own key (R354); DISTRIBUTE and chunks fill a
slot, a bad chunk is dropped and counted, what is missing is asked of one holder after another, the first
after the last (log entry 56), and a whole image is hashed and judged (R342 to R345). -/
def Obligations.OwnerAndDistribution : Prop :=
  (∀ (i : ImageInfo) (s : State),
    (i.headerOk = false → imageReason s i = 1) ∧
    (i.headerOk = true → i.signatureOk = false → imageReason s i = 2) ∧
    (i.headerOk = true → i.signatureOk = true → i.hwType = 0x00484D01 → i.unitId = 0 ∨ i.unitId = s.sec.unitId →
      imageReason s i = if i.securityVersion.toNat < s.flash.svn.toNat then 5 else 0)) ∧
  (∀ (h : CtlHdr) (s : State),
    (ctlLenOk h = true ↔ h.length.toNat = h.body.length ∧ h.body.length ≤ 16 * 2 ^ 20) ∧
    (ctlLenOk h = false ∨ h.version ≠ 1 → s.ctlFail h = some 0) ∧
    (ctlLenOk h = true → h.version = 1 → s.epochOk h.epoch = false → s.ctlFail h = some 1) ∧
    (ctlLenOk h = true → h.version = 1 → s.epochOk h.epoch = true → h.tag ≠ s.ctlTag h → s.ctlFail h = some 2) ∧
    (ctlLenOk h = true → h.version = 1 → s.epochOk h.epoch = true → h.tag = s.ctlTag h → s.seqOk h = false →
      s.ctlFail h = some 3) ∧
    (ctlLenOk h = true → h.version = 1 → s.epochOk h.epoch = true → h.tag = s.ctlTag h → s.seqOk h = true →
      s.ctlFail h = none)) ∧
  (∀ (r : Nat) (blk : Block) (key root : List Byte) (s : State),
    let u := started s r
    let tag := blkTag blk
    (StartsEarly s r 0x29 blk → s.flash.owned = false →
      exec (.ownerEnroll r true key root) s = .next ((u.enroll key root).complete r tag stOk)) ∧
    (StartsEarly s r 0x29 blk → s.flash.owned = true → ∀ d,
      exec (.ownerEnroll r d key root) s = .next ((u.authFail 5).complete r tag stAuth)) ∧
    (StartsEarly s r 0x2A blk → s.flash.owned = true →
      exec (.ownerRelease r true true) s = .next
        (({ u with flash := { u.flash with owned := false, ownerKey := [], podRoot := [] } } : State).complete r tag stOk) ∧
      exec (.ownerRelease r true false) s = .next ((u.authFail 4).complete r tag stAuth))) ∧
  (∀ s : State, s.pwr.aux = true →
    (∀ (h : CtlHdr) (dg : BitVec 256) (total : BitVec 12) (slot : Nat) (src par : Coord), s.flash.owned = true →
      s.cast.hold ≠ 1 → s.ctlFail h = none → slot < 2 → slotWritable (s.slotOf slot) = true → total ≠ 0 →
      total.toNat ≤ 4092 → ∃ v, v = ((s.seqAccept h true).setSlot slot
          { s.slotOf slot with state := slotWriting, reason := 0, bytes := [], shipped := false }).setDist
          (some { digest := dg, total := total, slot := slot, source := src, parent := par, lastChunk := s.tb }) ∧
      exec (.distribute h dg total slot src par) s = .next { v with sec := { v.sec with
        bcImage := dg.setWidth 64
        bcTotal := total
        bcHeld := 0
        bcRepaired := 0
        bcBad := 0
        bcState := 1 } }) ∧
    (∀ (d : Dist) (sender : Coord) (c : List Byte) (relay : List Coord) (sigOk : Bool), s.flash.dist = some d →
      s.cast.hold ≠ 1 →
      let i := fieldB c 12 2
      let d1 : Dist := { d with
        held := i :: d.held
        lastChunk := s.tb
        lastLen := if i + 1 = d.total.toNat then c.length - 32 else d.lastLen }
      let v := relay.foldl (fun (w : State) m => w.emit (.relay m c))
        ((s.slotWrite d.slot (16384 * i) (c.drop 32)).setDist (some d1))
      let u : State := { v with sec := { v.sec with
        bcHeld := BitVec.ofNat 12 (d.held.length + 1)
        bcRepaired := if sender ≠ d.parent ∨ s.sec.bcState = 2 then v.sec.bcRepaired + 1 else v.sec.bcRepaired } }
      (d.held.contains i = true ∨ d.total.toNat ≤ i ∨ fieldB c 4 8 ≠ d.digest.toNat % 2 ^ 64 ∨
        fieldB c 14 2 ≠ d.total.toNat ∨ BitVec.ofNat 32 (fieldB c 28 4) ≠ crc32c (c.take 28 ++ c.drop 32) →
        exec (.chunk sender c relay sigOk) s = .next s.chunkBad) ∧
      (chunkOk d c = true → d.held.length + 1 < d.total.toNat → exec (.chunk sender c relay sigOk) s = .next u) ∧
      (chunkOk d c = true → d.total.toNat ≤ d.held.length + 1 →
        exec (.chunk sender c relay sigOk) s = .next (u.endDist d1 sigOk))) ∧
    (∀ d : Dist, s.flash.dist = some d →
      (s.sec.bcState = 1 ∨ s.sec.bcState = 5 → d.held.length < d.total.toNat →
        d.held.contains (d.total.toNat - 1) = true ∨ s.passed d.lastChunk 3000000000 = true →
        exec .chunkRepair s = .next (s.askHolder d 0)) ∧
      (s.sec.bcState = 2 → s.passed d.askedAt 1000000000 = true → s.passed d.lastChunk 1000000000 = true →
        exec .repairHolderTimeout s = .next (s.askHolder d ((d.holder + 1) % (s.holders d).length))) ∧
      (∀ k, (s.askHolder d k).sec.bcState = 2 ∧
        (s.askHolder d k).flash.dist = some { d with holder := k, askedAt := s.tb }) ∧
      (s.twin.paired = true → (s.holders d).head? = some s.twin.coord) ∧
      (s.holders d).getLast? = some d.source)) ∧
  (∀ (d : Dist) (sigOk : Bool) (s : State),
    (s.distDigest d ≠ d.digest → (s.endDist d sigOk).sec.bcState = 5 ∧ (s.endDist d sigOk).sec.bcHeld = 0) ∧
    (s.distDigest d = d.digest → (s.endDist d sigOk).flash.dist = none ∧ ((s.endDist d sigOk).sec.bcState = 3 ↔
      ((s.judgeSlot d.slot sigOk).slotOf d.slot).state = slotStaged)))

/-- Events and the Tally Book (R363 to R372): an event is judged by the bucket of its code, entered in the ring
and recorded, or staged while the book is frozen or copied; a fatal one freezes the ring and brings a
mirror. The window is latched at the cursor; a freeze ends by command or after 1 s, and what was staged is
applied. A record takes an occurrence (R365, R366): its count grows and sticks, its last tick and severity
follow, and a value goes to its sum, its extremes and the bin of its size. -/
def Obligations.TallyBook : Prop :=
  (∀ (s : State), s.pwr.aux = true →
     let t := s.tally
     (∀ e : Event, s.raised = [] → e.code ≠ 0 → e.severity ≠ 5 →
       let n := tokensOf t e.code
       let x : Entry := { tb := s.tb, ev := e, refused := decide (n = 0) }
       let t1 := { t with buckets := setBucket t.buckets e.code (n - 1) (s.tokenFrom e.code) }
       (t.bbFrozen = false → t.freeze = false → t.copying = false → exec (.tallyEvent e) s = .next
         (({ s with tally := t1.enter x } : State).record s.tb e (decide (n = 0)))) ∧
       (t.bbFrozen = false → t.freeze = true → t.staging.length < 256 → ∃ v, v = t1.enter x ∧
         exec (.tallyEvent e) s = .next { s with tally := { v with staging := v.staging ++ [x] } }) ∧
       (t.bbFrozen = true → t.hold.length < 256 → t.freeze = false → t.copying = false →
         exec (.tallyEvent e) s = .next
           (({ s with tally := { t1 with hold := t.hold ++ [x] } } : State).record s.tb e (decide (n = 0))))) ∧
     (∀ e : Event, s.raised = [] → e.code ≠ 0 → e.severity = 5 → t.bbFrozen = false → t.freeze = false → t.copying = true →
       t.staging.length < 256 → s.flash.fatalHeld = false → ∃ u, exec (.tallyEvent e) s = .next u ∧
       u.tally.bbFrozen = true ∧ u.tally.bbCause = 1 ∧ u.tally.bbWriting = true ∧ u.tally.mirrorDue = true) ∧
     (∀ (code : BitVec 16) p, t.buckets.find? (fun q => q.1 = code) = some p →
       let k := tokenTicks (rateOf t code).1
       (p.2.1 < (rateOf t code).2 → s.passed p.2.2 k = true → exec (.tokenRefill code) s = .next
         { s with tally := { t with buckets := setBucket t.buckets code (p.2.1 + 1) (p.2.2 + BitVec.ofNat 64 k) } }) ∧
       ((rateOf t code).2 ≤ p.2.1 ∨ s.passed p.2.2 k = false → exec (.tokenRefill code) s = .next s)) ∧
     (∀ i, exec (.cursorWrite i) s = .next (s.latch i)) ∧
     (t.autoInc = true → exec .windowAutoAdvance s = .next
       ((s.emit (.window (BitVec.ofNat 32 (fieldB t.win 64 4)))).latch (t.cursor + 1))) ∧
     (t.autoInc = false → exec .windowAutoAdvance s = .next (s.emit (.window (BitVec.ofNat 32 (fieldB t.win 64 4))))) ∧
     (t.freeze = false → exec .freeze s = .next { s with tally := { t with freeze := true, freezeAt := s.tb } }) ∧
     (t.freeze = true → exec .unfreeze s = .next ({ s with tally := { t with freeze := false } } : State).endStaging) ∧
     (t.freeze = true → s.passed t.freezeAt 100000000 = true → exec .freezeTimeout s = .next
       ({ s with tally := { t with freeze := false, freezeTimeout := true } } : State).endStaging) ∧
     (t.mirrorDue = true → t.copying = false → t.mirroring = false → t.freeze = false → exec .mirror s = .next
       { s with tally := { t with
         shadow := some { seq := s.mirrorSeq + 1, tb := s.tb, life := s.flash.life, book := t.book }
         copying := true
         mirrorDue := false
         lastMirror := s.tb } }) ∧
     (t.copying = true → exec .shadowCopyEnd s = .next
       ({ s with
         flash := { s.flash with mirrors2 := t.shadow.map fun m => { m with complete := false } }
         tally := { t with copying := false, mirroring := true } } : State).endStaging) ∧
     (∀ m, t.shadow = some m → t.mirroring = true → exec .mirrorWriteEnd s = .next { s with
       flash := { s.flash with mirrors := some m, mirrors2 := s.flash.mirrors }
       tally := { t with mirroring := false, shadow := none, mirrorTime := m.tb } }) ∧
     (∀ (tb : Word) (e : Event) i, findRec t.book e.code e.source = some i → s.record tb e false =
       { s with tally := { t with book := tabSet noRec t.book i ((tabGet noRec t.book i).note false tb e) } })) ∧
  ((∀ (r : Rec) (fresh : Bool) (tb : Word) (e : Event),
     let q := r.note fresh tb e
     q.count = stickAdd r.count 1 ∧ q.last = tb ∧ q.first = (if fresh then tb else r.first) ∧
     q.severity.toNat = max r.severity.toNat e.severity.toNat ∧ q.code = r.code ∧ q.source = r.source ∧
     (∀ v, e.value = some v → q.sum = stickAdd r.sum v.toNat ∧ q.valued = true) ∧
     (∀ v, e.value = some v → r.valued = true → r.count ≠ 0 →
       q.min.toNat = min r.min.toNat v.toNat ∧ q.max.toNat = max r.max.toNat v.toNat) ∧
     (e.value = none → q.sum = r.sum ∧ q.min = r.min ∧ q.max = r.max ∧ q.bins = r.bins)) ∧
   (∀ (v : BitVec 32) (k : Nat), 1 ≤ k → k ≤ 14 → 2 ^ (k - 1) ≤ v.toNat → v.toNat < 2 ^ k → binOf v = k) ∧
   (binOf 0 = 0) ∧
   (∀ v : BitVec 32, 2 ^ 14 ≤ v.toNat → binOf v = 15))

/-- The window of the Tally Book (R369): a write of the cursor latches the record with the CRC of R365; an event
does not change the copy; with auto_inc a read of the last word advances the cursor and latches the next;
the source is the live book, the newest mirror or the other one. -/
def Obligations.TallyWindow : Prop :=
  ∀ s : State, s.pwr.aux = true →
    (∀ i : BitVec 13, ∃ u, exec (.cursorWrite i) s = .next u ∧ u.tally.cursor = i ∧
      u.tally.win = recBytes (tabGet noRec s.bookOf i.toNat) ++
        leBytes 4 (crc32c (recBytes (tabGet noRec s.bookOf i.toNat))).toNat) ∧
    (∀ (e : Event) (u : State), exec (.tallyEvent e) s = .next u → u.tally.win = s.tally.win ∧ u.tally.cursor = s.tally.cursor) ∧
    (s.tally.autoInc = true → ∃ u, exec .windowAutoAdvance s = .next u ∧ u.tally.cursor = s.tally.cursor + 1 ∧
      u.tally.win = winBytes (tabGet noRec s.bookOf (s.tally.cursor + 1).toNat)) ∧
    (s.tally.source = 0 → s.bookOf = s.tally.book) ∧
    (∀ m, s.tally.source = 1 → s.flash.mirrors = some m → m.complete = true → s.bookOf = m.book) ∧
    (∀ m, s.tally.source = 2 → s.flash.mirrors2 = some m → m.complete = true → s.bookOf = m.book)

/-- The black box and the lane tests (R374 to R376, R379, R380): the end of the ring's flash write fills the
fatal area and the ring goes on; release frees the area; the cursor counts back from the newest entry; a
test starts on a lane that can be tested, and its counters grow as the checker loses lock. -/
def Obligations.BlackBoxAndLaneTests : Prop :=
  (∀ (s : State), s.pwr.aux = true →
    let t := s.tally
    (t.bbFrozen = true → t.bbWriting = true → t.hold = [] → exec .ringWriteEnd s = .next { s with
      flash := { s.flash with
        fatalArea := some { entries := t.ring, cause := t.bbCause, life := s.flash.life }
        fatalHeld := !t.bbReleased }
      tally := { t with bbFrozen := false, bbWriting := false, bbReleased := false } }) ∧
    (t.bbWriting = true → exec .bbRelease s = .next { s with tally := { t with bbReleased := true } }) ∧
    (t.bbWriting = false → exec .bbRelease s = .next { s with flash := { s.flash with fatalHeld := false } }) ∧
    (∀ (c : BitVec 12) (x : Entry), t.ring.reverse[c.toNat]? = some x → exec (.bbCursorWrite c 0) s = .next
      { s with tally := { t with bbCursor := c, bbSource := 0, bbWin := entryBytes x } })) ∧
  (∀ (t : Tally) (x : Entry), (t.ring.length ≤ 4096 → (t.enter x).ring.length ≤ 4096) ∧
    (t.enter x).ring.getLast? = some x ∧
    (t.ring.length < 4096 → (t.enter x).ring = t.ring ++ [x])) ∧
  (∀ (fd lane : Nat) (s : State), fd = 2 ∨ s.pwr.transit = true →
    let t := s.test fd lane
    (s.testable fd lane = true → exec (.testStart fd lane) s = .next (s.setTest fd lane { t with
      bits := 0
      errs := 0
      efr := 0
      efrMax := 0
      started := true
      lock := false })) ∧
    (s.testable fd lane = false → exec (.testStart fd lane) s = .next (s.setTest fd lane { t with refused := true })) ∧
    (t.chk ≠ 0 → t.lock = false → s.testable fd lane = true → exec (.checkerLock fd lane) s = .next
      (s.setTest fd lane { t with lock := true, efr := 0 })) ∧
    (∀ bits errs run unc, t.lock = true → 32 < errs → errs ≤ bits → ∃ t1 : LaneTest, t1.lock = false ∧ t1.lockLost = stickAdd t.lockLost 1 ∧
      t1.bits = stickAdd t.bits bits ∧ t1.errs = stickAdd t.errs errs ∧
      t1.uncorr = (if t.fec then stickAdd t.uncorr unc else t.uncorr) ∧ (∃ base,
      exec (.checkerLockLost fd lane bits errs run unc) s = .next
        (((s.setTest fd lane t1).stuck (base + 0x10) t.bits t1.bits).stuck (base + 0x18) t.errs t1.errs))))

/-- Pins, cooling, MOVE and register writes (R8, R146, R258, R386, R393, R404, R408, R415, R417): what a service
request, a coolant sample every 100 ms and its limits held for their times, a thermal trip and a source's
presence bring; MOVE moves bytes
between the host and the partition's own memory; a write at an offset of BAR0 acts by the access code of
each field. -/
def Obligations.PinsMovesAndRegisters : Prop :=
  ∀ (s : State), s.pwr.aux = true →
    (s.serving = false → exec .serviceRequest s = .next
      ((({ s with gate := { s.gate with sig := { s.gate.sig with
        attnN := false, attnReq := true, attnTaken := true } } } : State).raise .serviceRequest 1).serviceAct)) ∧
    (s.serving = true → exec .serviceRequest s = .next s) ∧
    (s.gate.coolAt = none ∨ (∃ t, s.gate.coolAt = some t ∧ s.passed t 10000000 = true) →
      ∀ (a b c : BitVec 16), ∃ u, exec (.coolantSample a b c) s = .next u ∧
      u.gate.inlet = a ∧ u.gate.outlet = b ∧ u.gate.flow = c ∧ u.gate.coolAt = some s.tb ∧
      (u.gate.flowLow = if c.toNat < 500 then some (s.gate.flowLow.getD s.tb) else none) ∧
      (u.gate.flowTrip = if c.toNat < 100 then some (s.gate.flowTrip.getD s.tb) else none) ∧
      (u.gate.inletHot = if 4500 < a.toInt then some (s.gate.inletHot.getD s.tb) else none) ∧
      (u.gate.coolGood = if 500 ≤ c.toNat ∧ a.toInt ≤ 4500 then some (s.gate.coolGood.getD s.tb) else none)) ∧
    (s.cast.hold ≠ 1 → (∃ t, s.gate.flowLow = some t ∧ s.passed t 100000000 = true) ∨
        (∃ t, s.gate.inletHot = some t ∧ s.passed t 100000000 = true) → s.pwr.coolLimit = false →
      exec .coolingLow s = .next (({ s with
        pwr := { s.pwr with coolLimit := true }
        gate := { s.gate with coolingLow := true } } : State).raise .cooling 2)) ∧
    (s.cast.hold ≠ 1 → (∃ t, s.gate.coolGood = some t ∧ s.passed t 6000000000 = true) → s.pwr.coolLimit = true →
      exec .coolingRecovered s = .next { s with pwr := { s.pwr with coolLimit := false } }) ∧
    (s.cast.hold ≠ 1 → s.mainOn = true → (∃ t, s.pwr.tripSince = some t ∧ s.passed t 1000000 = true) ∨
        (∃ t, s.gate.flowTrip = some t ∧ s.passed t 200000000 = true) → exec .thermalTrip s = .next
      { s.loseMain with gate := { s.loseMain.gate with thermalTrip := true } }) ∧
    (∀ x p, x < 4 → ∃ u, exec (.ecsPresChange x p) s = .next u ∧ u.gate.sig.ecsPresent.getLsbD x = p ∧
      (∀ y, y < 4 → y ≠ x → u.gate.sig.ecsPresent.getLsbD y = s.gate.sig.ecsPresent.getLsbD y)) ∧
    (∀ r blk bytes, Starts s r 0x09 blk →
      let u := started s r
      let n := fieldB blk 24 4
      let a := fieldB blk 16 8
      (moveLen n = false → exec (.move r true bytes) s = .next (u.complete r (blkTag blk) stMalformed)) ∧
      (moveLen n = true → s.reach r a n = false → exec (.move r true bytes) s = .next (u.complete r (blkTag blk) stAddress)) ∧
      (moveLen n = true → s.reach r a n = true → exec (.move r false bytes) s = .next (u.complete r (blkTag blk) stDmaError)) ∧
      (moveLen n = true → s.reach r a n = true → exec (.move r true bytes) s = .next
        (u.moveBytes r (blkTag blk) (fieldB blk 8 8) a n ((nth blk 28 0).getLsbD 0) bytes))) ∧
    (∀ r tag ok, (s.ring r).fetched.any (fun c => c.started && decide (blkOp c.block = 0x09 ∧ blkTag c.block = tag)) = true →
      exec (.moveComplete r tag ok) s = .next (s.complete r tag (if ok then stOk else stDmaError))) ∧
    (∀ off width v, off < 0x10000000 → s.gate.sig.perstN = true → s.ideBlocked = false →
      exec (.registerWrite off width v) s = .next (s.writeAt off width false v)) ∧
    (∀ off width v, 0x200000000000 ≤ off → off < 0x200010000000 → s.cast.hold ≠ 1 →
      exec (.registerWrite off width v) s = .next (s.writeAt (off - 0x200000000000) width true v)) ∧
    (∀ width v, width ≠ 4 → width ≠ 8 → ∀ off, s.writeAt off width false v =
      { s with gate := { s.gate with badAccess := stickAdd s.gate.badAccess 1 } }) ∧
    (∀ v : Word, v.toNat < 16 → s.writeAt 0x108 4 false v =
      { s with gate := { s.gate with
        irqMailbox := s.gate.irqMailbox && !v.getLsbD 0
        irqRing := s.gate.irqRing && !v.getLsbD 1
        irqHold := s.gate.irqHold && !v.getLsbD 2
        irqFatal := s.gate.irqFatal && !v.getLsbD 3 } })

/-- Flock messages (R193, R261, R263, R265 to R269, R272, R273, R276, R278, R279, R284): one that passes every check
has its effect on the state in which its sender is noted, and the bellwether is the lowest eligible member
heard; one that fails is counted by the first check it fails. -/
def Obligations.FlockMessages : Prop :=
  ∀ (h : FlockHdr) (s : State),
    let key := h.sender.toNat
    let u := heardFrom s h key
    let hears := fun (b : FlockBody) => Hears s h b key
    (∀ tw es, hears (.gossip tw es) → u.inGroup h.sender = true → exec (.gossip h tw es) s = .next
      (((es.take 15).foldl (fun (v : State) e => v.updObsC e.subject fun o => { o with
          a := o.a || e.a
          aAt := if e.a then v.tb else o.aAt
          b := o.b || e.b
          bAt := if e.b then v.tb else o.bAt })
        (u.updObsC h.sender fun o => { o with gossipAt := u.tb, c := false })).learnBell.verdictAll).learnBell) ∧
    (∀ kind code g d, hears (.selfReport kind code g d) → kind = 1 ∨ kind = 3 → u.inGroup h.sender = true →
      exec (.selfReport h kind code g d) s = .next
        ((((u.withdrawOrder h.sender).updObs (posOf h.sender) fun o => { o with
          d := true, dAt := u.tb, suspended := false }).evaluateAll).verdictCheck (posOf h.sender)).learnBell) ∧
    (∀ kind code g d, hears (.selfReport kind code g d) → kind = 2 ∨ kind = 5 → u.inGroup h.sender = true →
      exec (.selfReport h kind code g d) s = .next
        (u.updObs (posOf h.sender) fun o => { o with suspended := true, suspAt := u.tb }).learnBell) ∧
    (∀ code (g : Byte) (d : Word), Hears s h (.selfReport 4 code g d) (2048 + d.toNat) →
      let w := heardFrom s h (2048 + d.toNat)
      let c := coordAt g.toNat 15
      w.shep.bellwether = true → w.inGroup c = true → w.spareOut w.ownGroup = true →
      exec (.selfReport h 4 code g d) s = .next ((w.flock (.admission c 0x7FF d)).applyAdmit c 0x7FF d).learnBell) ∧
    (∀ c cl, hears (.verdict c cl) → exec (.verdict h c cl) s = .next (u.acceptVerdict c cl h.term).learnBell) ∧
    (∀ c cause, hears (.pen c cause) → cause ≠ 3 → exec (.pen h c cause) s = .next (u.applyPen c).learnBell) ∧
    (∀ c dg, hears (.unpen c dg) → exec (.unpen h c dg) s = .next ({ u with shep := { u.shep with
      unpen := u.shep.unpen.filter (fun x => decide (x.2 ≠ dg)) ++ [(c, dg)] } } : State).learnBell) ∧
    (∀ m, hears (.claim m) → u.inGroup h.sender = true → newerTerm h.term u.shep.term = true →
      exec (.claim h m) s = .next ({ u with shep := { u.shep with
        term := h.term
        bell := h.sender
        bellValid := true
        bellwether := false
        passReports := u.shep.passReports || u.shep.bellwether } } : State).learnBell) ∧
    (∀ c job gen tile row, hears (.accuse c job gen tile row) →
      exec (.accuse h c job gen tile row) s = .next (u.takeAccuse c job tile).learnBell) ∧
    (∀ c p tile, hears (.probeOrder c p tile) → exec (.probeOrder h c p tile) s = .next
      (if u.isMine p then (u.noteNamed c tile).startProbe c tile else u.noteNamed c tile).learnBell) ∧
    (∀ c r d, hears (.probeResult c r d) →
      exec (.probeResult h c r d) s = .next (u.probeOutcome c h.sender r d).learnBell) ∧
    (∀ sc cause ind, hears (.expelReq sc cause ind) → u.shep.bellwether = true → u.inGroup h.sender = true →
      exec (.expelReq h sc cause ind) s = .next
        (u.evaluate { subject := h.sender, cause := cause, score := sc, lastEval := u.tb }).learnBell) ∧
    (∀ c slot left i, hears (.expelOrder c slot left) → u.inGroup c = true → u.freeBudget = some i →
      exec (.expelOrder h c slot left) s = .next
        (u.enterOrder c (if slot.toNat < 8 ∧ u.slotAt slot.toNat = 0 then slot.toNat else i)).learnBell) ∧
    (∀ c slot left, hears (.expelOrder c slot left) → u.inGroup c = true → u.freeBudget = none →
      exec (.expelOrder h c slot left) s = .next
        ({ u with shep := { u.shep with rejected := stickAdd u.shep.rejected 1 } } : State).learnBell) ∧
    (∀ c rs, hears (.expelRefused c rs) → u.isMine c = true → exec (.expelRefused h c rs) s = .next
      ({ u with shep := { u.shep with
        exSubject := c
        exState := 2
        exReasons := rs
        exScore := u.shep.score
        watch := true } } : State).learnBell) ∧
    (∀ c p dg, hears (.admission c p dg) → exec (.admitMsg h c p dg) s = .next (u.applyAdmit c p dg).learnBell) ∧
    (∀ w : State, w.lowest ≠ some (posOf w.shep.coord) → w.learnBell.shep.bellwether = false ∧
      w.learnBell.shep.bellValid = w.lowest.isSome ∧
      ∀ m, w.lowest = some m → w.learnBell.shep.bell = coordAt w.ownGroup m)

/-- The checks of a flock message in their order (R189, R192, R193): the way it comes by is open and its source not
fenced there, then length and CRC, version and type, pod, tag, and the alive-counter rule. A message that
fails one of the six is dropped, has no effect, and is counted by the first it fails; a packet of a fenced
source is dropped by the fabric die. -/
def Obligations.FlockChecksInOrder : Prop :=
  ∀ (h : FlockHdr) (s : State), s.shepOn = true → s.flash.owned = true → s.flockOpen h = true →
    let ends := fun (if_ : FlockBody → Prop) (u : State) =>
      (∀ tw es, if_ (.gossip tw es) → exec (.gossip h tw es) s = .next u) ∧
      (∀ k cd g d, k ≠ 4 → if_ (.selfReport k cd g d) → exec (.selfReport h k cd g d) s = .next u) ∧
      (∀ c cl, if_ (.verdict c cl) → exec (.verdict h c cl) s = .next u) ∧
      (∀ c k, if_ (.pen c k) → exec (.pen h c k) s = .next u) ∧
      (∀ c d, if_ (.unpen c d) → exec (.unpen h c d) s = .next u) ∧
      (∀ m, if_ (.claim m) → exec (.claim h m) s = .next u) ∧
      (∀ c j g t r, if_ (.accuse c j g t r) → exec (.accuse h c j g t r) s = .next u) ∧
      (∀ c p t, if_ (.probeOrder c p t) → exec (.probeOrder h c p t) s = .next u) ∧
      (∀ c r d, if_ (.probeResult c r d) → exec (.probeResult h c r d) s = .next u) ∧
      (∀ x k l, if_ (.expelReq x k l) → exec (.expelReq h x k l) s = .next u) ∧
      (∀ c x y, if_ (.expelOrder c x y) → exec (.expelOrder h c x y) s = .next u) ∧
      (∀ c r, if_ (.expelRefused c r) → exec (.expelRefused h c r) s = .next u) ∧
      (∀ c p d, if_ (.admission c p d) → exec (.admitMsg h c p d) s = .next u)
    let whole := fun (b : FlockBody) => h.len = 128 ∧ h.crc = flockCrc h b
    let verOk := h.version = 1 ∧ 1 ≤ h.type.toNat ∧ h.type.toNat ≤ 0x0D
    let podOk := s.flash.settings.plan.map (·.pod) = some h.pod
    let signed := fun (b : FlockBody) => ∃ e, e ∈ s.epochs ∧ h.tag = s.flockTag e h b
    let heard := (s.sender h.sender.toNat).hear h.alive
    let kept : State := { s with shep := { s.shep with
      senders := tabSet (fun _ => {}) s.shep.senders h.sender.toNat heard.1 } }
    (2 ≤ h.via.toNat → (s.fab (h.via.toNat - 2)).fenced h.sender = true →
      ends (fun _ => True) (s.countDrop (h.via.toNat - 2) dFenced)) ∧
    (s.flockFenced h = false →
      ends (fun b => ¬ whole b) (s.flockDrop 0) ∧
      (¬ verOk → ends whole (s.flockDrop 1)) ∧
      (verOk → ¬ podOk → ends whole (s.flockDrop 2)) ∧
      (verOk → podOk → ends (fun b => whole b ∧ ¬ signed b) (s.flockDrop 3)) ∧
      (verOk → podOk → heard.2 = .again →
        ends (fun b => whole b ∧ signed b ∧ h.type = b.type) (kept.flockDrop 4)) ∧
      (verOk → podOk → heard.2 = .jump →
        ends (fun b => whole b ∧ signed b ∧ h.type = b.type) (kept.flockDrop 5)))

/-- Timers of the flock and of the condition score (R260 to R263, R266, R269, R274 to R282): what each brings
once its time has passed, the score with its floor of 1, and the stay in the paddock. The accusation of a
job (R272) is kept, sent to the bellwether of the subject's group, and taken here when this module is of
that group; the result of a probe follows from the tiles that answered (Table 10-6). -/
def Obligations.FlockTimers : Prop :=
  (∀ (m : Nat) (s : State), s.shepOn = true → m < 16 →
     let o := s.obsOf m
     (s.shep.member = true → s.shep.paddock = false → s.shep.lastGossip = none → exec .gossipSend s = .next s.gossipNow) ∧
     (∃ f : Obs → Obs, exec (.reportLapse m) s = .next (s.updObs m f) ∧ ∀ x : Obs,
       (f x).a = (x.a && !s.passed x.aAt 20000000) ∧ (f x).b = (x.b && !s.passed x.bAt 20000000) ∧
       (f x).d = (x.d && !s.passed x.dAt 20000000) ∧
       (f x).score = x.score ∧ (f x).alive = x.alive) ∧
     (o.valid = true → s.passed o.gossipAt 3000000 = true → exec (.gossipLost m) s = .next
       (s.updObs m fun x => { x with c := true }).learnBell) ∧
     (o.suspended = true → s.passed o.suspAt 120000000000 = true → exec (.suspensionExpiry m) s = .next
       ((s.updObs m fun x => { x with suspended := false }).verdictCheck m)) ∧
     (s.shep.member = true → s.shep.bellwether = false → s.shep.hasCoord = true →
       s.lowest = some (posOf s.shep.coord) → s.bellLost = true → ∃ u, u = ({ s with shep := { s.shep with
           term := s.shep.term + 1, bellwether := true, bell := s.shep.coord, bellValid := true } } : State) ∧
         exec .bellwetherLost s = .next (u.flock (.claim s.heardMap)).verdictAll) ∧
     (∀ code : Byte, 1 ≤ code.toNat → code.toNat ≤ 7 → exec (.hardFault code) s = .next (s.hardFault code)) ∧
     (∀ i, i < 8 → s.slotAt i ≠ 0 → (s.slotAt i).toNat ≤ s.tb.toNat → exec (.budgetSlotExpiry i) s = .next
       (s.setBudget i 0).evaluateAll) ∧
     (s.shep.member = true → s.shep.trusted = false → s.passed s.shep.memberSince 8640000000000 = true →
       exec .counterTrusted s = .next ({ s with shep := { s.shep with trusted := true } } : State).evaluateAll) ∧
     (s.shep.bellwether = true → exec .expelReevaluation s = .next
       ((s.shep.requests.filter (fun r => s.passed r.lastEval 360000000000)).foldl State.evaluate s)) ∧
     (∀ h r, s.flash.owned = true → s.ctlFail h = none → ∃ u, u = s.seqAccept h false ∧
       exec (.reserveReport h r) s = .next ({ u with shep := { u.shep with reserve := r } } : State).evaluateAll) ∧
     (∀ x, s.shep.orders.find? (fun y => s.passed y.2.2 60000000000) = some x → s.shep.bellwether = true →
       exec .bindOffDeadline s = .next (((s.flock (.pen x.1 2)).applyPen x.1).sendAdmit x.1)) ∧
     (∀ r, s.shep.runs.find? (fun y => s.passed y.since 2000000) = some r → exec .probeDeadline s = .next (s.reportProbe r)) ∧
     (s.shep.indPast = [] → exec .indicatorCollect s = .next { s with shep := { s.shep with
       ind := (List.range 9).foldl (fun t i => tabSet (fun _ => (0 : BitVec 16)) t i (s.indValue i)) s.shep.ind
       indReads := s.indReads
       indAcc := s.indSums
       indPast := [(s.tb, s.indSums)] } }) ∧
     (∀ score : Byte, ∃ u, exec (.scoreWrite score) s = .next u ∧
       (s.shep.hard = true → u.shep.score = 0) ∧ (s.shep.hard = false → score ≠ 0 → u.shep.score = score) ∧
       (s.shep.hard = false → score = 0 → u.shep.score = 1)) ∧
     (∀ t, s.shep.padWait = some t → s.shep.paddock = true → s.gate.sig.mainEn = true → s.pwr.mainBarred = false →
       s.cast.running = false → s.passed t 1000000000 = true → exec .paddockMainRamp s = .next
         (({ s with shep := { s.shep with padWait := none } } : State).startRun .paddock)) ∧
     (s.shep.paddock = true → s.shep.padWait = none → s.pwr.transit = true → s.cast.running = false →
       s.cast.held = false → s.shep.clean ≠ 3 →
       (s.shep.padPhase = 0 → s.shep.lastPass = none ∨ (∃ t, s.shep.lastPass = some t ∧ s.passed t 360000000000 = true) →
         exec .paddockPass s = .next { s with shep := { s.shep with
           padPhase := 1
           passes := stickAdd s.shep.passes 1
           lastPass := some s.tb } }) ∧
       (s.shep.padPhase = 1 → exec .paddockPass s = .next
         { s.sweepMemory with shep := { s.sweepMemory.shep with padPhase := 2 } }) ∧
       (s.shep.padPhase = 2 → ∃ u, exec .paddockPass s = .next u ∧ u.shep.padPhase = 3 ∧
         ∀ fd lane, fd < 2 → lane < 192 → (u.test fd lane).gen = 6 ∧ (u.test fd lane).chk = 6 ∧
           (u.test fd lane).loop = 1 ∧ (u.test fd lane).fec = true)) ∧
     (s.shep.paddock = true → s.shep.padPhase = 3 →
       let v := fun (ok : Bool) => s.eachLane fun t => { t with
         gen := 0, chk := 0, loop := 0, started := false, lock := false
         bits := if ok then stickAdd t.bits 100000000000 else t.bits }
       (s.shep.clean ≠ 2 → ∀ c, exec (.paddockPassEnd true c) s = .next
         { v true with shep := { (v true).shep with padPhase := 0, clean := s.shep.clean + 1 } }) ∧
       (s.shep.clean = 2 → ∀ c, exec (.paddockPassEnd true c) s = .next
         ({ v true with shep := { (v true).shep with padPhase := 0, clean := 3 } } : State).graduateReport) ∧
       (∀ c, exec (.paddockPassEnd false c) s = .next
         (({ v false with shep := { (v false).shep with padPhase := 0, clean := 0 } } : State).hardFault c))) ∧
     (s.shep.paddock = true → s.shep.padPhase = 1 ∨ s.shep.padPhase = 2 → ∀ c,
       exec (.paddockPassEnd false c) s = .next
         (({ s with shep := { s.shep with padPhase := 0, clean := 0 } } : State).hardFault c) ∧
       exec (.paddockPassEnd true c) s = .next s) ∧
     (s.flash.owned = true → s.shep.paddock = true → s.passed s.shep.padProgressAt 6000000000 = true →
       exec .paddockProgress s = .next (({ s with shep := { s.shep with padProgressAt := s.tb } } : State).sendCtl
         1 [s.ownDigest.toNat, s.shep.clean.toNat, s.shep.padPhase.toNat, s.shep.passes.toNat])) ∧
     (s.shep.paddock = true → s.shep.clean = 3 → s.passed s.shep.padReportAt 60000000000 = true →
       exec .paddockReportRepeat s = .next s.graduateReport)) ∧
  ((∀ (r : Nat) (blk : Block) (s : State), Starts s r 0x08 blk →
     let u := started s r
     let c := BitVec.ofNat 11 (fieldB blk 8 2)
     let job := BitVec.ofNat 16 (fieldB blk 10 2)
     let tile := BitVec.ofNat 16 (fieldB blk 14 2)
     let v := ({ u with shep := { u.shep with accusing := u.shep.accusing ++ [(c, job)] } } : State).flock
       (.accuse c job (BitVec.ofNat 8 (fieldB blk 12 1)) tile (BitVec.ofNat 64 (fieldB blk 16 8)))
     exec (.accuseCommand r) s = .next ((if u.inGroup c then v.takeAccuse c job tile else v).complete r (blkTag blk) stOk)) ∧
   (∀ r : ProbeRun,
     (r.allAnswered = true → r.loopback = true → r.result = 0) ∧
     (r.allAnswered = true → r.loopback = false → r.result = 2) ∧
     (r.loopback = true ↔ 1024 ≤ r.looped) ∧
     (r.allAnswered = false → r.answered = [] → r.looped = 0 → r.result = 3) ∧
     (r.allAnswered = false → r.looped ≠ 0 → r.result = 1) ∧
     (r.allAnswered = false → r.answered ≠ [] → r.result = 1)) ∧
   (∀ o : Obs, o.suspended = false → o.a = true → o.b = true → twoClasses o.classes = true) ∧
   (∀ o : Obs, o.a = true → o.b = false → o.d = false → twoClasses o.classes = false))

/-- Watch and the expulsion request (R276): a module is on watch below SHEP.SCORE.watch and leaves it at watch +
8; below SHEP.SCORE.expel it sends EXPEL_REQ with cause 1, once, and withdraws the request at expel + 8. A
bellwether evaluates its own request. -/
def Obligations.WatchAndExpulsionRequest : Prop :=
  (State.reset.shep.watchThr = 160 ∧ State.reset.shep.expelThr = 96) ∧
  ∀ (score : Byte) (s : State), s.shepOn = true → s.shep.hard = false → score ≠ 0 → ∃ u,
    exec (.scoreWrite score) s = .next u ∧ u.shep.score = score ∧
    (score.toNat < s.shep.watchThr.toNat → u.shep.watch = true) ∧
    (s.shep.bellwether = false ∨ s.shep.expelThr.toNat ≤ score.toNat →
      (s.shep.watchThr.toNat + 8 ≤ score.toNat → u.shep.watch = false) ∧
      (s.shep.watchThr.toNat ≤ score.toNat → score.toNat < s.shep.watchThr.toNat + 8 → u.shep.watch = s.shep.watch)) ∧
    (score.toNat < s.shep.expelThr.toNat → s.shep.expelOpen = false → s.shep.member = true → s.twin.bindOff = none →
      (s.shep.bellwether = false → u.shep.expelOpen = true) ∧
      ∃ v : State, u = ((v.flock (.expelReq score 1 s.indList)).learnBell).ownRequest score ∧ v.out = s.out ∧
        v.shep.expelOpen = true) ∧
    (score.toNat < s.shep.expelThr.toNat → s.shep.expelOpen = true → u.shep.expelOpen = true ∧ u.out = s.out) ∧
    (s.shep.expelThr.toNat + 8 ≤ score.toNat → u.shep.expelOpen = false ∧ u.out = s.out)

/-- The twin sideband (R288, R300, R301): heartbeats and their silence, the twin's own reports, the handshake,
and the bind-off with its command. -/
def Obligations.TwinSideband : Prop :=
  ∀ (s : State), s.shepOn = true →
    (s.shep.sbSentAt = none ∨ (∃ t, s.shep.sbSentAt = some t ∧ s.passed t 100000 = true) → exec .heartbeatSend s = .next
      (({ s with shep := { s.shep with sbSentAt := some s.tb } } : State).sendSide 1 0)) ∧
    (∀ t, s.shep.sbSentAt = some t → s.passed t 100000 = false → exec .heartbeatSend s = .next s) ∧
    (∀ f n, SideHears s 1 f n → exec (.heartbeat f) s = .next { sideFrom s f n with shep := { (sideFrom s f n).shep with
      sbUp := true
      sbLast := (sideFrom s f n).tb
      sbSilent := false } }) ∧
    (∀ f : SideFrame, f.crc ≠ sideCrc 1 f → exec (.heartbeat f) s = .next
      { s with shep := { s.shep with sbCrc := stickAdd s.shep.sbCrc 1 } }) ∧
    (s.shep.sbSilent = false → s.passed s.shep.sbLast 1000000 = true → s.twin.paired = false →
      exec .heartbeatSilence s = .next { s with shep := { s.shep with sbUp := false, sbSilent := false } }) ∧
    (s.shep.sbSilent = false → s.passed s.shep.sbLast 1000000 = true → s.twin.paired = true → s.shep.hasCoord = true →
      exec .heartbeatSilence s = .next
        ({ s with shep := { s.shep with sbUp := false, sbSilent := true } } : State).ownReports.verdictAll) ∧
    (∀ f n, SideHears s 3 f n → let u := sideFrom s f n
      (f.kind = 1 → exec (.sidebandSelfReport f) s = .next (((u.goTwinless.withdrawOrder f.sender).updObsC f.sender
        fun o => { o with d := true, dAt := u.goTwinless.tb, suspended := false }).verdictCheck (posOf f.sender))) ∧
      (f.kind = 5 → exec (.sidebandSelfReport f) s = .next (u.updObsC f.sender
        fun o => { o with suspended := true, suspAt := u.tb }))) ∧
    (∀ f n, SideHears s 2 f n → let u := sideFrom s f n
      (u.coordOfDigest f.digest = some f.sender → u.shep.hasCoord = true → u.cast.coordValid = true →
        u.twin.sentHandshake = false → exec (.handshake f) s = .next u.sendHandshake.shakeHands) ∧
      (u.coordOfDigest f.digest ≠ some f.sender → exec (.handshake f) s = .next
        ((({ u with twin := { u.twin with crossed := true, twinless := true, handshake := false } } : State).raise
          .crossed 3).sendCtl 4 [f.sender.toNat, f.digest.toNat]))) ∧
    (s.twin.bindOff.isSome = true → s.pwr.drain = none → s.pwr.transit = true → s.boundOff = true →
      ∃ u, exec .bindOffCommit s = .next u ∧ u.shep.penned = true ∧ (∃ x, u.pwr.drain = some (.bindOff x, s.tb))) ∧
    (∀ r blk, Starts s r 0x24 blk →
      (s.twin.bindOff = none → s.pwr.drain = none → exec (.bindOff r) s = .next
        ((started s r).beginBindOff (some (r, blkTag blk)))) ∧
      (∀ t, s.twin.bindOff = some (none, t) → ∃ u, u = started s r ∧ exec (.bindOff r) s = .next
        { u with twin := { u.twin with bindOff := some (some (r, blkTag blk), t) } }) ∧
      (∀ c t, s.twin.bindOff = some (some c, t) → exec (.bindOff r) s = .next
        ((started s r).complete r (blkTag blk) stBusy)))

/-- Commits (R290, R292 to R296): the coordinator checks channels, fitness and limit in that order, then
streams; an acknowledgement with the seal, and nothing outstanding, makes the row ready; a commit that takes
too long fails with reason 3; the holder commits the sealed version at the notice; an export completes. -/
def Obligations.Commits : Prop :=
  ∀ (j : Nat) (s : State), s.shepOn = true → s.pwr.transit = true → j < 8 →
    (s.job j).valid = true → (s.commitAt j).isSome = true →
    let c := s.ckptJob j
    (c.state = 0 → s.earlierCommit j = false → exec (.commit j) s = .next (s.commitRun j)) ∧
    (s.channelsEmpty j = false → s.commitRun j = s.failCommit j 1) ∧
    (s.channelsEmpty j = true → (s.job j).unfit = true → s.commitRun j = s.failCommit j 4) ∧
    (s.channelsEmpty j = true → (s.job j).unfit = false → c.limitGib * 0x40000000 < s.coveredBytes j →
      s.commitRun j = s.failCommit j 2) ∧
    (s.channelsEmpty j = true → (s.job j).unfit = false → s.coveredBytes j ≤ c.limitGib * 0x40000000 →
      s.twin.twinless = true → s.commitRun j = (s.setCkptJob j { c with
        dirty := []
        frozen := s.someGrans j c.dirty
        unacked := []
        sealedAt := false }).commitReady j false) ∧
    (c.state.toNat ≤ 1 → s.passed c.arrival s.twin.timeout.toNat = true →
      exec (.commitTimeout j) s = .next (s.failCommit j 3)) ∧
    (s.channelsEmpty j = true → (s.job j).unfit = false → s.coveredBytes j ≤ c.limitGib * 0x40000000 →
      s.twin.twinless = false → c.fullNext = false →
      (c.reserveGib - c.limitGib) * 0x40000000 < (s.someGrans j c.dirty).length * 0x10000 →
      s.commitRun j = (s.setCkptJob j { c with
        dirty := []
        frozen := s.someGrans j c.dirty
        unacked := []
        sealedAt := false }).failCommit j 2) ∧
    (∀ fd p, Arrives s kCkptAck fd p none → p.src = s.twin.coord → ckptBack p = false →
      s.slotOfJob p.ident = some j → c.state = 1 → argRow p = (s.job j).row + 1 →
      (argBad p = false → ∃ u, u = s.updCkptJob j (fun x => { x with
          unacked := x.unacked.filter (fun g => !(ackRun p).contains g)
          sealedAt := x.sealedAt || ckptFlag p }) ∧
        exec (.ckptAck fd p) s = .next
          (if (u.ckptJob j).sealedAt && (u.ckptJob j).unacked.isEmpty then u.commitReady j true else u)) ∧
      (argBad p = true → exec (.ckptAck fd p) s = .next (s.failCommit j 5))) ∧
    (∀ fd p bad, Arrives s kCkpt fd p none → p.src = s.twin.coord → s.pwr.memory = true →
      (ckptBack p = false → exec (.ckpt fd p bad) s = .next (s.holdGran p bad)) ∧
      (ckptBack p = true → ckptFlag p = true → exec (.ckpt fd p bad) s = .next (s.serveRestore p)) ∧
      (ckptBack p = true → ckptFlag p = false → exec (.ckpt fd p bad) s = .next (s.restoreGran p bad))) ∧
    (∀ (p : Packet) n lead back flag, n < 16 → p.b23 = ckptByte n lead back flag →
      ckptUnit p = n ∧ ckptLead p = lead ∧ ckptBack p = back ∧ ckptFlag p = flag) ∧
    (∀ p row h, s.heldFor p.ident = some h → s.pwr.memory = true → p.src = s.twin.coord → p.jobGen = (s.heldJob h).jobGen →
      (s.heldJob h).sealed.any (fun v => decide (v.row = row)) = true →
      exec (.commitNotice p row) s = .next (s.promote h)) ∧
    (∀ h, h < 8 → (s.heldJob h).exportState = 1 → exec (.exportComplete h) s = .next (s.setHeldJob h { s.heldJob h with
      exportState := 2
      exportRow := (((s.heldJob h).pinned.getD 0).setWidth 60)
      pinned := none
      pinGrans := 0 }))

/-- Checkpoint commands (R292, R297, R298): the configuration of a job's checkpoints and its refusals; TINK
gives a job its row and generation and restores it; RESTORE_COMPLETE ends a restore once nothing is needed;
an import writes its granules. -/
def Obligations.CheckpointCommands : Prop :=
  ∀ (r j : Nat) (blk : Block) (s : State),
    let u := started s r
    let tag := blkTag blk
    let job := BitVec.ofNat 16 (fieldB blk 10 2)
    let res := fieldB blk 12 2
    let lim := fieldB blk 14 2
    let row := BitVec.ofNat 64 (fieldB blk 16 8)
    (∀ m, Starts s r 0x06 blk → s.slotOfJob job = some j → s.jobOfPart r = job → res % 16 = 0 → res ≤ 1024 → lim % 16 = 0 →
      lim < res → ∃ v, v = u.updCkptJob j (fun c => { c with
          map := if fieldB blk 32 4 = 0 then none else some m
          reserveGib := res
          limitGib := lim
          exportEvery := nth blk 16 0 }) ∧
        (v.coveredBytes j ≤ lim * 0x40000000 → s.twin.twinless = true →
          exec (.checkpointConfig r true m) s = .next (v.complete r tag stOk)) ∧
        (lim * 0x40000000 < v.coveredBytes j → exec (.checkpointConfig r true m) s = .next (u.complete r tag stLimit))) ∧
    (∀ m, Starts s r 0x06 blk → s.slotOfJob job = none → exec (.checkpointConfig r true m) s = .next (u.complete r tag stNoJob)) ∧
    (Starts s r 0x05 blk → s.slotOfJob job = some j → (s.ckptJob j).restoreTag = none → s.heldFor job = none →
      let gen := BitVec.ofNat 8 (fieldB blk 12 1)
      let need := (u.restoreNeeds j row false).1
      let v := ((({ u with
          jobHolds := u.jobHolds ++ [(job, (u.job j).jobGen, u.tb)]
          partJob := tabSet (fun _ => (0xFFFF : BitVec 16)) u.partJob r job } : State).dropEarly j).updJob j fun x => { x with
            jobGen := gen, row := row, hasRow := true, unfit := false, hurs := [], reds := [], lastHur := 0
            lastHurGen := 0 }).updCkptJob j fun c => { c with
              state := 4, unacked := [], sealedAt := false, needed := need, needAll := false, parts := [], restored := []
              total := none, restoreTag := some (r, tag) }
      (need = [] → s.twin.twinless = true → exec (.tink r) s = .next v) ∧
      (need ≠ [] → s.twin.twinless = true → exec (.tink r) s = .next (v.restoreEnd j stTwinUe)) ∧
      (s.twin.twinless = false → exec (.tink r) s = .next (v.askRestore j))) ∧
    (Starts s r 0x05 blk → s.slotOfJob job = some j → (s.ckptJob j).restoreTag.isSome = true →
      exec (.tink r) s = .next (u.complete r tag stBusy)) ∧
    (s.shepOn = true → j < 8 → (s.ckptJob j).state = 4 → (s.ckptJob j).needed = [] →
      (s.ckptJob j).needAll = false ∨ (∃ n, (s.ckptJob j).total = some n ∧ n ≤ (s.ckptJob j).restored.length) →
      ∀ q tg, (s.ckptJob j).restoreTag = some (q, tg) → exec (.restoreComplete j) s = .next
        ((s.setCkptJob j { s.ckptJob j with
          state := 0
          dirty := []
          frozen := []
          needed := []
          needAll := false
          parts := []
          restored := []
          total := none
          restoreTag := none }).complete q tg stOk)) ∧
    (∀ manifest grans, Starts s r 0x07 blk → s.slotOfJob job = some j → s.jobOfPart r = job →
      (s.ckptJob j).restoreTag = none →
      let data := u.importData j (BitVec.ofNat 128 (fieldB blk 24 16)) manifest grans
      (∀ plain, (s.job j).row = row → data = some plain → exec (.checkpointImport r manifest grans) s = .next
        (((((u.allGrans j).zip plain).foldl (fun (w : State) e => w.putGran e.1 e.2) u).updCkptJob j fun c => { c with
          state := 0
          dirty := []
          frozen := []
          needed := []
          needAll := false
          fullNext := true }).complete r tag stOk)) ∧
      ((s.job j).row = row → data = none → exec (.checkpointImport r manifest grans) s = .next (u.complete r tag stAuth)) ∧
      ((shake256 manifest).setWidth 128 ≠ BitVec.ofNat 128 (fieldB blk 24 16) → data = none) ∧
      ((s.job j).row ≠ row → exec (.checkpointImport r manifest grans) s = .next (u.complete r tag stRowMismatch)))

/-- Stages CO0 to CO5 (R125, R126, R130, R311, R312, R314, R329, R333 to R335, R349): identity, image choice, the
ramp, the defect map read from its record, LPDDR5X training at the highest rate at which every channel in use
qualifies, and the self-test, each ending with its report; the failures of CO0,
CO1, CO2 and CO3 with their faults. -/
def Obligations.CastOnStagesCo0ToCo5 : Prop :=
  ∀ s : State,
    (s.atStage 0 = true → ∀ corr seed rom rd gd sd,
      let s1 : State := { s with sec := { s.sec with pufStatus := 0, pufCorr := corr } }
      let m := ({ s1 with sec := { s1.sec with unitId := shake256 ([0x47, 0x58, 0x55, 0x4E, 0x49, 0x54] ++ digBytes seed) } } :
          State).measure 1 (shake256 (leBytes 4 rom.toNat ++ digBytes rd))
      ∃ g h, exec (.castOnCo0 0 corr seed rom rd gd sd) s = .next (m.endStage { d := [0, rom, g, h] }) ∧
        (∀ n, m.co0Slot = some n → (m.slotOf n).shipped = false →
          g = (compDigest (m.slotOf n) 1).setWidth 32 ∧ h = (compDigest (m.slotOf n) 2).setWidth 32) ∧
        (∀ n, m.co0Slot = some n → (m.slotOf n).shipped = true → g = gd.setWidth 32 ∧ h = sd.setWidth 32) ∧
        (m.co0Slot = none → g = 0xFFFFFFFF ∧ h = 0xFFFFFFFF)) ∧
    (s.atStage 0 = true → ∀ st corr id rom rd gd sd, st ≠ 0 → ∃ u d, u = ({ s with sec := { s.sec with
        pufStatus := st, pufCorr := corr } } : State) ∧
      exec (.castOnCo0 st corr id rom rd gd sd) s = .next (u.endStage { result := 2, fault := 2, d := d })) ∧
    (s.atStage 1 = true → ∀ a b,
      let info := fun (n : Nat) => s.slotFacts n (if n = 0 then a else b)
      let c := s.frogTrial.chooseSlot info
      (∀ n late, c.2 = some (n, late) → exec (.castOnCo1 a b) s = .next (c.1.bootImage n (info n) late)) ∧
      (c.2 = none → ∃ d, exec (.castOnCo1 a b) s = .next (c.1.endStage { result := 2, fault := 3, d := d }))) ∧
    (s.atStage 2 = true → s.gate.sig.mainEn = true → s.pwr.mainBarred = false → ∀ (vin ramp : BitVec 32) n,
      let s0 : State := { s with gate := { s.gate with vin := (vin / 10).setWidth 16 } }
      let u := s0.ramp
      (exec (.castOnCo2 [] n 0 none vin ramp) s = .next
        (u.endStage { d := [100, 255, dw n, 0, u.islandBits, vin, ramp] })) ∧
      (∀ m, m ≠ 0 → ∃ d h, exec (.castOnCo2 [] n m none vin ramp) s = .next
        (u.endStage { result := 2, fault := 5, d := d, hard := h })) ∧
      (∀ i, ∃ d, exec (.castOnCo2 [] n 0 (some (some i)) vin ramp) s = .next
        (s0.endStage { result := 2, fault := 4, d := d, hard := some 7 }))) ∧
    (s.atStage 2 = true → s.gate.sig.mainEn = false → ∀ a b c d e f, exec (.castOnCo2 a b c d e f) s = .next s) ∧
    (s.atStage 3 = true → ∀ (record : List Byte),
      let u := s.zeroSlices.co3Maps (defectsOf record) (shake256 record)
      let good := s.recordOk 0x4D445847 record = true ∧ fieldB record 8 4 = 64 + 8 * fieldB record 6 2
      (good → u.dieOut = true → ∃ d, exec (.castOnCo3 record true) s = .next
        (u.endStage { result := 2, fault := 8, d := d, hard := some 5 })) ∧
      (good → u.dieOut = false → ∃ res d, (res = 0 ∨ res = 1) ∧
        exec (.castOnCo3 record true) s = .next (u.endStage { result := res, d := d })) ∧
      (∀ sigOk, sigOk = false ∨ ¬ good → exec (.castOnCo3 record sigOk) s = .next
        (s.endStage { result := 2, fault := 6, d := List.replicate 7 0xFFFFFFFF })) ∧
      (s.recordOk 0x4D445847 record = true → fieldB record 0 4 = 0x4D445847 ∧ fieldB record 12 4 = 0x00484D01 ∧
        BitVec.ofNat 256 (fieldB record 16 32) = s.sec.unitId ∧
        BitVec.ofNat 32 (fieldB record 60 4) = crc32c (record.take 60) ∧ record.length = fieldB record 8 4 + 2820)) ∧
    (s.atStage 4 = true → ∀ quals temps,
      let u := s.co4Train quals
      let bad := s.co4Bad quals
      let er := fun (k : Nat) => (u.stack (k / 5) (k % 5)).erasedN
      (∀ n, n < 8 → (u.md n).rate = BitVec.ofNat 3 (co4Rate quals bad n)) ∧
      (∀ n r, 1 ≤ r → r ≤ 4 → (co4Rate quals bad n = r →
        (∀ i, i < 90 → (5 * n + i / 18, i % 18) ∈ bad ∨ qualifiesAt quals (5 * n + i / 18, i % 18) r = true)) ∧
        ((∀ i, i < 90 → (5 * n + i / 18, i % 18) ∈ bad ∨ qualifiesAt quals (5 * n + i / 18, i % 18) r = true) →
          r ≤ co4Rate quals bad n)) ∧
      ((List.range 40).any (fun k => decide (2 ≤ er k)) = true → ∃ d,
        exec (.castOnCo4 quals temps) s = .next (u.endStage { result := 2, fault := 7, d := d, hard := some 3 })) ∧
      ((List.range 40).any (fun k => decide (2 ≤ er k)) = false → ∃ v d ft,
        exec (.castOnCo4 quals temps) s = .next (State.endStage v
          { result := if (List.range 40).any (fun k => decide (er k = 1)) then 1 else 0, d := d, fast := ft }) ∧
        v.mds = u.mds ∧ v.flash.settings = u.flash.settings)) ∧
    (s.atStage 5 = true → ∀ failed noAck,
      let u := s.co5Test (s.co5Bad failed noAck)
      (u.dieOut = true → ∃ d, exec (.castOnCo5 failed noAck) s = .next
        (u.endStage { result := 2, fault := 8, d := d, hard := some 5 })) ∧
      (u.dieOut = false → ∃ res d, (res = 0 ∨ res = 1) ∧ (s.co5Bad failed noAck ≠ [] → res = 1) ∧
        exec (.castOnCo5 failed noAck) s = .next (u.endStage { result := res, d := d })))

/-- Stages CO6 to CO9, the plan, and what runs cast-on from outside (R308 to R310, R315 to R327, R358): the
electrical links, the light, discovery and the joining of the flock; a limit that passes fails the stage; a
retry goes on from the hold state's stage; a plan is taken where it is signed and newer. The end of a stage
(R305, R306, R308): its report is written; a result of 2 leads to the hold state of its fault; any other
leads to the next stage of the run, or ends the run; a penned module without a hard fault goes to the paddock
after the CO7 that follows a main reset (R270; log entry 58). -/
def Obligations.CastOnStagesCo6ToEnd : Prop :=
  (∀ s : State,
     (s.atStage 6 = true → ∀ lanes,
       let os := (lanes.filter (fun o => decide (o.lane < 384) && o.partner.isSome)).map s.laneEnd
       let n := countIf os s.laneQuick
       let u := (List.range 24).foldl (fun (v : State) p => v.trainPort os (decide (s.cast.run = .refclk)) (p / 12) (p % 12))
         (s.qualify os)
       ∃ d, exec (.castOnCo6 lanes) s = .next (((u.setFast 1 n (os.length - n)).saveLanes os).endStage
         { result := if (byResult os 3).isEmpty then 0 else 1, d := d, fast := decide (n ≠ 0) })) ∧
     (s.atStage 7 = true → s.ecsAwaited = true → s.passed s.cast.stageStart (stageLimit 7) = false →
       ∀ a b c d, exec (.castOnCo7 a b c d) s = .next s) ∧
     (s.atStage 7 = true → s.ecsAwaited = false → ∀ sources gauges temps lanes,
       ((List.range 4).any (fun x => (s.co7Source sources x).isNone) = true → ∃ d,
         exec (.castOnCo7 sources gauges temps lanes) s = .next
           ((s.checkSources sources).endStage { result := 2, fault := 9, d := d })) ∧
       ((List.range 4).any (fun x => (s.co7Source sources x).isNone) = false →
         let valid := (List.range 4).filter (s.gaugeValid gauges)
         let u := s.co7Start sources valid gauges temps
         let ys := u.co7Yarns
         let v := ys.foldl State.seekYarn u
         let os := if ys.isEmpty then [] else (opticalOnes lanes).map s.laneEnd
         let n := countIf ys v.yarnFast
         (valid ≠ [] → valid.filter (fun n => (v.engine n).run) = [] → ∃ d,
           exec (.castOnCo7 sources gauges temps lanes) s = .next ((v.qualify os).endStage { result := 2, fault := 10, d := d })) ∧
         (valid = [] ∨ valid.filter (fun n => (v.engine n).run) ≠ [] → ∃ res d, (res = 0 ∨ res = 1) ∧
           exec (.castOnCo7 sources gauges temps lanes) s = .next
             (((((v.qualify os).setFast 2 n (ys.length - n)).saveLanes os).saveYarns ys).endStage
               { result := res, d := d, fast := decide (n ≠ 0) })))) ∧
     (s.atStage 8 = true → s.flash.owned = true → ∀ lanes p, s.flash.settings.plan = some p →
       (∀ c, s.cast.run ≠ .joining → s.coordOfDigest s.ownDigest = some c → exec (.castOnCo8 lanes) s = .next (s.runCo8 p c lanes)) ∧
       (s.cast.run ≠ .joining → s.coordOfDigest s.ownDigest = none → ∃ d, exec (.castOnCo8 lanes) s = .next
         (s.endStage { result := 2, fault := 11, d := d }))) ∧
     (s.atStage 9 = true →
       (s.joinFlock.twin.paired = false ∨ s.joinFlock.twin.handshake = true → exec .castOnCo9 s = .next s.joinFlock.endCo9) ∧
       (s.joinFlock.twin.paired = true → s.joinFlock.twin.handshake = false → exec .castOnCo9 s = .next s.joinFlock)) ∧
     (∀ st, st < 8 → s.atStage st = true → st ≠ 7 ∨ s.ecsAwaited = false → s.passed s.cast.stageStart (stageLimit st) = true → exec .stageTimeout s = .next
       (s.endStage { result := 2, fault := 1, d := List.replicate 7 0xFFFFFFFF })) ∧
     (s.pwr.aux = true → s.cast.held = true → s.shep.hard = false → ∃ u first, exec .castRetry s = .next u ∧
       u.cast.running = true ∧ u.cast.retried = true ∧ u.cast.held = false ∧ u.cast.stage = first ∧
       (s.cast.hold = 1 → first = 0) ∧ (s.cast.hold = 2 → first = 2) ∧ (s.cast.hold = 3 → first = s.cast.failedStage)) ∧
     (s.shepOn = true → s.cast.held = true → s.cast.planWait = true → s.cast.hold = 3 → s.shep.hard = false →
       s.passed s.cast.stageStart 1000000000 = true → s.passed s.cast.lastRetry 1000000000 = true → ∃ u,
       exec .planWaitRetry s = .next u ∧ u.cast.running = true ∧ u.cast.stage = 8 ∧ u.cast.retried = true ∧ u.cast.lastRetry = s.tb) ∧
     (s.shepOn = true → s.flash.owned = true → s.cast.held = true → s.cast.hold = 2 ∨ s.cast.hold = 3 →
       s.passed s.cast.lastReport 6000000000 = true → exec .holdReport s = .next
         (({ s with cast := { s.cast with lastReport := s.tb } } : State).sendCtl 5
           (s.ownDigest.toNat :: (reportBytes (s.report s.cast.failedStage.toNat)).map (·.toNat)))) ∧
     (∀ r blk plan dg, StartsEarly s r 0x25 blk → s.flash.owned = true →
       (s.planOk plan = true → exec (.planLoad r true true plan dg) s = .next
         (((started s r).acceptPlan plan dg).complete r (blkTag blk) stOk)) ∧
       (s.planOk plan = false → exec (.planLoad r true true plan dg) s = .next ((started s r).complete r (blkTag blk) stAuth)) ∧
       (exec (.planLoad r true false plan dg) s = .next (((started s r).authFail 4).complete r (blkTag blk) stAuth))) ∧
     (∀ h plan dg, s.pwr.aux = true → s.flash.owned = true → s.cast.hold ≠ 1 → s.ctlFail h = none → s.planOk plan = true →
       exec (.planMessage h true plan dg) s = .next ((s.seqAccept h true).acceptPlan plan dg))) ∧
  (∀ (s : State) (e : StageEnd),
     let s1 := s.writeReport e
     let s2 : State := { s1 with cast := { s1.cast with degraded := s1.cast.degraded || decide (e.result = 1) } }
     (e.result = 2 → s.endStage e = s2.holdState e) ∧
     let goesOn := (e.result = 0 ∨ e.result = 1) ∧ (s.cast.stage ≠ 7 ∨ s.cast.run ≠ .main ∨ s2.padReady = false)
     (e.result = 0 ∨ e.result = 1 → s.cast.stage = 7 → s.cast.run = .main → s2.padReady = true →
       s.endStage e = s2.enterPaddock) ∧
     (goesOn → ∀ n, s2.cast.run.next s2.cast.stage.toNat = some n → s.endStage e = s2.startStage n) ∧
     (goesOn → s2.cast.run.next s2.cast.stage.toNat = none → s.endStage e = s2.endRun) ∧
     (s.stageReport e).valid = true ∧ (s.stageReport e).start = s.cast.stageStart ∧
     (s.stageReport e).duration = s.tb - s.cast.stageStart ∧ (s.stageReport e).run = s.flash.run ∧
     (∀ st, holdOf st 2 = 1 ∧ holdOf st 3 = 1 ∧ holdOf st 4 = 2 ∧ holdOf st 5 = 2 ∧ holdOf st 6 = 2 ∧ holdOf st 7 = 2 ∧
       holdOf st 8 = 2 ∧ holdOf st 9 = 3 ∧ holdOf st 10 = 3 ∧ holdOf st 11 = 3 ∧ holdOf st 12 = 3 ∧ holdOf st 13 = 2 ∧
       holdOf st 14 = 3) ∧
     CastRun.next .full 0 = some 1 ∧ CastRun.next .full 9 = none ∧ CastRun.next .main 2 = some 3 ∧
     CastRun.next (.island 0) 3 = some 5 ∧ CastRun.next .paddock 7 = none ∧ CastRun.next .refclk 4 = some 6)

/-- The machine right after reset: aux power has just come, main is off, cast-on is about to begin without a
coordinate, memory lists nothing and is canonical, and the registers named hold the values of their Reset
columns. -/
def Obligations.ResetState : Prop :=
  let r := State.reset
  r.pending = [] ∧ Memory.wf r = true ∧ r.mem = [] ∧ r.tb = 0 ∧
  r.pwr.transit = false ∧ r.pwr.memory = false ∧ r.pwr.islands = 0 ∧
  r.cast.running = false ∧ r.cast.begun = false ∧ r.cast.stage = 0 ∧ r.cast.ready = false ∧ r.cast.run = .full ∧
  r.shep.coord = 0x7FF ∧ r.shep.hasCoord = false ∧ r.shep.score = 255 ∧ r.shep.watchThr = 160 ∧ r.shep.expelThr = 96 ∧
  r.shep.bellValid = false ∧ r.hurTimeout = 100000000 ∧
  (∀ d, (r.die d).window = 10000 ∧ (r.die d).beatMin = 0xFFFFFFFF ∧ (r.die d).beatCount = 0) ∧
  (∀ n, (r.fab n).hopInit = 8 ∧ (r.fab n).nonminThresh = 192 ∧ (r.fab n).wReq = 4 ∧ (r.fab n).routes = []) ∧
  (∀ n, (r.md n).eraseThresh = 64 ∧ (r.md n).passHours = 24 ∧ (r.md n).scrubEnable = true) ∧
  (∀ n, n < 9 → (r.ring n).enable = false ∧ (r.ring n).cmdLog2 = 8 ∧ (r.ring n).cplLog2 = 8 ∧ (r.ring n).pollUs = 10) ∧
  r.tally.rateDef = 16 ∧ r.tally.burstDef = 64 ∧ r.tally.book = [] ∧ r.tally.bbFrozen = false ∧
  (∀ t c, (r.ctx t c).mode = .empty) ∧ (∀ j, (r.job j).valid = false)

/-- Frames of the stage classes. A control, scalar or vector instruction changes nothing but the contexts and
the front end of its own tile, the events raised and the fault records, and the model's counter of free
values: memory, the instruction stores and every other block stand. A scalar store changes no byte outside
the bytes at its effective address. -/
def Obligations.StageFrames : Prop :=
  (∀ (i : Instr) (t : Nat) (w : Word) (s u : State), stageWord i = some (t, w) →
    (wMajor w = 0x00 ∨ wMajor w = 0x08 ∨ wMajor w = 0x09 ∨ wMajor w = 0x10) → (s.tile t).owner < 4 →
    exec i s = .next u →
    u = { s with free := u.free, tiles := u.tiles, ctxs := u.ctxs, raised := u.raised, faultRecs := u.faultRecs } ∧
    (∀ t', t' ≠ t → u.tile t' = s.tile t' ∧ ∀ c, c < 4 → u.ctx t' c = s.ctx t' c) ∧
    (∀ c, c < 4 → c ≠ (s.tile t).owner → u.ctx t c = { s.ctx t c with mode := (u.ctx t c).mode }) ∧
    (∀ a, u.readByte a = s.readByte a)) ∧
  (∀ (t : Nat) (o : Op) (s u : State) (b : Nat),
    let x := s.ctx t (s.tile t).owner
    let at_ := fun (n : Nat) => winAddr t x (effAddr x (fA o.body) (fImm o.body) n)
    (exec (.stoSt8 t o) s = .next u → b < at_ 1 ∨ at_ 1 + 1 ≤ b → u.cell b = s.cell b) ∧
    (exec (.stoSt16 t o) s = .next u → b < at_ 2 ∨ at_ 2 + 2 ≤ b → u.cell b = s.cell b) ∧
    (exec (.stoSt32 t o) s = .next u → b < at_ 4 ∨ at_ 4 + 4 ≤ b → u.cell b = s.cell b) ∧
    (exec (.stoSt64 t o) s = .next u → b < at_ 8 ∨ at_ 8 + 8 ≤ b → u.cell b = s.cell b) ∧
    (exec (.stoStv t o) s = .next u → b < at_ 32 ∨ at_ 32 + 256 ≤ b → u.cell b = s.cell b))

/-- Every step keeps the canonical form of memory: addresses rise strictly and no byte is listed that an
unlisted address reads as; so do the records of bad units and of line keys. -/
def Obligations.MemoryFormKept : Prop :=
  ∀ s u : State, Memory.wf s = true → step s = .next u → Memory.wf u = true

/-- What a read of BAR0 returns and leaves (R7, R8, R386), the status indicator (R406) and ALERT_N (R414). A read has no
row of the command table: it is a function of the state. An access that BAR0 does not take returns 0 and is
counted, one of a block without power returns ones, and no other read outside TALLY.WIN changes anything; a
wide register is one value of one instant, read at once or by halves; a written RW field reads back, RSV bits
read 0, a W1C bit reads as it stands and a WO register 0. That the indicator is dark where no row of Table 16-1
holds, and that ALERT_N is released in hold state 1, is the model's (log entry 61). -/
def Obligations.RegisterReads : Prop :=
  (∀ (off width : Nat) (s : State),
     let counted : State := { s with gate := { s.gate with badAccess := stickAdd s.gate.badAccess 1 } }
     (width ≠ 4 → width ≠ 8 → s.readAt off width = (0, counted)) ∧
     (off % width ≠ 0 → s.readAt off width = (0, counted)) ∧
     (blkAt off = none → s.readAt off width = (0, counted)) ∧
     (∀ b n o, blkAt off = some (b, n, o) → s.blkOn b n = false → width = 4 ∨ width = 8 → off % width = 0 →
       s.readAt off width = (if width = 8 then BitVec.allOnes 64 else 0xFFFFFFFF,
         { s with gate := { s.gate with domainOff := true } })) ∧
     (∀ b n o, blkAt off = some (b, n, o) → s.blkOn b n = true → b ≠ .tally →
       (s.readAt off width).2 = s ∨ s.readAt off width = (0, counted))) ∧
  (∀ (b : Blk) (n o : Nat) (d : RegDef) (is : List Nat) (s : State),
     regAt b n o = some (d, is, false) → regAt b n (o + 4) = some (d, is, true) →
     s.readBlk b n o 8 = some (s.readReg b n d is) ∧
     s.readBlk b n o 4 = some (s.readReg b n d is &&& 0xFFFFFFFF) ∧
     s.readBlk b n (o + 4) 4 = some (s.readReg b n d is >>> 32)) ∧
  (∀ (v : Word) (s : State),
     (s.readAt 0x200 8).1 = s.tb ∧
     ((s.writeAt 0x104 4 false v).readAt 0x104 4).1 = v &&& 0xF03F ∧
     ((s.writeAt 0x108 4 false v).readAt 0x108 4).1 = (s.readAt 0x108 4).1 &&& ~~~ v ∧
     s.readSec 0x50 0 0 = 0) ∧
  (∀ s : State,
     (s.pwr.aux = false → s.statusIndicator = .off) ∧
     (s.pwr.aux = true →
       (s.pwr.mainBarred = true → s.statusIndicator = .blue) ∧
       (s.pwr.mainBarred = false →
         (s.shep.hard = true ∨ s.cast.held = true → s.statusIndicator = .amber) ∧
         (s.shep.hard = false → s.cast.held = false →
           (s.shep.penned = true ∨ s.shep.paddock = true → s.statusIndicator = .amberBlink) ∧
           (s.shep.penned = false → s.shep.paddock = false →
             (s.cast.running = true → s.statusIndicator = .greenBlink) ∧
             (s.cast.running = false → s.cast.ready = true → s.statusIndicator = .green))))) ∧
     (s.alertLow = true ↔ s.pwr.aux = true ∧ s.cast.hold ≠ 1 ∧
       (s.gate.irqFatal = true ∨ s.gate.irqHold = true ∨ s.shep.penned = true)))
end

