-- ==== Sys2Proof/Laws/Tab.lean ====
section
/-! SUPPORT. What reading, writing and filtering a sparse table does. -/

namespace Sys2Proof.Machine

variable {α : Type} [DecidableEq α] {d : Nat → α} {t : List (Nat × α)}

theorem tabWfFrom_mono {n m : Nat} (h : n ≤ m) : tabWfFrom d m t = true → tabWfFrom d n t = true := by
  cases t with
  | nil => intro _; rfl
  | cons e t =>
    simp only [tabWfFrom, Bool.and_eq_true, decide_eq_true_eq]
    rintro ⟨⟨h1, h2⟩, h3⟩
    exact ⟨⟨by omega, h2⟩, h3⟩

/-- A key below every listed one reads its default. -/
theorem tabGet_below {n k : Nat} (h : tabWfFrom d n t = true) (hk : k < n) : tabGet d t k = d k := by
  induction t generalizing n with
  | nil => rfl
  | cons e t ih =>
    obtain ⟨a, v⟩ := e
    simp only [tabWfFrom, Bool.and_eq_true, decide_eq_true_eq] at h
    rw [tabGet, if_neg (by omega)]
    exact ih h.2 (by omega)

/-- Writing another key leaves a key as it reads. -/
theorem tabGet_tabSet_ne {k j : Nat} (v : α) (h : j ≠ k) : tabGet d (tabSet d t k v) j = tabGet d t j := by
  induction t with
  | nil =>
    simp only [tabSet]; split
    · rfl
    · simp [tabGet, h]
  | cons e t ih =>
    obtain ⟨a, w⟩ := e
    simp only [tabSet]
    split
    · split
      · rfl
      · rw [tabGet, if_neg h]
    · split
      · split
        · subst_vars; rw [tabGet, if_neg h]
        · subst_vars; rw [tabGet, if_neg h, tabGet, if_neg h]
      · simp only [tabGet]; split
        · rfl
        · exact ih

/-- A canonical table reads back what is written at a key. -/
theorem tabGet_tabSet_same {k n : Nat} (v : α) (h : tabWfFrom d n t = true) : tabGet d (tabSet d t k v) k = v := by
  induction t generalizing n with
  | nil =>
    simp only [tabSet]; split
    · next e => rw [tabGet, e]
    · simp [tabGet]
  | cons e t ih =>
    obtain ⟨a, w⟩ := e
    simp only [tabWfFrom, Bool.and_eq_true, decide_eq_true_eq] at h
    simp only [tabSet]
    split
    · next lt =>
      split
      · next e =>
        rw [tabGet, if_neg (by omega), e]
        exact tabGet_below h.2 (by omega)
      · simp [tabGet]
    · split
      · next eq =>
        split
        · next e => rw [e]; exact tabGet_below h.2 (by omega)
        · simp [tabGet]
      · next ne => rw [tabGet, if_neg ne]; exact ih h.2

theorem tabSet_wfFrom {k n : Nat} (v : α) (h : tabWfFrom d n t = true) (hk : n ≤ k) :
    tabWfFrom d n (tabSet d t k v) = true := by
  induction t generalizing n with
  | nil =>
    simp only [tabSet]; split
    · rfl
    · next e => simp [tabWfFrom, hk, e]
  | cons e t ih =>
    obtain ⟨a, w⟩ := e
    have h0 := h
    simp only [tabWfFrom, Bool.and_eq_true, decide_eq_true_eq] at h
    obtain ⟨⟨h1, h2⟩, h3⟩ := h
    simp only [tabSet]
    split
    · next lt =>
      split
      · exact h0
      · next e =>
        simp only [tabWfFrom, Bool.and_eq_true, decide_eq_true_eq]
        exact ⟨⟨hk, by simp [e]⟩, ⟨by omega, h2⟩, h3⟩
    · split
      · next eq =>
        split
        · exact tabWfFrom_mono (by omega) h3
        · next e =>
          simp only [tabWfFrom, Bool.and_eq_true, decide_eq_true_eq]
          exact ⟨⟨hk, by simp [e]⟩, eq ▸ h3⟩
      · next ne =>
        simp only [tabWfFrom, Bool.and_eq_true, decide_eq_true_eq]
        exact ⟨⟨h1, h2⟩, ih h3 (by omega)⟩

/-- Writing a key keeps the canonical form. -/
theorem tabSet_wf {k : Nat} (v : α) (h : tabWf d t = true) : tabWf d (tabSet d t k v) = true :=
  tabSet_wfFrom v h (Nat.zero_le k)

/-- Dropping entries keeps the canonical form. -/
theorem tabFilter_wfFrom {n : Nat} (p : Nat × α → Bool) (h : tabWfFrom d n t = true) :
    tabWfFrom d n (t.filter p) = true := by
  induction t generalizing n with
  | nil => rfl
  | cons e t ih =>
    obtain ⟨a, w⟩ := e
    simp only [tabWfFrom, Bool.and_eq_true, decide_eq_true_eq] at h
    obtain ⟨⟨h1, h2⟩, h3⟩ := h
    rw [List.filter_cons]
    split
    · simp only [tabWfFrom, Bool.and_eq_true, decide_eq_true_eq]
      exact ⟨⟨h1, h2⟩, ih h3⟩
    · exact tabWfFrom_mono (by omega) (ih h3)

theorem tabFilter_wf (p : Nat × α → Bool) (h : tabWf d t = true) : tabWf d (t.filter p) = true :=
  tabFilter_wfFrom p h

omit [DecidableEq α] in
/-- The entries that a filter on keys drops read as their default; the others are as before. -/
theorem tabGet_filter (q : Nat → Bool) (k : Nat) :
    tabGet d (t.filter fun e => q e.1) k = if q k then tabGet d t k else d k := by
  induction t with
  | nil => simp [tabGet]
  | cons e t ih =>
    obtain ⟨a, w⟩ := e
    rw [List.filter_cons]
    by_cases hq : q a = true
    · rw [if_pos hq, tabGet, tabGet]
      split
      · next e => subst e; simp [hq]
      · exact ih
    · rw [if_neg hq, ih, tabGet]
      by_cases e : k = a
      · subst e; simp [hq]
      · rw [if_neg e]

/-- A canonical table is known by what it reads. -/
theorem tab_ext {u : List (Nat × α)} {n : Nat} (ht : tabWfFrom d n t = true) (hu : tabWfFrom d n u = true)
    (h : ∀ k, tabGet d t k = tabGet d u k) : t = u := by
  induction t generalizing n u with
  | nil =>
    cases u with
    | nil => rfl
    | cons e u =>
      obtain ⟨a, w⟩ := e
      have := h a
      simp only [tabWfFrom, Bool.and_eq_true, Bool.not_eq_true', decide_eq_false_iff_not] at hu
      simp only [tabGet, if_true] at this
      exact absurd this.symm hu.1.2
  | cons e t ih =>
    obtain ⟨a, w⟩ := e
    cases u with
    | nil =>
      have := h a
      simp only [tabWfFrom, Bool.and_eq_true, Bool.not_eq_true', decide_eq_false_iff_not] at ht
      simp only [tabGet, if_true] at this
      exact absurd this ht.1.2
    | cons f u =>
      obtain ⟨b, x⟩ := f
      have ht0 := ht
      have hu0 := hu
      simp only [tabWfFrom, Bool.and_eq_true, Bool.not_eq_true', decide_eq_false_iff_not, decide_eq_true_eq] at ht hu
      have hab : a = b := by
        rcases Nat.lt_trichotomy a b with lt | e | gt
        · have := h a
          rw [tabGet_below (n := b) (t := (b, x) :: u) (by simp [tabWfFrom, hu.1.2, hu.2]) lt] at this
          simp only [tabGet, if_true] at this
          exact absurd this ht.1.2
        · exact e
        · have := h b
          rw [tabGet_below (n := a) (t := (a, w) :: t) (by simp [tabWfFrom, ht.1.2, ht.2]) gt] at this
          simp only [tabGet, if_true] at this
          exact absurd this.symm hu.1.2
      subst hab
      have hw : w = x := by simpa [tabGet] using h a
      subst hw
      have : t = u := by
        refine ih (n := a + 1) ht.2 hu.2 fun k => ?_
        by_cases hk : k < a + 1
        · rw [tabGet_below ht.2 hk, tabGet_below hu.2 hk]
        · have := h k
          simpa [tabGet, show k ≠ a by omega] using this
      rw [this]

end Sys2Proof.Machine
end

