-- ==== Sys2Proof/Laws/State.lean ====
section
/-! SUPPORT. What each named update of the state and of a context leaves as it was: every field but its own, one
rewriting rule a field, and what the entry written reads back as. -/

namespace Sys2Proof.Machine

@[simp] theorem State.setRing_frame (s : State) (r : Nat) (v : Ring) :
  (s.setRing r v).pending = s.pending ∧ (s.setRing r v).free = s.free ∧ (s.setRing r v).tb = s.tb ∧
  (s.setRing r v).pwr = s.pwr ∧ (s.setRing r v).gate = s.gate ∧ (s.setRing r v).bands = s.bands ∧
  (s.setRing r v).partMem = s.partMem ∧ (s.setRing r v).ecs = s.ecs ∧ (s.setRing r v).dies = s.dies ∧
  (s.setRing r v).tiles = s.tiles ∧ (s.setRing r v).ctxs = s.ctxs ∧ (s.setRing r v).istore = s.istore ∧
  (s.setRing r v).images = s.images ∧ (s.setRing r v).partJob = s.partJob ∧ (s.setRing r v).jobs = s.jobs ∧
  (s.setRing r v).jobHolds = s.jobHolds ∧ (s.setRing r v).faultRecs = s.faultRecs ∧
  (s.setRing r v).mem = s.mem ∧ (s.setRing r v).bad = s.bad ∧ (s.setRing r v).upsets = s.upsets ∧ (s.setRing r v).keys = s.keys ∧
  (s.setRing r v).lineKeys = s.lineKeys ∧ (s.setRing r v).mds = s.mds ∧
  (s.setRing r v).ueReports = s.ueReports ∧ (s.setRing r v).fabs = s.fabs ∧
  (s.setRing r v).hurTimeout = s.hurTimeout ∧ (s.setRing r v).links = s.links ∧
  (s.setRing r v).engines = s.engines ∧ (s.setRing r v).skeins = s.skeins ∧
  (s.setRing r v).olanes = s.olanes ∧ (s.setRing r v).slotInfo = s.slotInfo ∧
  (s.setRing r v).elems = s.elems ∧ (s.setRing r v).shep = s.shep ∧ (s.setRing r v).obs = s.obs ∧
  (s.setRing r v).twin = s.twin ∧ (s.setRing r v).cast = s.cast ∧ (s.setRing r v).sec = s.sec ∧
  (s.setRing r v).flash = s.flash ∧ (s.setRing r v).tally = s.tally ∧ (s.setRing r v).tests = s.tests ∧
  (s.setRing r v).mgmt = s.mgmt ∧ (s.setRing r v).raised = s.raised ∧ (s.setRing r v).out = s.out := by and_intros <;> rfl

@[simp] theorem State.setDie_frame (s : State) (n : Nat) (v : TileDie) :
  (s.setDie n v).pending = s.pending ∧ (s.setDie n v).free = s.free ∧ (s.setDie n v).tb = s.tb ∧
  (s.setDie n v).pwr = s.pwr ∧ (s.setDie n v).gate = s.gate ∧ (s.setDie n v).bands = s.bands ∧
  (s.setDie n v).partMem = s.partMem ∧ (s.setDie n v).ecs = s.ecs ∧ (s.setDie n v).rings = s.rings ∧
  (s.setDie n v).tiles = s.tiles ∧ (s.setDie n v).ctxs = s.ctxs ∧ (s.setDie n v).istore = s.istore ∧
  (s.setDie n v).images = s.images ∧ (s.setDie n v).partJob = s.partJob ∧ (s.setDie n v).jobs = s.jobs ∧
  (s.setDie n v).jobHolds = s.jobHolds ∧ (s.setDie n v).faultRecs = s.faultRecs ∧
  (s.setDie n v).mem = s.mem ∧ (s.setDie n v).bad = s.bad ∧ (s.setDie n v).upsets = s.upsets ∧ (s.setDie n v).keys = s.keys ∧
  (s.setDie n v).lineKeys = s.lineKeys ∧ (s.setDie n v).mds = s.mds ∧
  (s.setDie n v).ueReports = s.ueReports ∧ (s.setDie n v).fabs = s.fabs ∧
  (s.setDie n v).hurTimeout = s.hurTimeout ∧ (s.setDie n v).links = s.links ∧
  (s.setDie n v).engines = s.engines ∧ (s.setDie n v).skeins = s.skeins ∧
  (s.setDie n v).olanes = s.olanes ∧ (s.setDie n v).slotInfo = s.slotInfo ∧
  (s.setDie n v).elems = s.elems ∧ (s.setDie n v).shep = s.shep ∧ (s.setDie n v).obs = s.obs ∧
  (s.setDie n v).twin = s.twin ∧ (s.setDie n v).cast = s.cast ∧ (s.setDie n v).sec = s.sec ∧
  (s.setDie n v).flash = s.flash ∧ (s.setDie n v).tally = s.tally ∧ (s.setDie n v).tests = s.tests ∧
  (s.setDie n v).mgmt = s.mgmt ∧ (s.setDie n v).raised = s.raised ∧ (s.setDie n v).out = s.out := by and_intros <;> rfl

@[simp] theorem State.setTile_frame (s : State) (t : Nat) (v : Tile) :
  (s.setTile t v).pending = s.pending ∧ (s.setTile t v).free = s.free ∧ (s.setTile t v).tb = s.tb ∧
  (s.setTile t v).pwr = s.pwr ∧ (s.setTile t v).gate = s.gate ∧ (s.setTile t v).bands = s.bands ∧
  (s.setTile t v).partMem = s.partMem ∧ (s.setTile t v).ecs = s.ecs ∧ (s.setTile t v).rings = s.rings ∧
  (s.setTile t v).dies = s.dies ∧ (s.setTile t v).ctxs = s.ctxs ∧ (s.setTile t v).istore = s.istore ∧
  (s.setTile t v).images = s.images ∧ (s.setTile t v).partJob = s.partJob ∧ (s.setTile t v).jobs = s.jobs ∧
  (s.setTile t v).jobHolds = s.jobHolds ∧ (s.setTile t v).faultRecs = s.faultRecs ∧
  (s.setTile t v).mem = s.mem ∧ (s.setTile t v).bad = s.bad ∧ (s.setTile t v).upsets = s.upsets ∧ (s.setTile t v).keys = s.keys ∧
  (s.setTile t v).lineKeys = s.lineKeys ∧ (s.setTile t v).mds = s.mds ∧
  (s.setTile t v).ueReports = s.ueReports ∧ (s.setTile t v).fabs = s.fabs ∧
  (s.setTile t v).hurTimeout = s.hurTimeout ∧ (s.setTile t v).links = s.links ∧
  (s.setTile t v).engines = s.engines ∧ (s.setTile t v).skeins = s.skeins ∧
  (s.setTile t v).olanes = s.olanes ∧ (s.setTile t v).slotInfo = s.slotInfo ∧
  (s.setTile t v).elems = s.elems ∧ (s.setTile t v).shep = s.shep ∧ (s.setTile t v).obs = s.obs ∧
  (s.setTile t v).twin = s.twin ∧ (s.setTile t v).cast = s.cast ∧ (s.setTile t v).sec = s.sec ∧
  (s.setTile t v).flash = s.flash ∧ (s.setTile t v).tally = s.tally ∧ (s.setTile t v).tests = s.tests ∧
  (s.setTile t v).mgmt = s.mgmt ∧ (s.setTile t v).raised = s.raised ∧ (s.setTile t v).out = s.out := by and_intros <;> rfl

@[simp] theorem State.setCtx_frame (s : State) (t c : Nat) (v : Ctx) :
  (s.setCtx t c v).pending = s.pending ∧ (s.setCtx t c v).free = s.free ∧ (s.setCtx t c v).tb = s.tb ∧
  (s.setCtx t c v).pwr = s.pwr ∧ (s.setCtx t c v).gate = s.gate ∧ (s.setCtx t c v).bands = s.bands ∧
  (s.setCtx t c v).partMem = s.partMem ∧ (s.setCtx t c v).ecs = s.ecs ∧ (s.setCtx t c v).rings = s.rings ∧
  (s.setCtx t c v).dies = s.dies ∧ (s.setCtx t c v).tiles = s.tiles ∧ (s.setCtx t c v).istore = s.istore ∧
  (s.setCtx t c v).images = s.images ∧ (s.setCtx t c v).partJob = s.partJob ∧
  (s.setCtx t c v).jobs = s.jobs ∧ (s.setCtx t c v).jobHolds = s.jobHolds ∧
  (s.setCtx t c v).faultRecs = s.faultRecs ∧ (s.setCtx t c v).mem = s.mem ∧ (s.setCtx t c v).bad = s.bad ∧ (s.setCtx t c v).upsets = s.upsets ∧
  (s.setCtx t c v).keys = s.keys ∧ (s.setCtx t c v).lineKeys = s.lineKeys ∧ (s.setCtx t c v).mds = s.mds ∧
  (s.setCtx t c v).ueReports = s.ueReports ∧ (s.setCtx t c v).fabs = s.fabs ∧
  (s.setCtx t c v).hurTimeout = s.hurTimeout ∧ (s.setCtx t c v).links = s.links ∧
  (s.setCtx t c v).engines = s.engines ∧ (s.setCtx t c v).skeins = s.skeins ∧
  (s.setCtx t c v).olanes = s.olanes ∧ (s.setCtx t c v).slotInfo = s.slotInfo ∧
  (s.setCtx t c v).elems = s.elems ∧ (s.setCtx t c v).shep = s.shep ∧ (s.setCtx t c v).obs = s.obs ∧
  (s.setCtx t c v).twin = s.twin ∧ (s.setCtx t c v).cast = s.cast ∧ (s.setCtx t c v).sec = s.sec ∧
  (s.setCtx t c v).flash = s.flash ∧ (s.setCtx t c v).tally = s.tally ∧ (s.setCtx t c v).tests = s.tests ∧
  (s.setCtx t c v).mgmt = s.mgmt ∧ (s.setCtx t c v).raised = s.raised ∧ (s.setCtx t c v).out = s.out := by and_intros <;> rfl

@[simp] theorem State.setJob_frame (s : State) (j : Nat) (v : Job) :
  (s.setJob j v).pending = s.pending ∧ (s.setJob j v).free = s.free ∧ (s.setJob j v).tb = s.tb ∧
  (s.setJob j v).pwr = s.pwr ∧ (s.setJob j v).gate = s.gate ∧ (s.setJob j v).bands = s.bands ∧
  (s.setJob j v).partMem = s.partMem ∧ (s.setJob j v).ecs = s.ecs ∧ (s.setJob j v).rings = s.rings ∧
  (s.setJob j v).dies = s.dies ∧ (s.setJob j v).tiles = s.tiles ∧ (s.setJob j v).ctxs = s.ctxs ∧
  (s.setJob j v).istore = s.istore ∧ (s.setJob j v).images = s.images ∧
  (s.setJob j v).partJob = s.partJob ∧ (s.setJob j v).jobHolds = s.jobHolds ∧
  (s.setJob j v).faultRecs = s.faultRecs ∧ (s.setJob j v).mem = s.mem ∧ (s.setJob j v).bad = s.bad ∧ (s.setJob j v).upsets = s.upsets ∧
  (s.setJob j v).keys = s.keys ∧ (s.setJob j v).lineKeys = s.lineKeys ∧ (s.setJob j v).mds = s.mds ∧
  (s.setJob j v).ueReports = s.ueReports ∧ (s.setJob j v).fabs = s.fabs ∧
  (s.setJob j v).hurTimeout = s.hurTimeout ∧ (s.setJob j v).links = s.links ∧
  (s.setJob j v).engines = s.engines ∧ (s.setJob j v).skeins = s.skeins ∧
  (s.setJob j v).olanes = s.olanes ∧ (s.setJob j v).slotInfo = s.slotInfo ∧
  (s.setJob j v).elems = s.elems ∧ (s.setJob j v).shep = s.shep ∧ (s.setJob j v).obs = s.obs ∧
  (s.setJob j v).twin = s.twin ∧ (s.setJob j v).cast = s.cast ∧ (s.setJob j v).sec = s.sec ∧
  (s.setJob j v).flash = s.flash ∧ (s.setJob j v).tally = s.tally ∧ (s.setJob j v).tests = s.tests ∧
  (s.setJob j v).mgmt = s.mgmt ∧ (s.setJob j v).raised = s.raised ∧ (s.setJob j v).out = s.out := by and_intros <;> rfl

@[simp] theorem State.setMd_frame (s : State) (n : Nat) (v : MemDie) :
  (s.setMd n v).pending = s.pending ∧ (s.setMd n v).free = s.free ∧ (s.setMd n v).tb = s.tb ∧
  (s.setMd n v).pwr = s.pwr ∧ (s.setMd n v).gate = s.gate ∧ (s.setMd n v).bands = s.bands ∧
  (s.setMd n v).partMem = s.partMem ∧ (s.setMd n v).ecs = s.ecs ∧ (s.setMd n v).rings = s.rings ∧
  (s.setMd n v).dies = s.dies ∧ (s.setMd n v).tiles = s.tiles ∧ (s.setMd n v).ctxs = s.ctxs ∧
  (s.setMd n v).istore = s.istore ∧ (s.setMd n v).images = s.images ∧ (s.setMd n v).partJob = s.partJob ∧
  (s.setMd n v).jobs = s.jobs ∧ (s.setMd n v).jobHolds = s.jobHolds ∧
  (s.setMd n v).faultRecs = s.faultRecs ∧ (s.setMd n v).mem = s.mem ∧ (s.setMd n v).bad = s.bad ∧ (s.setMd n v).upsets = s.upsets ∧
  (s.setMd n v).keys = s.keys ∧ (s.setMd n v).lineKeys = s.lineKeys ∧
  (s.setMd n v).ueReports = s.ueReports ∧ (s.setMd n v).fabs = s.fabs ∧
  (s.setMd n v).hurTimeout = s.hurTimeout ∧ (s.setMd n v).links = s.links ∧
  (s.setMd n v).engines = s.engines ∧ (s.setMd n v).skeins = s.skeins ∧ (s.setMd n v).olanes = s.olanes ∧
  (s.setMd n v).slotInfo = s.slotInfo ∧ (s.setMd n v).elems = s.elems ∧ (s.setMd n v).shep = s.shep ∧
  (s.setMd n v).obs = s.obs ∧ (s.setMd n v).twin = s.twin ∧ (s.setMd n v).cast = s.cast ∧
  (s.setMd n v).sec = s.sec ∧ (s.setMd n v).flash = s.flash ∧ (s.setMd n v).tally = s.tally ∧
  (s.setMd n v).tests = s.tests ∧ (s.setMd n v).mgmt = s.mgmt ∧ (s.setMd n v).raised = s.raised ∧
  (s.setMd n v).out = s.out := by and_intros <;> rfl

@[simp] theorem State.setFab_frame (s : State) (n : Nat) (v : Fab) :
  (s.setFab n v).pending = s.pending ∧ (s.setFab n v).free = s.free ∧ (s.setFab n v).tb = s.tb ∧
  (s.setFab n v).pwr = s.pwr ∧ (s.setFab n v).gate = s.gate ∧ (s.setFab n v).bands = s.bands ∧
  (s.setFab n v).partMem = s.partMem ∧ (s.setFab n v).ecs = s.ecs ∧ (s.setFab n v).rings = s.rings ∧
  (s.setFab n v).dies = s.dies ∧ (s.setFab n v).tiles = s.tiles ∧ (s.setFab n v).ctxs = s.ctxs ∧
  (s.setFab n v).istore = s.istore ∧ (s.setFab n v).images = s.images ∧
  (s.setFab n v).partJob = s.partJob ∧ (s.setFab n v).jobs = s.jobs ∧
  (s.setFab n v).jobHolds = s.jobHolds ∧ (s.setFab n v).faultRecs = s.faultRecs ∧
  (s.setFab n v).mem = s.mem ∧ (s.setFab n v).bad = s.bad ∧ (s.setFab n v).upsets = s.upsets ∧ (s.setFab n v).keys = s.keys ∧
  (s.setFab n v).lineKeys = s.lineKeys ∧ (s.setFab n v).mds = s.mds ∧
  (s.setFab n v).ueReports = s.ueReports ∧ (s.setFab n v).hurTimeout = s.hurTimeout ∧
  (s.setFab n v).links = s.links ∧ (s.setFab n v).engines = s.engines ∧ (s.setFab n v).skeins = s.skeins ∧
  (s.setFab n v).olanes = s.olanes ∧ (s.setFab n v).slotInfo = s.slotInfo ∧
  (s.setFab n v).elems = s.elems ∧ (s.setFab n v).shep = s.shep ∧ (s.setFab n v).obs = s.obs ∧
  (s.setFab n v).twin = s.twin ∧ (s.setFab n v).cast = s.cast ∧ (s.setFab n v).sec = s.sec ∧
  (s.setFab n v).flash = s.flash ∧ (s.setFab n v).tally = s.tally ∧ (s.setFab n v).tests = s.tests ∧
  (s.setFab n v).mgmt = s.mgmt ∧ (s.setFab n v).raised = s.raised ∧ (s.setFab n v).out = s.out := by and_intros <;> rfl

@[simp] theorem State.setLink_frame (s : State) (fd k : Nat) (v : Link) :
  (s.setLink fd k v).pending = s.pending ∧ (s.setLink fd k v).free = s.free ∧
  (s.setLink fd k v).tb = s.tb ∧ (s.setLink fd k v).pwr = s.pwr ∧ (s.setLink fd k v).gate = s.gate ∧
  (s.setLink fd k v).bands = s.bands ∧ (s.setLink fd k v).partMem = s.partMem ∧
  (s.setLink fd k v).ecs = s.ecs ∧ (s.setLink fd k v).rings = s.rings ∧ (s.setLink fd k v).dies = s.dies ∧
  (s.setLink fd k v).tiles = s.tiles ∧ (s.setLink fd k v).ctxs = s.ctxs ∧
  (s.setLink fd k v).istore = s.istore ∧ (s.setLink fd k v).images = s.images ∧
  (s.setLink fd k v).partJob = s.partJob ∧ (s.setLink fd k v).jobs = s.jobs ∧
  (s.setLink fd k v).jobHolds = s.jobHolds ∧ (s.setLink fd k v).faultRecs = s.faultRecs ∧
  (s.setLink fd k v).mem = s.mem ∧ (s.setLink fd k v).bad = s.bad ∧ (s.setLink fd k v).upsets = s.upsets ∧ (s.setLink fd k v).keys = s.keys ∧
  (s.setLink fd k v).lineKeys = s.lineKeys ∧ (s.setLink fd k v).mds = s.mds ∧
  (s.setLink fd k v).ueReports = s.ueReports ∧ (s.setLink fd k v).fabs = s.fabs ∧
  (s.setLink fd k v).hurTimeout = s.hurTimeout ∧ (s.setLink fd k v).engines = s.engines ∧
  (s.setLink fd k v).skeins = s.skeins ∧ (s.setLink fd k v).olanes = s.olanes ∧
  (s.setLink fd k v).slotInfo = s.slotInfo ∧ (s.setLink fd k v).elems = s.elems ∧
  (s.setLink fd k v).shep = s.shep ∧ (s.setLink fd k v).obs = s.obs ∧ (s.setLink fd k v).twin = s.twin ∧
  (s.setLink fd k v).cast = s.cast ∧ (s.setLink fd k v).sec = s.sec ∧ (s.setLink fd k v).flash = s.flash ∧
  (s.setLink fd k v).tally = s.tally ∧ (s.setLink fd k v).tests = s.tests ∧
  (s.setLink fd k v).mgmt = s.mgmt ∧ (s.setLink fd k v).raised = s.raised ∧ (s.setLink fd k v).out = s.out := by and_intros <;> rfl

@[simp] theorem State.setEngine_frame (s : State) (n : Nat) (v : Engine) :
  (s.setEngine n v).pending = s.pending ∧ (s.setEngine n v).free = s.free ∧ (s.setEngine n v).tb = s.tb ∧
  (s.setEngine n v).pwr = s.pwr ∧ (s.setEngine n v).gate = s.gate ∧ (s.setEngine n v).bands = s.bands ∧
  (s.setEngine n v).partMem = s.partMem ∧ (s.setEngine n v).ecs = s.ecs ∧
  (s.setEngine n v).rings = s.rings ∧ (s.setEngine n v).dies = s.dies ∧ (s.setEngine n v).tiles = s.tiles ∧
  (s.setEngine n v).ctxs = s.ctxs ∧ (s.setEngine n v).istore = s.istore ∧
  (s.setEngine n v).images = s.images ∧ (s.setEngine n v).partJob = s.partJob ∧
  (s.setEngine n v).jobs = s.jobs ∧ (s.setEngine n v).jobHolds = s.jobHolds ∧
  (s.setEngine n v).faultRecs = s.faultRecs ∧ (s.setEngine n v).mem = s.mem ∧
  (s.setEngine n v).bad = s.bad ∧ (s.setEngine n v).upsets = s.upsets ∧ (s.setEngine n v).keys = s.keys ∧
  (s.setEngine n v).lineKeys = s.lineKeys ∧ (s.setEngine n v).mds = s.mds ∧
  (s.setEngine n v).ueReports = s.ueReports ∧ (s.setEngine n v).fabs = s.fabs ∧
  (s.setEngine n v).hurTimeout = s.hurTimeout ∧ (s.setEngine n v).links = s.links ∧
  (s.setEngine n v).skeins = s.skeins ∧ (s.setEngine n v).olanes = s.olanes ∧
  (s.setEngine n v).slotInfo = s.slotInfo ∧ (s.setEngine n v).elems = s.elems ∧
  (s.setEngine n v).shep = s.shep ∧ (s.setEngine n v).obs = s.obs ∧ (s.setEngine n v).twin = s.twin ∧
  (s.setEngine n v).cast = s.cast ∧ (s.setEngine n v).sec = s.sec ∧ (s.setEngine n v).flash = s.flash ∧
  (s.setEngine n v).tally = s.tally ∧ (s.setEngine n v).tests = s.tests ∧ (s.setEngine n v).mgmt = s.mgmt ∧
  (s.setEngine n v).raised = s.raised ∧ (s.setEngine n v).out = s.out := by and_intros <;> rfl

@[simp] theorem State.setSkein_frame (s : State) (q : Nat) (v : Skein) :
  (s.setSkein q v).pending = s.pending ∧ (s.setSkein q v).free = s.free ∧ (s.setSkein q v).tb = s.tb ∧
  (s.setSkein q v).pwr = s.pwr ∧ (s.setSkein q v).gate = s.gate ∧ (s.setSkein q v).bands = s.bands ∧
  (s.setSkein q v).partMem = s.partMem ∧ (s.setSkein q v).ecs = s.ecs ∧ (s.setSkein q v).rings = s.rings ∧
  (s.setSkein q v).dies = s.dies ∧ (s.setSkein q v).tiles = s.tiles ∧ (s.setSkein q v).ctxs = s.ctxs ∧
  (s.setSkein q v).istore = s.istore ∧ (s.setSkein q v).images = s.images ∧
  (s.setSkein q v).partJob = s.partJob ∧ (s.setSkein q v).jobs = s.jobs ∧
  (s.setSkein q v).jobHolds = s.jobHolds ∧ (s.setSkein q v).faultRecs = s.faultRecs ∧
  (s.setSkein q v).mem = s.mem ∧ (s.setSkein q v).bad = s.bad ∧ (s.setSkein q v).upsets = s.upsets ∧ (s.setSkein q v).keys = s.keys ∧
  (s.setSkein q v).lineKeys = s.lineKeys ∧ (s.setSkein q v).mds = s.mds ∧
  (s.setSkein q v).ueReports = s.ueReports ∧ (s.setSkein q v).fabs = s.fabs ∧
  (s.setSkein q v).hurTimeout = s.hurTimeout ∧ (s.setSkein q v).links = s.links ∧
  (s.setSkein q v).engines = s.engines ∧ (s.setSkein q v).olanes = s.olanes ∧
  (s.setSkein q v).slotInfo = s.slotInfo ∧ (s.setSkein q v).elems = s.elems ∧
  (s.setSkein q v).shep = s.shep ∧ (s.setSkein q v).obs = s.obs ∧ (s.setSkein q v).twin = s.twin ∧
  (s.setSkein q v).cast = s.cast ∧ (s.setSkein q v).sec = s.sec ∧ (s.setSkein q v).flash = s.flash ∧
  (s.setSkein q v).tally = s.tally ∧ (s.setSkein q v).tests = s.tests ∧ (s.setSkein q v).mgmt = s.mgmt ∧
  (s.setSkein q v).raised = s.raised ∧ (s.setSkein q v).out = s.out := by and_intros <;> rfl

@[simp] theorem State.setOlane_frame (s : State) (q j : Nat) (v : OLane) :
  (s.setOlane q j v).pending = s.pending ∧ (s.setOlane q j v).free = s.free ∧
  (s.setOlane q j v).tb = s.tb ∧ (s.setOlane q j v).pwr = s.pwr ∧ (s.setOlane q j v).gate = s.gate ∧
  (s.setOlane q j v).bands = s.bands ∧ (s.setOlane q j v).partMem = s.partMem ∧
  (s.setOlane q j v).ecs = s.ecs ∧ (s.setOlane q j v).rings = s.rings ∧ (s.setOlane q j v).dies = s.dies ∧
  (s.setOlane q j v).tiles = s.tiles ∧ (s.setOlane q j v).ctxs = s.ctxs ∧
  (s.setOlane q j v).istore = s.istore ∧ (s.setOlane q j v).images = s.images ∧
  (s.setOlane q j v).partJob = s.partJob ∧ (s.setOlane q j v).jobs = s.jobs ∧
  (s.setOlane q j v).jobHolds = s.jobHolds ∧ (s.setOlane q j v).faultRecs = s.faultRecs ∧
  (s.setOlane q j v).mem = s.mem ∧ (s.setOlane q j v).bad = s.bad ∧ (s.setOlane q j v).upsets = s.upsets ∧ (s.setOlane q j v).keys = s.keys ∧
  (s.setOlane q j v).lineKeys = s.lineKeys ∧ (s.setOlane q j v).mds = s.mds ∧
  (s.setOlane q j v).ueReports = s.ueReports ∧ (s.setOlane q j v).fabs = s.fabs ∧
  (s.setOlane q j v).hurTimeout = s.hurTimeout ∧ (s.setOlane q j v).links = s.links ∧
  (s.setOlane q j v).engines = s.engines ∧ (s.setOlane q j v).skeins = s.skeins ∧
  (s.setOlane q j v).slotInfo = s.slotInfo ∧ (s.setOlane q j v).elems = s.elems ∧
  (s.setOlane q j v).shep = s.shep ∧ (s.setOlane q j v).obs = s.obs ∧ (s.setOlane q j v).twin = s.twin ∧
  (s.setOlane q j v).cast = s.cast ∧ (s.setOlane q j v).sec = s.sec ∧ (s.setOlane q j v).flash = s.flash ∧
  (s.setOlane q j v).tally = s.tally ∧ (s.setOlane q j v).tests = s.tests ∧
  (s.setOlane q j v).mgmt = s.mgmt ∧ (s.setOlane q j v).raised = s.raised ∧ (s.setOlane q j v).out = s.out := by and_intros <;> rfl

@[simp] theorem State.setSlotI_frame (s : State) (q k : Nat) (v : SlotInfo) :
  (s.setSlotI q k v).pending = s.pending ∧ (s.setSlotI q k v).free = s.free ∧
  (s.setSlotI q k v).tb = s.tb ∧ (s.setSlotI q k v).pwr = s.pwr ∧ (s.setSlotI q k v).gate = s.gate ∧
  (s.setSlotI q k v).bands = s.bands ∧ (s.setSlotI q k v).partMem = s.partMem ∧
  (s.setSlotI q k v).ecs = s.ecs ∧ (s.setSlotI q k v).rings = s.rings ∧ (s.setSlotI q k v).dies = s.dies ∧
  (s.setSlotI q k v).tiles = s.tiles ∧ (s.setSlotI q k v).ctxs = s.ctxs ∧
  (s.setSlotI q k v).istore = s.istore ∧ (s.setSlotI q k v).images = s.images ∧
  (s.setSlotI q k v).partJob = s.partJob ∧ (s.setSlotI q k v).jobs = s.jobs ∧
  (s.setSlotI q k v).jobHolds = s.jobHolds ∧ (s.setSlotI q k v).faultRecs = s.faultRecs ∧
  (s.setSlotI q k v).mem = s.mem ∧ (s.setSlotI q k v).bad = s.bad ∧ (s.setSlotI q k v).upsets = s.upsets ∧ (s.setSlotI q k v).keys = s.keys ∧
  (s.setSlotI q k v).lineKeys = s.lineKeys ∧ (s.setSlotI q k v).mds = s.mds ∧
  (s.setSlotI q k v).ueReports = s.ueReports ∧ (s.setSlotI q k v).fabs = s.fabs ∧
  (s.setSlotI q k v).hurTimeout = s.hurTimeout ∧ (s.setSlotI q k v).links = s.links ∧
  (s.setSlotI q k v).engines = s.engines ∧ (s.setSlotI q k v).skeins = s.skeins ∧
  (s.setSlotI q k v).olanes = s.olanes ∧ (s.setSlotI q k v).elems = s.elems ∧
  (s.setSlotI q k v).shep = s.shep ∧ (s.setSlotI q k v).obs = s.obs ∧ (s.setSlotI q k v).twin = s.twin ∧
  (s.setSlotI q k v).cast = s.cast ∧ (s.setSlotI q k v).sec = s.sec ∧ (s.setSlotI q k v).flash = s.flash ∧
  (s.setSlotI q k v).tally = s.tally ∧ (s.setSlotI q k v).tests = s.tests ∧
  (s.setSlotI q k v).mgmt = s.mgmt ∧ (s.setSlotI q k v).raised = s.raised ∧ (s.setSlotI q k v).out = s.out := by and_intros <;> rfl

@[simp] theorem State.setElem_frame (s : State) (n e : Nat) (v : Elem) :
  (s.setElem n e v).pending = s.pending ∧ (s.setElem n e v).free = s.free ∧ (s.setElem n e v).tb = s.tb ∧
  (s.setElem n e v).pwr = s.pwr ∧ (s.setElem n e v).gate = s.gate ∧ (s.setElem n e v).bands = s.bands ∧
  (s.setElem n e v).partMem = s.partMem ∧ (s.setElem n e v).ecs = s.ecs ∧
  (s.setElem n e v).rings = s.rings ∧ (s.setElem n e v).dies = s.dies ∧ (s.setElem n e v).tiles = s.tiles ∧
  (s.setElem n e v).ctxs = s.ctxs ∧ (s.setElem n e v).istore = s.istore ∧
  (s.setElem n e v).images = s.images ∧ (s.setElem n e v).partJob = s.partJob ∧
  (s.setElem n e v).jobs = s.jobs ∧ (s.setElem n e v).jobHolds = s.jobHolds ∧
  (s.setElem n e v).faultRecs = s.faultRecs ∧ (s.setElem n e v).mem = s.mem ∧
  (s.setElem n e v).bad = s.bad ∧ (s.setElem n e v).upsets = s.upsets ∧ (s.setElem n e v).keys = s.keys ∧
  (s.setElem n e v).lineKeys = s.lineKeys ∧ (s.setElem n e v).mds = s.mds ∧
  (s.setElem n e v).ueReports = s.ueReports ∧ (s.setElem n e v).fabs = s.fabs ∧
  (s.setElem n e v).hurTimeout = s.hurTimeout ∧ (s.setElem n e v).links = s.links ∧
  (s.setElem n e v).engines = s.engines ∧ (s.setElem n e v).skeins = s.skeins ∧
  (s.setElem n e v).olanes = s.olanes ∧ (s.setElem n e v).slotInfo = s.slotInfo ∧
  (s.setElem n e v).shep = s.shep ∧ (s.setElem n e v).obs = s.obs ∧ (s.setElem n e v).twin = s.twin ∧
  (s.setElem n e v).cast = s.cast ∧ (s.setElem n e v).sec = s.sec ∧ (s.setElem n e v).flash = s.flash ∧
  (s.setElem n e v).tally = s.tally ∧ (s.setElem n e v).tests = s.tests ∧ (s.setElem n e v).mgmt = s.mgmt ∧
  (s.setElem n e v).raised = s.raised ∧ (s.setElem n e v).out = s.out := by and_intros <;> rfl

@[simp] theorem State.setObs_frame (s : State) (m : Nat) (v : Obs) :
  (s.setObs m v).pending = s.pending ∧ (s.setObs m v).free = s.free ∧ (s.setObs m v).tb = s.tb ∧
  (s.setObs m v).pwr = s.pwr ∧ (s.setObs m v).gate = s.gate ∧ (s.setObs m v).bands = s.bands ∧
  (s.setObs m v).partMem = s.partMem ∧ (s.setObs m v).ecs = s.ecs ∧ (s.setObs m v).rings = s.rings ∧
  (s.setObs m v).dies = s.dies ∧ (s.setObs m v).tiles = s.tiles ∧ (s.setObs m v).ctxs = s.ctxs ∧
  (s.setObs m v).istore = s.istore ∧ (s.setObs m v).images = s.images ∧
  (s.setObs m v).partJob = s.partJob ∧ (s.setObs m v).jobs = s.jobs ∧
  (s.setObs m v).jobHolds = s.jobHolds ∧ (s.setObs m v).faultRecs = s.faultRecs ∧
  (s.setObs m v).mem = s.mem ∧ (s.setObs m v).bad = s.bad ∧ (s.setObs m v).upsets = s.upsets ∧ (s.setObs m v).keys = s.keys ∧
  (s.setObs m v).lineKeys = s.lineKeys ∧ (s.setObs m v).mds = s.mds ∧
  (s.setObs m v).ueReports = s.ueReports ∧ (s.setObs m v).fabs = s.fabs ∧
  (s.setObs m v).hurTimeout = s.hurTimeout ∧ (s.setObs m v).links = s.links ∧
  (s.setObs m v).engines = s.engines ∧ (s.setObs m v).skeins = s.skeins ∧
  (s.setObs m v).olanes = s.olanes ∧ (s.setObs m v).slotInfo = s.slotInfo ∧
  (s.setObs m v).elems = s.elems ∧ (s.setObs m v).shep = s.shep ∧ (s.setObs m v).twin = s.twin ∧
  (s.setObs m v).cast = s.cast ∧ (s.setObs m v).sec = s.sec ∧ (s.setObs m v).flash = s.flash ∧
  (s.setObs m v).tally = s.tally ∧ (s.setObs m v).tests = s.tests ∧ (s.setObs m v).mgmt = s.mgmt ∧
  (s.setObs m v).raised = s.raised ∧ (s.setObs m v).out = s.out := by and_intros <;> rfl

@[simp] theorem State.setBand_frame (s : State) (b : Nat) (v : Band) :
  (s.setBand b v).pending = s.pending ∧ (s.setBand b v).free = s.free ∧ (s.setBand b v).tb = s.tb ∧
  (s.setBand b v).pwr = s.pwr ∧ (s.setBand b v).gate = s.gate ∧ (s.setBand b v).partMem = s.partMem ∧
  (s.setBand b v).ecs = s.ecs ∧ (s.setBand b v).rings = s.rings ∧ (s.setBand b v).dies = s.dies ∧
  (s.setBand b v).tiles = s.tiles ∧ (s.setBand b v).ctxs = s.ctxs ∧ (s.setBand b v).istore = s.istore ∧
  (s.setBand b v).images = s.images ∧ (s.setBand b v).partJob = s.partJob ∧ (s.setBand b v).jobs = s.jobs ∧
  (s.setBand b v).jobHolds = s.jobHolds ∧ (s.setBand b v).faultRecs = s.faultRecs ∧
  (s.setBand b v).mem = s.mem ∧ (s.setBand b v).bad = s.bad ∧ (s.setBand b v).upsets = s.upsets ∧ (s.setBand b v).keys = s.keys ∧
  (s.setBand b v).lineKeys = s.lineKeys ∧ (s.setBand b v).mds = s.mds ∧
  (s.setBand b v).ueReports = s.ueReports ∧ (s.setBand b v).fabs = s.fabs ∧
  (s.setBand b v).hurTimeout = s.hurTimeout ∧ (s.setBand b v).links = s.links ∧
  (s.setBand b v).engines = s.engines ∧ (s.setBand b v).skeins = s.skeins ∧
  (s.setBand b v).olanes = s.olanes ∧ (s.setBand b v).slotInfo = s.slotInfo ∧
  (s.setBand b v).elems = s.elems ∧ (s.setBand b v).shep = s.shep ∧ (s.setBand b v).obs = s.obs ∧
  (s.setBand b v).twin = s.twin ∧ (s.setBand b v).cast = s.cast ∧ (s.setBand b v).sec = s.sec ∧
  (s.setBand b v).flash = s.flash ∧ (s.setBand b v).tally = s.tally ∧ (s.setBand b v).tests = s.tests ∧
  (s.setBand b v).mgmt = s.mgmt ∧ (s.setBand b v).raised = s.raised ∧ (s.setBand b v).out = s.out := by and_intros <;> rfl

@[simp] theorem State.setPart_frame (s : State) (p : Nat) (v : PartMem) :
  (s.setPart p v).pending = s.pending ∧ (s.setPart p v).free = s.free ∧ (s.setPart p v).tb = s.tb ∧
  (s.setPart p v).pwr = s.pwr ∧ (s.setPart p v).gate = s.gate ∧ (s.setPart p v).bands = s.bands ∧
  (s.setPart p v).ecs = s.ecs ∧ (s.setPart p v).rings = s.rings ∧ (s.setPart p v).dies = s.dies ∧
  (s.setPart p v).tiles = s.tiles ∧ (s.setPart p v).ctxs = s.ctxs ∧ (s.setPart p v).istore = s.istore ∧
  (s.setPart p v).images = s.images ∧ (s.setPart p v).partJob = s.partJob ∧ (s.setPart p v).jobs = s.jobs ∧
  (s.setPart p v).jobHolds = s.jobHolds ∧ (s.setPart p v).faultRecs = s.faultRecs ∧
  (s.setPart p v).mem = s.mem ∧ (s.setPart p v).bad = s.bad ∧ (s.setPart p v).upsets = s.upsets ∧ (s.setPart p v).keys = s.keys ∧
  (s.setPart p v).lineKeys = s.lineKeys ∧ (s.setPart p v).mds = s.mds ∧
  (s.setPart p v).ueReports = s.ueReports ∧ (s.setPart p v).fabs = s.fabs ∧
  (s.setPart p v).hurTimeout = s.hurTimeout ∧ (s.setPart p v).links = s.links ∧
  (s.setPart p v).engines = s.engines ∧ (s.setPart p v).skeins = s.skeins ∧
  (s.setPart p v).olanes = s.olanes ∧ (s.setPart p v).slotInfo = s.slotInfo ∧
  (s.setPart p v).elems = s.elems ∧ (s.setPart p v).shep = s.shep ∧ (s.setPart p v).obs = s.obs ∧
  (s.setPart p v).twin = s.twin ∧ (s.setPart p v).cast = s.cast ∧ (s.setPart p v).sec = s.sec ∧
  (s.setPart p v).flash = s.flash ∧ (s.setPart p v).tally = s.tally ∧ (s.setPart p v).tests = s.tests ∧
  (s.setPart p v).mgmt = s.mgmt ∧ (s.setPart p v).raised = s.raised ∧ (s.setPart p v).out = s.out := by and_intros <;> rfl

@[simp] theorem State.setEcs_frame (s : State) (x : Nat) (v : Ecs) :
  (s.setEcs x v).pending = s.pending ∧ (s.setEcs x v).free = s.free ∧ (s.setEcs x v).tb = s.tb ∧
  (s.setEcs x v).pwr = s.pwr ∧ (s.setEcs x v).gate = s.gate ∧ (s.setEcs x v).bands = s.bands ∧
  (s.setEcs x v).partMem = s.partMem ∧ (s.setEcs x v).rings = s.rings ∧ (s.setEcs x v).dies = s.dies ∧
  (s.setEcs x v).tiles = s.tiles ∧ (s.setEcs x v).ctxs = s.ctxs ∧ (s.setEcs x v).istore = s.istore ∧
  (s.setEcs x v).images = s.images ∧ (s.setEcs x v).partJob = s.partJob ∧ (s.setEcs x v).jobs = s.jobs ∧
  (s.setEcs x v).jobHolds = s.jobHolds ∧ (s.setEcs x v).faultRecs = s.faultRecs ∧
  (s.setEcs x v).mem = s.mem ∧ (s.setEcs x v).bad = s.bad ∧ (s.setEcs x v).upsets = s.upsets ∧ (s.setEcs x v).keys = s.keys ∧
  (s.setEcs x v).lineKeys = s.lineKeys ∧ (s.setEcs x v).mds = s.mds ∧
  (s.setEcs x v).ueReports = s.ueReports ∧ (s.setEcs x v).fabs = s.fabs ∧
  (s.setEcs x v).hurTimeout = s.hurTimeout ∧ (s.setEcs x v).links = s.links ∧
  (s.setEcs x v).engines = s.engines ∧ (s.setEcs x v).skeins = s.skeins ∧
  (s.setEcs x v).olanes = s.olanes ∧ (s.setEcs x v).slotInfo = s.slotInfo ∧
  (s.setEcs x v).elems = s.elems ∧ (s.setEcs x v).shep = s.shep ∧ (s.setEcs x v).obs = s.obs ∧
  (s.setEcs x v).twin = s.twin ∧ (s.setEcs x v).cast = s.cast ∧ (s.setEcs x v).sec = s.sec ∧
  (s.setEcs x v).flash = s.flash ∧ (s.setEcs x v).tally = s.tally ∧ (s.setEcs x v).tests = s.tests ∧
  (s.setEcs x v).mgmt = s.mgmt ∧ (s.setEcs x v).raised = s.raised ∧ (s.setEcs x v).out = s.out := by and_intros <;> rfl

@[simp] theorem State.setTest_frame (s : State) (fd lane : Nat) (v : LaneTest) :
  (s.setTest fd lane v).pending = s.pending ∧ (s.setTest fd lane v).free = s.free ∧
  (s.setTest fd lane v).tb = s.tb ∧ (s.setTest fd lane v).pwr = s.pwr ∧
  (s.setTest fd lane v).gate = s.gate ∧ (s.setTest fd lane v).bands = s.bands ∧
  (s.setTest fd lane v).partMem = s.partMem ∧ (s.setTest fd lane v).ecs = s.ecs ∧
  (s.setTest fd lane v).rings = s.rings ∧ (s.setTest fd lane v).dies = s.dies ∧
  (s.setTest fd lane v).tiles = s.tiles ∧ (s.setTest fd lane v).ctxs = s.ctxs ∧
  (s.setTest fd lane v).istore = s.istore ∧ (s.setTest fd lane v).images = s.images ∧
  (s.setTest fd lane v).partJob = s.partJob ∧ (s.setTest fd lane v).jobs = s.jobs ∧
  (s.setTest fd lane v).jobHolds = s.jobHolds ∧ (s.setTest fd lane v).faultRecs = s.faultRecs ∧
  (s.setTest fd lane v).mem = s.mem ∧ (s.setTest fd lane v).bad = s.bad ∧ (s.setTest fd lane v).upsets = s.upsets ∧
  (s.setTest fd lane v).keys = s.keys ∧ (s.setTest fd lane v).lineKeys = s.lineKeys ∧
  (s.setTest fd lane v).mds = s.mds ∧ (s.setTest fd lane v).ueReports = s.ueReports ∧
  (s.setTest fd lane v).fabs = s.fabs ∧ (s.setTest fd lane v).hurTimeout = s.hurTimeout ∧
  (s.setTest fd lane v).links = s.links ∧ (s.setTest fd lane v).engines = s.engines ∧
  (s.setTest fd lane v).skeins = s.skeins ∧ (s.setTest fd lane v).olanes = s.olanes ∧
  (s.setTest fd lane v).slotInfo = s.slotInfo ∧ (s.setTest fd lane v).elems = s.elems ∧
  (s.setTest fd lane v).shep = s.shep ∧ (s.setTest fd lane v).obs = s.obs ∧
  (s.setTest fd lane v).twin = s.twin ∧ (s.setTest fd lane v).cast = s.cast ∧
  (s.setTest fd lane v).sec = s.sec ∧ (s.setTest fd lane v).flash = s.flash ∧
  (s.setTest fd lane v).tally = s.tally ∧ (s.setTest fd lane v).mgmt = s.mgmt ∧
  (s.setTest fd lane v).raised = s.raised ∧ (s.setTest fd lane v).out = s.out := by and_intros <;> rfl

@[simp] theorem State.setCkptJob_frame (s : State) (j : Nat) (v : Ckpt) :
  (s.setCkptJob j v).pending = s.pending ∧ (s.setCkptJob j v).free = s.free ∧
  (s.setCkptJob j v).tb = s.tb ∧ (s.setCkptJob j v).pwr = s.pwr ∧ (s.setCkptJob j v).gate = s.gate ∧
  (s.setCkptJob j v).bands = s.bands ∧ (s.setCkptJob j v).partMem = s.partMem ∧
  (s.setCkptJob j v).ecs = s.ecs ∧ (s.setCkptJob j v).rings = s.rings ∧ (s.setCkptJob j v).dies = s.dies ∧
  (s.setCkptJob j v).tiles = s.tiles ∧ (s.setCkptJob j v).ctxs = s.ctxs ∧
  (s.setCkptJob j v).istore = s.istore ∧ (s.setCkptJob j v).images = s.images ∧
  (s.setCkptJob j v).partJob = s.partJob ∧ (s.setCkptJob j v).jobs = s.jobs ∧
  (s.setCkptJob j v).jobHolds = s.jobHolds ∧ (s.setCkptJob j v).faultRecs = s.faultRecs ∧
  (s.setCkptJob j v).mem = s.mem ∧ (s.setCkptJob j v).bad = s.bad ∧ (s.setCkptJob j v).upsets = s.upsets ∧ (s.setCkptJob j v).keys = s.keys ∧
  (s.setCkptJob j v).lineKeys = s.lineKeys ∧ (s.setCkptJob j v).mds = s.mds ∧
  (s.setCkptJob j v).ueReports = s.ueReports ∧ (s.setCkptJob j v).fabs = s.fabs ∧
  (s.setCkptJob j v).hurTimeout = s.hurTimeout ∧ (s.setCkptJob j v).links = s.links ∧
  (s.setCkptJob j v).engines = s.engines ∧ (s.setCkptJob j v).skeins = s.skeins ∧
  (s.setCkptJob j v).olanes = s.olanes ∧ (s.setCkptJob j v).slotInfo = s.slotInfo ∧
  (s.setCkptJob j v).elems = s.elems ∧ (s.setCkptJob j v).shep = s.shep ∧ (s.setCkptJob j v).obs = s.obs ∧
  (s.setCkptJob j v).cast = s.cast ∧ (s.setCkptJob j v).sec = s.sec ∧ (s.setCkptJob j v).flash = s.flash ∧
  (s.setCkptJob j v).tally = s.tally ∧ (s.setCkptJob j v).tests = s.tests ∧
  (s.setCkptJob j v).mgmt = s.mgmt ∧ (s.setCkptJob j v).raised = s.raised ∧
  (s.setCkptJob j v).out = s.out ∧ (s.setCkptJob j v).twin.coord = s.twin.coord ∧
  (s.setCkptJob j v).twin.paired = s.twin.paired ∧ (s.setCkptJob j v).twin.twinless = s.twin.twinless ∧
  (s.setCkptJob j v).twin.handshake = s.twin.handshake ∧ (s.setCkptJob j v).twin.crossed = s.twin.crossed ∧
  (s.setCkptJob j v).twin.sentHandshake = s.twin.sentHandshake ∧
  (s.setCkptJob j v).twin.timeout = s.twin.timeout ∧ (s.setCkptJob j v).twin.mainOn = s.twin.mainOn ∧
  (s.setCkptJob j v).twin.bindingOff = s.twin.bindingOff ∧ (s.setCkptJob j v).twin.penned = s.twin.penned ∧
  (s.setCkptJob j v).twin.heldGib = s.twin.heldGib ∧ (s.setCkptJob j v).twin.heldRow = s.twin.heldRow ∧
  (s.setCkptJob j v).twin.held = s.twin.held ∧ (s.setCkptJob j v).twin.bindOff = s.twin.bindOff := by and_intros <;> rfl

@[simp] theorem State.setHeldJob_frame (s : State) (h : Nat) (v : Held) :
  (s.setHeldJob h v).pending = s.pending ∧ (s.setHeldJob h v).free = s.free ∧
  (s.setHeldJob h v).tb = s.tb ∧ (s.setHeldJob h v).pwr = s.pwr ∧ (s.setHeldJob h v).gate = s.gate ∧
  (s.setHeldJob h v).bands = s.bands ∧ (s.setHeldJob h v).partMem = s.partMem ∧
  (s.setHeldJob h v).ecs = s.ecs ∧ (s.setHeldJob h v).rings = s.rings ∧ (s.setHeldJob h v).dies = s.dies ∧
  (s.setHeldJob h v).tiles = s.tiles ∧ (s.setHeldJob h v).ctxs = s.ctxs ∧
  (s.setHeldJob h v).istore = s.istore ∧ (s.setHeldJob h v).images = s.images ∧
  (s.setHeldJob h v).partJob = s.partJob ∧ (s.setHeldJob h v).jobs = s.jobs ∧
  (s.setHeldJob h v).jobHolds = s.jobHolds ∧ (s.setHeldJob h v).faultRecs = s.faultRecs ∧
  (s.setHeldJob h v).mem = s.mem ∧ (s.setHeldJob h v).bad = s.bad ∧ (s.setHeldJob h v).upsets = s.upsets ∧ (s.setHeldJob h v).keys = s.keys ∧
  (s.setHeldJob h v).lineKeys = s.lineKeys ∧ (s.setHeldJob h v).mds = s.mds ∧
  (s.setHeldJob h v).ueReports = s.ueReports ∧ (s.setHeldJob h v).fabs = s.fabs ∧
  (s.setHeldJob h v).hurTimeout = s.hurTimeout ∧ (s.setHeldJob h v).links = s.links ∧
  (s.setHeldJob h v).engines = s.engines ∧ (s.setHeldJob h v).skeins = s.skeins ∧
  (s.setHeldJob h v).olanes = s.olanes ∧ (s.setHeldJob h v).slotInfo = s.slotInfo ∧
  (s.setHeldJob h v).elems = s.elems ∧ (s.setHeldJob h v).shep = s.shep ∧ (s.setHeldJob h v).obs = s.obs ∧
  (s.setHeldJob h v).cast = s.cast ∧ (s.setHeldJob h v).sec = s.sec ∧ (s.setHeldJob h v).flash = s.flash ∧
  (s.setHeldJob h v).tally = s.tally ∧ (s.setHeldJob h v).tests = s.tests ∧
  (s.setHeldJob h v).mgmt = s.mgmt ∧ (s.setHeldJob h v).raised = s.raised ∧
  (s.setHeldJob h v).out = s.out ∧ (s.setHeldJob h v).twin.coord = s.twin.coord ∧
  (s.setHeldJob h v).twin.paired = s.twin.paired ∧ (s.setHeldJob h v).twin.twinless = s.twin.twinless ∧
  (s.setHeldJob h v).twin.handshake = s.twin.handshake ∧ (s.setHeldJob h v).twin.crossed = s.twin.crossed ∧
  (s.setHeldJob h v).twin.sentHandshake = s.twin.sentHandshake ∧
  (s.setHeldJob h v).twin.timeout = s.twin.timeout ∧ (s.setHeldJob h v).twin.mainOn = s.twin.mainOn ∧
  (s.setHeldJob h v).twin.bindingOff = s.twin.bindingOff ∧ (s.setHeldJob h v).twin.penned = s.twin.penned ∧
  (s.setHeldJob h v).twin.heldGib = s.twin.heldGib ∧ (s.setHeldJob h v).twin.heldRow = s.twin.heldRow ∧
  (s.setHeldJob h v).twin.jobs = s.twin.jobs ∧ (s.setHeldJob h v).twin.bindOff = s.twin.bindOff := by and_intros <;> rfl

theorem State.ring_setRing (s : State) (r : Nat) (v : Ring) (h : tabWf ringDef s.rings = true) :
    (s.setRing r v).ring r = v := tabGet_tabSet_same v h

theorem State.ring_setRing_ne (s : State) {r r' : Nat} (v : Ring) (h : r' ≠ r) :
    (s.setRing r v).ring r' = s.ring r' := tabGet_tabSet_ne v h

theorem State.die_setDie (s : State) (n : Nat) (v : TileDie) (h : tabWf (fun _ => ({} : TileDie)) s.dies = true) :
    (s.setDie n v).die n = v := tabGet_tabSet_same v h

theorem State.die_setDie_ne (s : State) {n n' : Nat} (v : TileDie) (h : n' ≠ n) :
    (s.setDie n v).die n' = s.die n' := tabGet_tabSet_ne v h

theorem State.tile_setTile (s : State) (t : Nat) (v : Tile) (h : tabWf (fun _ => ({} : Tile)) s.tiles = true) :
    (s.setTile t v).tile t = v := tabGet_tabSet_same v h

theorem State.tile_setTile_ne (s : State) {t t' : Nat} (v : Tile) (h : t' ≠ t) :
    (s.setTile t v).tile t' = s.tile t' := tabGet_tabSet_ne v h

theorem State.ctx_setCtx (s : State) (t c : Nat) (v : Ctx) (h : tabWf (fun _ => ({} : Ctx)) s.ctxs = true) :
    (s.setCtx t c v).ctx t c = v := tabGet_tabSet_same v h

theorem State.ctx_setCtx_ne (s : State) {t c t' c' : Nat} (v : Ctx) (h : ctxKey t' c' ≠ ctxKey t c) :
    (s.setCtx t c v).ctx t' c' = s.ctx t' c' := tabGet_tabSet_ne v h

theorem State.job_setJob (s : State) (j : Nat) (v : Job) (h : tabWf (fun _ => ({} : Job)) s.jobs = true) :
    (s.setJob j v).job j = v := tabGet_tabSet_same v h

theorem State.job_setJob_ne (s : State) {j j' : Nat} (v : Job) (h : j' ≠ j) :
    (s.setJob j v).job j' = s.job j' := tabGet_tabSet_ne v h

theorem State.md_setMd (s : State) (n : Nat) (v : MemDie) (h : tabWf (fun _ => ({} : MemDie)) s.mds = true) :
    (s.setMd n v).md n = v := tabGet_tabSet_same v h

theorem State.md_setMd_ne (s : State) {n n' : Nat} (v : MemDie) (h : n' ≠ n) :
    (s.setMd n v).md n' = s.md n' := tabGet_tabSet_ne v h

theorem State.fab_setFab (s : State) (n : Nat) (v : Fab) (h : tabWf (fun _ => ({} : Fab)) s.fabs = true) :
    (s.setFab n v).fab n = v := tabGet_tabSet_same v h

theorem State.fab_setFab_ne (s : State) {n n' : Nat} (v : Fab) (h : n' ≠ n) :
    (s.setFab n v).fab n' = s.fab n' := tabGet_tabSet_ne v h

theorem State.link_setLink (s : State) (fd k : Nat) (v : Link) (h : tabWf (fun _ => ({} : Link)) s.links = true) :
    (s.setLink fd k v).link fd k = v := tabGet_tabSet_same v h

theorem State.link_setLink_ne (s : State) {fd k fd' k' : Nat} (v : Link) (h : linkKey fd' k' ≠ linkKey fd k) :
    (s.setLink fd k v).link fd' k' = s.link fd' k' := tabGet_tabSet_ne v h

theorem State.engine_setEngine (s : State) (n : Nat) (v : Engine) (h : tabWf (fun _ => ({} : Engine)) s.engines = true) :
    (s.setEngine n v).engine n = v := tabGet_tabSet_same v h

theorem State.engine_setEngine_ne (s : State) {n n' : Nat} (v : Engine) (h : n' ≠ n) :
    (s.setEngine n v).engine n' = s.engine n' := tabGet_tabSet_ne v h

theorem State.skein_setSkein (s : State) (q : Nat) (v : Skein) (h : tabWf (fun _ => ({} : Skein)) s.skeins = true) :
    (s.setSkein q v).skein q = v := tabGet_tabSet_same v h

theorem State.skein_setSkein_ne (s : State) {q q' : Nat} (v : Skein) (h : q' ≠ q) :
    (s.setSkein q v).skein q' = s.skein q' := tabGet_tabSet_ne v h

theorem State.olane_setOlane (s : State) (q j : Nat) (v : OLane) (h : tabWf (fun _ => ({} : OLane)) s.olanes = true) :
    (s.setOlane q j v).olane q j = v := tabGet_tabSet_same v h

theorem State.olane_setOlane_ne (s : State) {q j q' j' : Nat} (v : OLane) (h : olaneKey q' j' ≠ olaneKey q j) :
    (s.setOlane q j v).olane q' j' = s.olane q' j' := tabGet_tabSet_ne v h

theorem State.slotI_setSlotI (s : State) (q k : Nat) (v : SlotInfo) (h : tabWf (fun _ => ({} : SlotInfo)) s.slotInfo = true) :
    (s.setSlotI q k v).slotI q k = v := tabGet_tabSet_same v h

theorem State.slotI_setSlotI_ne (s : State) {q k q' k' : Nat} (v : SlotInfo) (h : slotKey q' k' ≠ slotKey q k) :
    (s.setSlotI q k v).slotI q' k' = s.slotI q' k' := tabGet_tabSet_ne v h

theorem State.elem_setElem (s : State) (n e : Nat) (v : Elem) (h : tabWf (fun _ => ({} : Elem)) s.elems = true) :
    (s.setElem n e v).elem n e = v := tabGet_tabSet_same v h

theorem State.elem_setElem_ne (s : State) {n e n' e' : Nat} (v : Elem) (h : elemKey n' e' ≠ elemKey n e) :
    (s.setElem n e v).elem n' e' = s.elem n' e' := tabGet_tabSet_ne v h

theorem State.obsOf_setObs (s : State) (m : Nat) (v : Obs) (h : tabWf (fun _ => ({} : Obs)) s.obs = true) :
    (s.setObs m v).obsOf m = v := tabGet_tabSet_same v h

theorem State.obsOf_setObs_ne (s : State) {m m' : Nat} (v : Obs) (h : m' ≠ m) :
    (s.setObs m v).obsOf m' = s.obsOf m' := tabGet_tabSet_ne v h

theorem State.band_setBand (s : State) (b : Nat) (v : Band) (h : tabWf (fun _ => ({} : Band)) s.bands = true) :
    (s.setBand b v).band b = v := tabGet_tabSet_same v h

theorem State.band_setBand_ne (s : State) {b b' : Nat} (v : Band) (h : b' ≠ b) :
    (s.setBand b v).band b' = s.band b' := tabGet_tabSet_ne v h

theorem State.part_setPart (s : State) (p : Nat) (v : PartMem) (h : tabWf (fun _ => ({} : PartMem)) s.partMem = true) :
    (s.setPart p v).part p = v := tabGet_tabSet_same v h

theorem State.part_setPart_ne (s : State) {p p' : Nat} (v : PartMem) (h : p' ≠ p) :
    (s.setPart p v).part p' = s.part p' := tabGet_tabSet_ne v h

theorem State.ecsOf_setEcs (s : State) (x : Nat) (v : Ecs) (h : tabWf (fun _ => ({} : Ecs)) s.ecs = true) :
    (s.setEcs x v).ecsOf x = v := tabGet_tabSet_same v h

theorem State.ecsOf_setEcs_ne (s : State) {x x' : Nat} (v : Ecs) (h : x' ≠ x) :
    (s.setEcs x v).ecsOf x' = s.ecsOf x' := tabGet_tabSet_ne v h

theorem State.test_setTest (s : State) (fd lane : Nat) (v : LaneTest) (h : tabWf (fun _ => ({} : LaneTest)) s.tests = true) :
    (s.setTest fd lane v).test fd lane = v := tabGet_tabSet_same v h

theorem State.test_setTest_ne (s : State) {fd lane fd' lane' : Nat} (v : LaneTest) (h : testKey fd' lane' ≠ testKey fd lane) :
    (s.setTest fd lane v).test fd' lane' = s.test fd' lane' := tabGet_tabSet_ne v h

@[simp] theorem Ctx.setA_frame (x : Ctx) (i : Nat) (v : BitVec 48) :
  (x.setA i v).mode = x.mode ∧ (x.setA i v).waitCause = x.waitCause ∧ (x.setA i v).fault = x.fault ∧
  (x.setA i v).chainId = x.chainId ∧ (x.setA i v).pc = x.pc ∧ (x.setA i v).faultWord = x.faultWord ∧
  (x.setA i v).jobId = x.jobId ∧ (x.setA i v).jobGen = x.jobGen ∧ (x.setA i v).beats = x.beats ∧
  (x.setA i v).beatsOvf = x.beatsOvf ∧ (x.setA i v).istoreBase = x.istoreBase ∧
  (x.setA i v).istoreLen = x.istoreLen ∧ (x.setA i v).windowBase = x.windowBase ∧
  (x.setA i v).windowLen = x.windowLen ∧ (x.setA i v).s = x.s ∧ (x.setA i v).p = x.p ∧
  (x.setA i v).v = x.v ∧ (x.setA i v).wb = x.wb ∧ (x.setA i v).acc = x.acc ∧ (x.setA i v).rm = x.rm ∧
  (x.setA i v).ftz = x.ftz ∧ (x.setA i v).flags = x.flags ∧ (x.setA i v).gen = x.gen ∧
  (x.setA i v).loops = x.loops ∧ (x.setA i v).mems = x.mems ∧ (x.setA i v).memOrder = x.memOrder ∧
  (x.setA i v).fabs = x.fabs ∧ (x.setA i v).outs = x.outs ∧ (x.setA i v).ins = x.ins ∧
  (x.setA i v).arrived = x.arrived ∧ (x.setA i v).heldArr = x.heldArr ∧ (x.setA i v).inSync = x.inSync ∧
  (x.setA i v).heldEvents = x.heldEvents ∧ (x.setA i v).lastHur = x.lastHur ∧
  (x.setA i v).lastHurGen = x.lastHurGen := by and_intros <;> rfl

@[simp] theorem Ctx.setP_frame (x : Ctx) (i : Nat) (v : Bool) :
  (x.setP i v).mode = x.mode ∧ (x.setP i v).waitCause = x.waitCause ∧ (x.setP i v).fault = x.fault ∧
  (x.setP i v).chainId = x.chainId ∧ (x.setP i v).pc = x.pc ∧ (x.setP i v).faultWord = x.faultWord ∧
  (x.setP i v).jobId = x.jobId ∧ (x.setP i v).jobGen = x.jobGen ∧ (x.setP i v).beats = x.beats ∧
  (x.setP i v).beatsOvf = x.beatsOvf ∧ (x.setP i v).istoreBase = x.istoreBase ∧
  (x.setP i v).istoreLen = x.istoreLen ∧ (x.setP i v).windowBase = x.windowBase ∧
  (x.setP i v).windowLen = x.windowLen ∧ (x.setP i v).s = x.s ∧ (x.setP i v).a = x.a ∧
  (x.setP i v).v = x.v ∧ (x.setP i v).wb = x.wb ∧ (x.setP i v).acc = x.acc ∧ (x.setP i v).rm = x.rm ∧
  (x.setP i v).ftz = x.ftz ∧ (x.setP i v).flags = x.flags ∧ (x.setP i v).gen = x.gen ∧
  (x.setP i v).loops = x.loops ∧ (x.setP i v).mems = x.mems ∧ (x.setP i v).memOrder = x.memOrder ∧
  (x.setP i v).fabs = x.fabs ∧ (x.setP i v).outs = x.outs ∧ (x.setP i v).ins = x.ins ∧
  (x.setP i v).arrived = x.arrived ∧ (x.setP i v).heldArr = x.heldArr ∧ (x.setP i v).inSync = x.inSync ∧
  (x.setP i v).heldEvents = x.heldEvents ∧ (x.setP i v).lastHur = x.lastHur ∧
  (x.setP i v).lastHurGen = x.lastHurGen := by and_intros <;> rfl

@[simp] theorem Ctx.setV_frame (x : Ctx) (i : Nat) (v : Vec) :
  (x.setV i v).mode = x.mode ∧ (x.setV i v).waitCause = x.waitCause ∧ (x.setV i v).fault = x.fault ∧
  (x.setV i v).chainId = x.chainId ∧ (x.setV i v).pc = x.pc ∧ (x.setV i v).faultWord = x.faultWord ∧
  (x.setV i v).jobId = x.jobId ∧ (x.setV i v).jobGen = x.jobGen ∧ (x.setV i v).beats = x.beats ∧
  (x.setV i v).beatsOvf = x.beatsOvf ∧ (x.setV i v).istoreBase = x.istoreBase ∧
  (x.setV i v).istoreLen = x.istoreLen ∧ (x.setV i v).windowBase = x.windowBase ∧
  (x.setV i v).windowLen = x.windowLen ∧ (x.setV i v).s = x.s ∧ (x.setV i v).a = x.a ∧
  (x.setV i v).p = x.p ∧ (x.setV i v).wb = x.wb ∧ (x.setV i v).acc = x.acc ∧ (x.setV i v).rm = x.rm ∧
  (x.setV i v).ftz = x.ftz ∧ (x.setV i v).flags = x.flags ∧ (x.setV i v).gen = x.gen ∧
  (x.setV i v).loops = x.loops ∧ (x.setV i v).mems = x.mems ∧ (x.setV i v).memOrder = x.memOrder ∧
  (x.setV i v).fabs = x.fabs ∧ (x.setV i v).outs = x.outs ∧ (x.setV i v).ins = x.ins ∧
  (x.setV i v).arrived = x.arrived ∧ (x.setV i v).heldArr = x.heldArr ∧ (x.setV i v).inSync = x.inSync ∧
  (x.setV i v).heldEvents = x.heldEvents ∧ (x.setV i v).lastHur = x.lastHur ∧
  (x.setV i v).lastHurGen = x.lastHurGen := by and_intros <;> rfl

@[simp] theorem Ctx.setW_frame (x : Ctx) (i : Nat) (v : WBuf) :
  (x.setW i v).mode = x.mode ∧ (x.setW i v).waitCause = x.waitCause ∧ (x.setW i v).fault = x.fault ∧
  (x.setW i v).chainId = x.chainId ∧ (x.setW i v).pc = x.pc ∧ (x.setW i v).faultWord = x.faultWord ∧
  (x.setW i v).jobId = x.jobId ∧ (x.setW i v).jobGen = x.jobGen ∧ (x.setW i v).beats = x.beats ∧
  (x.setW i v).beatsOvf = x.beatsOvf ∧ (x.setW i v).istoreBase = x.istoreBase ∧
  (x.setW i v).istoreLen = x.istoreLen ∧ (x.setW i v).windowBase = x.windowBase ∧
  (x.setW i v).windowLen = x.windowLen ∧ (x.setW i v).s = x.s ∧ (x.setW i v).a = x.a ∧
  (x.setW i v).p = x.p ∧ (x.setW i v).v = x.v ∧ (x.setW i v).acc = x.acc ∧ (x.setW i v).rm = x.rm ∧
  (x.setW i v).ftz = x.ftz ∧ (x.setW i v).flags = x.flags ∧ (x.setW i v).gen = x.gen ∧
  (x.setW i v).loops = x.loops ∧ (x.setW i v).mems = x.mems ∧ (x.setW i v).memOrder = x.memOrder ∧
  (x.setW i v).fabs = x.fabs ∧ (x.setW i v).outs = x.outs ∧ (x.setW i v).ins = x.ins ∧
  (x.setW i v).arrived = x.arrived ∧ (x.setW i v).heldArr = x.heldArr ∧ (x.setW i v).inSync = x.inSync ∧
  (x.setW i v).heldEvents = x.heldEvents ∧ (x.setW i v).lastHur = x.lastHur ∧
  (x.setW i v).lastHurGen = x.lastHurGen := by and_intros <;> rfl

@[simp] theorem Ctx.setAcc_frame (x : Ctx) (i : Nat) (v : BitVec 1024) :
  (x.setAcc i v).mode = x.mode ∧ (x.setAcc i v).waitCause = x.waitCause ∧ (x.setAcc i v).fault = x.fault ∧
  (x.setAcc i v).chainId = x.chainId ∧ (x.setAcc i v).pc = x.pc ∧ (x.setAcc i v).faultWord = x.faultWord ∧
  (x.setAcc i v).jobId = x.jobId ∧ (x.setAcc i v).jobGen = x.jobGen ∧ (x.setAcc i v).beats = x.beats ∧
  (x.setAcc i v).beatsOvf = x.beatsOvf ∧ (x.setAcc i v).istoreBase = x.istoreBase ∧
  (x.setAcc i v).istoreLen = x.istoreLen ∧ (x.setAcc i v).windowBase = x.windowBase ∧
  (x.setAcc i v).windowLen = x.windowLen ∧ (x.setAcc i v).s = x.s ∧ (x.setAcc i v).a = x.a ∧
  (x.setAcc i v).p = x.p ∧ (x.setAcc i v).v = x.v ∧ (x.setAcc i v).wb = x.wb ∧ (x.setAcc i v).rm = x.rm ∧
  (x.setAcc i v).ftz = x.ftz ∧ (x.setAcc i v).flags = x.flags ∧ (x.setAcc i v).gen = x.gen ∧
  (x.setAcc i v).loops = x.loops ∧ (x.setAcc i v).mems = x.mems ∧ (x.setAcc i v).memOrder = x.memOrder ∧
  (x.setAcc i v).fabs = x.fabs ∧ (x.setAcc i v).outs = x.outs ∧ (x.setAcc i v).ins = x.ins ∧
  (x.setAcc i v).arrived = x.arrived ∧ (x.setAcc i v).heldArr = x.heldArr ∧
  (x.setAcc i v).inSync = x.inSync ∧ (x.setAcc i v).heldEvents = x.heldEvents ∧
  (x.setAcc i v).lastHur = x.lastHur ∧ (x.setAcc i v).lastHurGen = x.lastHurGen := by and_intros <;> rfl

@[simp] theorem Ctx.setLoop_frame (x : Ctx) (l : Nat) (v : Loop) :
  (x.setLoop l v).mode = x.mode ∧ (x.setLoop l v).waitCause = x.waitCause ∧
  (x.setLoop l v).fault = x.fault ∧ (x.setLoop l v).chainId = x.chainId ∧ (x.setLoop l v).pc = x.pc ∧
  (x.setLoop l v).faultWord = x.faultWord ∧ (x.setLoop l v).jobId = x.jobId ∧
  (x.setLoop l v).jobGen = x.jobGen ∧ (x.setLoop l v).beats = x.beats ∧
  (x.setLoop l v).beatsOvf = x.beatsOvf ∧ (x.setLoop l v).istoreBase = x.istoreBase ∧
  (x.setLoop l v).istoreLen = x.istoreLen ∧ (x.setLoop l v).windowBase = x.windowBase ∧
  (x.setLoop l v).windowLen = x.windowLen ∧ (x.setLoop l v).s = x.s ∧ (x.setLoop l v).a = x.a ∧
  (x.setLoop l v).p = x.p ∧ (x.setLoop l v).v = x.v ∧ (x.setLoop l v).wb = x.wb ∧
  (x.setLoop l v).acc = x.acc ∧ (x.setLoop l v).rm = x.rm ∧ (x.setLoop l v).ftz = x.ftz ∧
  (x.setLoop l v).flags = x.flags ∧ (x.setLoop l v).gen = x.gen ∧ (x.setLoop l v).mems = x.mems ∧
  (x.setLoop l v).memOrder = x.memOrder ∧ (x.setLoop l v).fabs = x.fabs ∧ (x.setLoop l v).outs = x.outs ∧
  (x.setLoop l v).ins = x.ins ∧ (x.setLoop l v).arrived = x.arrived ∧ (x.setLoop l v).heldArr = x.heldArr ∧
  (x.setLoop l v).inSync = x.inSync ∧ (x.setLoop l v).heldEvents = x.heldEvents ∧
  (x.setLoop l v).lastHur = x.lastHur ∧ (x.setLoop l v).lastHurGen = x.lastHurGen := by and_intros <;> rfl

@[simp] theorem Ctx.setMem_frame (x : Ctx) (t : Nat) (v : Tag) :
  (x.setMem t v).mode = x.mode ∧ (x.setMem t v).waitCause = x.waitCause ∧ (x.setMem t v).fault = x.fault ∧
  (x.setMem t v).chainId = x.chainId ∧ (x.setMem t v).pc = x.pc ∧ (x.setMem t v).faultWord = x.faultWord ∧
  (x.setMem t v).jobId = x.jobId ∧ (x.setMem t v).jobGen = x.jobGen ∧ (x.setMem t v).beats = x.beats ∧
  (x.setMem t v).beatsOvf = x.beatsOvf ∧ (x.setMem t v).istoreBase = x.istoreBase ∧
  (x.setMem t v).istoreLen = x.istoreLen ∧ (x.setMem t v).windowBase = x.windowBase ∧
  (x.setMem t v).windowLen = x.windowLen ∧ (x.setMem t v).s = x.s ∧ (x.setMem t v).a = x.a ∧
  (x.setMem t v).p = x.p ∧ (x.setMem t v).v = x.v ∧ (x.setMem t v).wb = x.wb ∧ (x.setMem t v).acc = x.acc ∧
  (x.setMem t v).rm = x.rm ∧ (x.setMem t v).ftz = x.ftz ∧ (x.setMem t v).flags = x.flags ∧
  (x.setMem t v).gen = x.gen ∧ (x.setMem t v).loops = x.loops ∧ (x.setMem t v).memOrder = x.memOrder ∧
  (x.setMem t v).fabs = x.fabs ∧ (x.setMem t v).outs = x.outs ∧ (x.setMem t v).ins = x.ins ∧
  (x.setMem t v).arrived = x.arrived ∧ (x.setMem t v).heldArr = x.heldArr ∧
  (x.setMem t v).inSync = x.inSync ∧ (x.setMem t v).heldEvents = x.heldEvents ∧
  (x.setMem t v).lastHur = x.lastHur ∧ (x.setMem t v).lastHurGen = x.lastHurGen := by and_intros <;> rfl

@[simp] theorem Ctx.setFab_frame (x : Ctx) (t : Nat) (v : Tag) :
  (x.setFab t v).mode = x.mode ∧ (x.setFab t v).waitCause = x.waitCause ∧ (x.setFab t v).fault = x.fault ∧
  (x.setFab t v).chainId = x.chainId ∧ (x.setFab t v).pc = x.pc ∧ (x.setFab t v).faultWord = x.faultWord ∧
  (x.setFab t v).jobId = x.jobId ∧ (x.setFab t v).jobGen = x.jobGen ∧ (x.setFab t v).beats = x.beats ∧
  (x.setFab t v).beatsOvf = x.beatsOvf ∧ (x.setFab t v).istoreBase = x.istoreBase ∧
  (x.setFab t v).istoreLen = x.istoreLen ∧ (x.setFab t v).windowBase = x.windowBase ∧
  (x.setFab t v).windowLen = x.windowLen ∧ (x.setFab t v).s = x.s ∧ (x.setFab t v).a = x.a ∧
  (x.setFab t v).p = x.p ∧ (x.setFab t v).v = x.v ∧ (x.setFab t v).wb = x.wb ∧ (x.setFab t v).acc = x.acc ∧
  (x.setFab t v).rm = x.rm ∧ (x.setFab t v).ftz = x.ftz ∧ (x.setFab t v).flags = x.flags ∧
  (x.setFab t v).gen = x.gen ∧ (x.setFab t v).loops = x.loops ∧ (x.setFab t v).mems = x.mems ∧
  (x.setFab t v).memOrder = x.memOrder ∧ (x.setFab t v).outs = x.outs ∧ (x.setFab t v).ins = x.ins ∧
  (x.setFab t v).arrived = x.arrived ∧ (x.setFab t v).heldArr = x.heldArr ∧
  (x.setFab t v).inSync = x.inSync ∧ (x.setFab t v).heldEvents = x.heldEvents ∧
  (x.setFab t v).lastHur = x.lastHur ∧ (x.setFab t v).lastHurGen = x.lastHurGen := by and_intros <;> rfl

@[simp] theorem Ctx.setOut_frame (x : Ctx) (e : Nat) (v : OutEp) :
  (x.setOut e v).mode = x.mode ∧ (x.setOut e v).waitCause = x.waitCause ∧ (x.setOut e v).fault = x.fault ∧
  (x.setOut e v).chainId = x.chainId ∧ (x.setOut e v).pc = x.pc ∧ (x.setOut e v).faultWord = x.faultWord ∧
  (x.setOut e v).jobId = x.jobId ∧ (x.setOut e v).jobGen = x.jobGen ∧ (x.setOut e v).beats = x.beats ∧
  (x.setOut e v).beatsOvf = x.beatsOvf ∧ (x.setOut e v).istoreBase = x.istoreBase ∧
  (x.setOut e v).istoreLen = x.istoreLen ∧ (x.setOut e v).windowBase = x.windowBase ∧
  (x.setOut e v).windowLen = x.windowLen ∧ (x.setOut e v).s = x.s ∧ (x.setOut e v).a = x.a ∧
  (x.setOut e v).p = x.p ∧ (x.setOut e v).v = x.v ∧ (x.setOut e v).wb = x.wb ∧ (x.setOut e v).acc = x.acc ∧
  (x.setOut e v).rm = x.rm ∧ (x.setOut e v).ftz = x.ftz ∧ (x.setOut e v).flags = x.flags ∧
  (x.setOut e v).gen = x.gen ∧ (x.setOut e v).loops = x.loops ∧ (x.setOut e v).mems = x.mems ∧
  (x.setOut e v).memOrder = x.memOrder ∧ (x.setOut e v).fabs = x.fabs ∧ (x.setOut e v).ins = x.ins ∧
  (x.setOut e v).arrived = x.arrived ∧ (x.setOut e v).heldArr = x.heldArr ∧
  (x.setOut e v).inSync = x.inSync ∧ (x.setOut e v).heldEvents = x.heldEvents ∧
  (x.setOut e v).lastHur = x.lastHur ∧ (x.setOut e v).lastHurGen = x.lastHurGen := by and_intros <;> rfl

@[simp] theorem Ctx.setIn_frame (x : Ctx) (e : Nat) (v : InEp) :
  (x.setIn e v).mode = x.mode ∧ (x.setIn e v).waitCause = x.waitCause ∧ (x.setIn e v).fault = x.fault ∧
  (x.setIn e v).chainId = x.chainId ∧ (x.setIn e v).pc = x.pc ∧ (x.setIn e v).faultWord = x.faultWord ∧
  (x.setIn e v).jobId = x.jobId ∧ (x.setIn e v).jobGen = x.jobGen ∧ (x.setIn e v).beats = x.beats ∧
  (x.setIn e v).beatsOvf = x.beatsOvf ∧ (x.setIn e v).istoreBase = x.istoreBase ∧
  (x.setIn e v).istoreLen = x.istoreLen ∧ (x.setIn e v).windowBase = x.windowBase ∧
  (x.setIn e v).windowLen = x.windowLen ∧ (x.setIn e v).s = x.s ∧ (x.setIn e v).a = x.a ∧
  (x.setIn e v).p = x.p ∧ (x.setIn e v).v = x.v ∧ (x.setIn e v).wb = x.wb ∧ (x.setIn e v).acc = x.acc ∧
  (x.setIn e v).rm = x.rm ∧ (x.setIn e v).ftz = x.ftz ∧ (x.setIn e v).flags = x.flags ∧
  (x.setIn e v).gen = x.gen ∧ (x.setIn e v).loops = x.loops ∧ (x.setIn e v).mems = x.mems ∧
  (x.setIn e v).memOrder = x.memOrder ∧ (x.setIn e v).fabs = x.fabs ∧ (x.setIn e v).outs = x.outs ∧
  (x.setIn e v).arrived = x.arrived ∧ (x.setIn e v).heldArr = x.heldArr ∧ (x.setIn e v).inSync = x.inSync ∧
  (x.setIn e v).heldEvents = x.heldEvents ∧ (x.setIn e v).lastHur = x.lastHur ∧
  (x.setIn e v).lastHurGen = x.lastHurGen := by and_intros <;> rfl

@[simp] theorem Ctx.setS_frame (x : Ctx) (i : Nat) (v : Word) :
  (x.setS i v).mode = x.mode ∧ (x.setS i v).waitCause = x.waitCause ∧ (x.setS i v).fault = x.fault ∧
  (x.setS i v).chainId = x.chainId ∧ (x.setS i v).pc = x.pc ∧ (x.setS i v).faultWord = x.faultWord ∧
  (x.setS i v).jobId = x.jobId ∧ (x.setS i v).jobGen = x.jobGen ∧ (x.setS i v).beats = x.beats ∧
  (x.setS i v).beatsOvf = x.beatsOvf ∧ (x.setS i v).istoreBase = x.istoreBase ∧
  (x.setS i v).istoreLen = x.istoreLen ∧ (x.setS i v).windowBase = x.windowBase ∧
  (x.setS i v).windowLen = x.windowLen ∧ (x.setS i v).a = x.a ∧ (x.setS i v).p = x.p ∧
  (x.setS i v).v = x.v ∧ (x.setS i v).wb = x.wb ∧ (x.setS i v).acc = x.acc ∧ (x.setS i v).rm = x.rm ∧
  (x.setS i v).ftz = x.ftz ∧ (x.setS i v).flags = x.flags ∧ (x.setS i v).gen = x.gen ∧
  (x.setS i v).loops = x.loops ∧ (x.setS i v).mems = x.mems ∧ (x.setS i v).memOrder = x.memOrder ∧
  (x.setS i v).fabs = x.fabs ∧ (x.setS i v).outs = x.outs ∧ (x.setS i v).ins = x.ins ∧
  (x.setS i v).arrived = x.arrived ∧ (x.setS i v).heldArr = x.heldArr ∧ (x.setS i v).inSync = x.inSync ∧
  (x.setS i v).heldEvents = x.heldEvents ∧ (x.setS i v).lastHur = x.lastHur ∧
  (x.setS i v).lastHurGen = x.lastHurGen := by
  unfold Ctx.setS; split <;> simp

end Sys2Proof.Machine
end

