-- ==== Sys2Proof/Laws/Memory.lean ====
section
/-! SUPPORT. Memory: what its operations do to the byte at an address, and that each keeps the canonical form. -/

namespace Sys2Proof.Machine

/-- The canonical form speaks of four fields only. -/
theorem Memory.wf_congr {s u : State} (h1 : u.mem = s.mem) (h2 : u.bad = s.bad) (h3 : u.lineKeys = s.lineKeys)
    (h4 : u.upsets = s.upsets) (h : Memory.wf s = true) : Memory.wf u = true := by
  unfold Memory.wf at *; rw [h1, h2, h3, h4]; exact h

theorem Memory.wf_mk {s u : State} (h : Memory.wf s = true) (h1 : tabWf memDef s.mem = true → tabWf memDef u.mem = true)
    (h2 : tabWf (fun _ => false) s.bad = true → tabWf (fun _ => false) u.bad = true)
    (h3 : tabWf (fun _ => 0) s.lineKeys = true → tabWf (fun _ => 0) u.lineKeys = true)
    (h4 : tabWf (fun _ => []) s.upsets = true → tabWf (fun _ => []) u.upsets = true) : Memory.wf u = true := by
  unfold Memory.wf at *
  simp only [Bool.and_eq_true] at *
  exact ⟨⟨h1 h.1.1, h2 h.1.2⟩, h3 h.2.1, h4 h.2.2⟩

/-- What the canonical form speaks of. -/
def State.memView (s : State) : Tab Byte × Tab Bool × Tab Nat × Tab (List Nat) := (s.mem, s.bad, s.lineKeys, s.upsets)

theorem Memory.wf_view {s u : State} (e : u.memView = s.memView) (h : Memory.wf s = true) : Memory.wf u = true := by
  simp only [State.memView, Prod.mk.injEq] at e
  exact Memory.wf_congr e.1 e.2.1 e.2.2.1 e.2.2.2 h

/-- A fold of operations that leave memory alone leaves it alone. -/
theorem memView_foldl {β : Type} {f : State → β → State} (hf : ∀ s b, (f s b).memView = s.memView) (l : List β)
    (s : State) : (l.foldl f s).memView = s.memView := by
  induction l generalizing s with
  | nil => rfl
  | cons b l ih => rw [List.foldl_cons, ih, hf]

/-- A fold of operations that keep the form keeps it. -/
theorem Memory.wf_foldl {β : Type} {f : State → β → State} (hf : ∀ s b, Memory.wf s = true → Memory.wf (f s b) = true)
    (l : List β) {s : State} (h : Memory.wf s = true) : Memory.wf (l.foldl f s) = true := by
  induction l generalizing s with
  | nil => exact h
  | cons b l ih => exact ih (hf s b h)

theorem Memory.wf_mem {s : State} (h : Memory.wf s = true) : tabWf memDef s.mem = true := by
  unfold Memory.wf at h; simp only [Bool.and_eq_true] at h; exact h.1.1

/-! ### Sending and stopping leave memory alone -/

@[simp] theorem State.emit_view (s : State) (o : Output) : (s.emit o).memView = s.memView := rfl
@[simp] theorem State.raise_view (s : State) (k : EvKind) (v : BitVec 3) : (s.raise k v).memView = s.memView := rfl
@[simp] theorem State.updLink_view (s : State) (fd k : Nat) (f : Link → Link) : (s.updLink fd k f).memView = s.memView := rfl
@[simp] theorem State.setLink_view (s : State) (fd k : Nat) (v : Link) : (s.setLink fd k v).memView = s.memView := rfl
@[simp] theorem State.updFab_view (s : State) (fd : Nat) (f : Fab → Fab) : (s.updFab fd f).memView = s.memView := rfl
@[simp] theorem State.updCtx_view (s : State) (t c : Nat) (f : Ctx → Ctx) : (s.updCtx t c f).memView = s.memView := rfl
@[simp] theorem State.updTile_view (s : State) (t : Nat) (f : Tile → Tile) : (s.updTile t f).memView = s.memView := rfl
@[simp] theorem State.updElem_view (s : State) (n e : Nat) (f : Elem → Elem) : (s.updElem n e f).memView = s.memView := rfl
@[simp] theorem State.updSkein_view (s : State) (k : Nat) (f : Skein → Skein) : (s.updSkein k f).memView = s.memView := rfl
@[simp] theorem State.updEngine_view (s : State) (n : Nat) (f : Engine → Engine) : (s.updEngine n f).memView = s.memView := rfl
@[simp] theorem State.updOlane_view (s : State) (k j : Nat) (f : OLane → OLane) : (s.updOlane k j f).memView = s.memView := rfl
@[simp] theorem State.countDrop_view (s : State) (fd r : Nat) : (s.countDrop fd r).memView = s.memView := rfl
@[simp] theorem State.queueOn_view (s : State) (fd k : Nat) (p : Packet) : (s.queueOn fd k p).memView = s.memView := rfl
@[simp] theorem State.sendFlit_view (s : State) (fd k : Nat) (t : BitVec 4) (q : BitVec 12) (d : Option FlitData) :
    (s.sendFlit fd k t q d).memView = s.memView := rfl

@[simp] theorem State.sendNotice_view (s : State) (fd r : Nat) (p : Packet) : (s.sendNotice fd r p).memView = s.memView := by
  unfold State.sendNotice; dsimp only
  repeat' split
  all_goals simp

@[simp] theorem State.dropQuiet_view (s : State) (fd r : Nat) (p : Packet) : (s.dropQuiet fd r p).memView = s.memView := by
  unfold State.dropQuiet; dsimp only; split <;> simp

@[simp] theorem State.pumpOne_view (s : State) (fd k : Nat) : (s.pumpOne fd k).memView = s.memView := by
  unfold State.pumpOne; dsimp only
  repeat' split
  all_goals simp

@[simp] theorem State.pumpN_view (s : State) (fd k n : Nat) : (s.pumpN fd k n).memView = s.memView := by
  induction n generalizing s with
  | zero => rfl
  | succ n ih => rw [State.pumpN, ih, State.pumpOne_view]

@[simp] theorem State.pumpOnce_view (s : State) (fd k : Nat) : (s.pumpOnce fd k).memView = s.memView :=
  State.pumpN_view s fd k _

@[simp] theorem State.pumpNotices_view (s : State) (n : Nat) : (State.pumpNotices n s).memView = s.memView := by
  induction n generalizing s with
  | zero => rfl
  | succ n ih => rw [State.pumpNotices, ih]; exact memView_foldl (fun s key => State.pumpOnce_view s _ _) _ _

@[simp] theorem State.pump_view (s : State) (fd k : Nat) : (s.pump fd k).memView = s.memView := by simp [State.pump]

@[simp] theorem State.dropPacket_view (s : State) (fd r : Nat) (p : Packet) : (s.dropPacket fd r p).memView = s.memView := by
  simp [State.dropPacket]

@[simp] theorem State.forward_view (s : State) (fd : Nat) (p : Packet) : (s.forward fd p).memView = s.memView := by
  unfold State.forward
  repeat' split
  all_goals simp

/-- A packet that the module sources leaves its memory alone. -/
@[simp] theorem State.sendPacket_view (s : State) (fd : Nat) (p : Packet) : (s.sendPacket fd p).memView = s.memView := by
  unfold State.sendPacket; split <;> simp

@[simp] theorem State.flock_view (s : State) (b : FlockBody) : (s.flock b).memView = s.memView := by
  unfold State.flock State.flockPackets State.datagrams
  dsimp only
  repeat' split
  all_goals first | rfl | exact memView_foldl (fun s c => State.sendPacket_view s _ _) _ _

@[simp] theorem State.sendSide_view (s : State) (t k : Byte) : (s.sendSide t k).memView = s.memView := by
  unfold State.sendSide; split <;> rfl

@[simp] theorem State.selfReport_view (s : State) (k c : Byte) : (s.selfReport k c).memView = s.memView := by
  unfold State.selfReport; dsimp only
  rw [State.sendSide_view, State.flock_view]; split <;> rfl

@[simp] theorem State.dispatch_view (s : State) (t : Nat) : (s.dispatch t).memView = s.memView := by
  unfold State.dispatch; dsimp only
  repeat' split
  all_goals simp

@[simp] theorem State.stopWhere_view (s : State) (p : Nat → Ctx → Bool) : (s.stopWhere p).memView = s.memView := by
  unfold State.stopWhere; dsimp only
  rw [memView_foldl (fun s k => State.dispatch_view s _), memView_foldl (fun s k => State.updCtx_view s _ _ _)]

@[simp] theorem State.dropOptics_view (s : State) : s.dropOptics.memView = s.memView := by
  unfold State.dropOptics; dsimp only
  rw [memView_foldl (fun s k => State.updLink_view s _ _ _), memView_foldl (fun s k => State.updOlane_view s _ _ _)]

@[simp] theorem State.blankElems_view (s : State) : s.blankElems.memView = s.memView := by
  unfold State.blankElems
  refine memView_foldl (fun s e => ?_) _ _
  dsimp only
  repeat' split
  all_goals simp

@[simp] theorem State.blankAll_view (s : State) : s.blankAll.memView = s.memView := by
  unfold State.blankAll; dsimp only
  split
  · rw [State.dropOptics_view, State.blankElems_view, memView_foldl (fun s n => State.updEngine_view s _ _)]; rfl
  · rfl

@[simp] theorem State.withdrawOrder_view (s : State) (c : Coord) : (s.withdrawOrder c).memView = s.memView := by
  unfold State.withdrawOrder; dsimp only
  exact memView_foldl (f := fun (s : State) i => s.setBudget i 0) (fun s i => rfl) _ _

@[simp] theorem State.withdrawOwn_view (s : State) : s.withdrawOwn.memView = s.memView := by
  unfold State.withdrawOwn; split
  · exact State.withdrawOrder_view s _
  · rfl

/-- A hard fault leaves memory alone. -/
@[simp] theorem State.hardFault_view (s : State) (c : Byte) : (s.hardFault c).memView = s.memView := by
  unfold State.hardFault State.hardWith; dsimp only
  rw [State.raise_view, State.selfReport_view]
  show s.withdrawOwn.stopAll.blankAll.memView = _
  rw [State.blankAll_view, State.stopAll, State.stopWhere_view, State.withdrawOwn_view]

/-! ### Bytes stored -/

theorem State.setCell_wf {s : State} (a : Nat) (b : Byte) (h : Memory.wf s = true) : Memory.wf (s.setCell a b) = true :=
  Memory.wf_mk h (tabSet_wf b) id id id

theorem State.cell_setCell_same {s : State} (a : Nat) (b : Byte) (h : Memory.wf s = true) : (s.setCell a b).cell a = b :=
  tabGet_tabSet_same b (Memory.wf_mem h)

theorem State.cell_setCell_ne (s : State) {a k : Nat} (b : Byte) (h : k ≠ a) : (s.setCell a b).cell k = s.cell k :=
  tabGet_tabSet_ne b h

/-- Storing bytes changes memory alone. -/
theorem State.setCells_frame (s : State) (a : Nat) (l : List Byte) :
    s.setCells a l = { s with mem := (s.setCells a l).mem } := by
  induction l generalizing s a with
  | nil => rfl
  | cons b bs ih => rw [State.setCells]; rw [ih]; rfl

theorem State.setCells_wf {s : State} (a : Nat) (l : List Byte) (h : Memory.wf s = true) :
    Memory.wf (s.setCells a l) = true := by
  induction l generalizing s a with
  | nil => exact h
  | cons b bs ih => exact ih _ (State.setCell_wf a b h)

/-- A byte outside the bytes stored stands. -/
theorem State.cell_setCells_out (s : State) {a k : Nat} (l : List Byte) (h : k < a ∨ a + l.length ≤ k) :
    (s.setCells a l).cell k = s.cell k := by
  induction l generalizing s a with
  | nil => rfl
  | cons b bs ih =>
    simp only [List.length_cons] at h
    rw [State.setCells, ih _ (by omega), State.cell_setCell_ne _ _ (by omega)]

/-- A byte stored is the byte of the list at its place. -/
theorem State.cell_setCells_in {s : State} {a i : Nat} (l : List Byte) (h : Memory.wf s = true) (hi : i < l.length) :
    (s.setCells a l).cell (a + i) = l[i] := by
  induction l generalizing s a i with
  | nil => simp at hi
  | cons b bs ih =>
    rw [State.setCells]
    cases i with
    | zero =>
      rw [State.cell_setCells_out _ _ (by omega), Nat.add_zero, State.cell_setCell_same _ _ h]; rfl
    | succ i =>
      have := ih (s := s.setCell a b) (a := a + 1) (i := i) (State.setCell_wf a b h) (by simpa using hi)
      rw [show a + (i + 1) = a + 1 + i by omega, this]; rfl

/-! ### Marks, records and keys -/

theorem State.setBad_wf {s : State} (u : Nat) (v : Bool) (h : Memory.wf s = true) : Memory.wf (s.setBad u v) = true :=
  Memory.wf_mk h id (tabSet_wf v) id id

theorem State.lineKeySet_wf {s : State} (u n : Nat) (h : Memory.wf s = true) :
    Memory.wf { s with lineKeys := tabSet (fun _ => 0) s.lineKeys u n } = true :=
  Memory.wf_mk h id id (tabSet_wf n) id

theorem State.setFlips_wf {s : State} (u : Nat) (v : List Nat) (h : Memory.wf s = true) :
    Memory.wf (s.setFlips u v) = true :=
  Memory.wf_mk h id id id (tabSet_wf v)

theorem State.settle_wf {s : State} (l : Nat) (h : Memory.wf s = true) : Memory.wf (s.settle l) = true := by
  unfold State.settle; split
  · exact State.setCells_wf _ _ h
  · exact h

/-- Marking granules changes the twin's tables alone. -/
theorem State.markGran_frame (s : State) (g : Nat) : s.markGran g = { s with twin := (s.markGran g).twin } := by
  unfold State.markGran; split <;> rfl

theorem State.markDirty_frame (s : State) (a n : Nat) : s.markDirty a n = { s with twin := (s.markDirty a n).twin } := by
  unfold State.markDirty; split
  · rfl
  · generalize List.range _ = l
    induction l generalizing s with
    | nil => rfl
    | cons x xs ih => rw [List.foldl_cons, ih, State.markGran_frame]

theorem State.markDirty_wf {s : State} (a n : Nat) (h : Memory.wf s = true) : Memory.wf (s.markDirty a n) = true := by
  refine Memory.wf_congr ?_ ?_ ?_ ?_ h <;> rw [State.markDirty_frame]

/-- Reporting an uncorrectable unit marks it, and changes the report list and the registers of its block. -/
theorem State.reportUe_frame (s : State) (u : Nat) (x : Byte) :
    s.reportUe u x = { s.setBad u true with
      ueReports := (s.reportUe u x).ueReports, dies := (s.reportUe u x).dies, mds := (s.reportUe u x).mds } := by
  unfold State.reportUe
  dsimp only
  split <;> rfl

theorem State.reportUe_wf {s : State} (u : Nat) (x : Byte) (h : Memory.wf s = true) : Memory.wf (s.reportUe u x) = true := by
  refine Memory.wf_congr ?_ ?_ ?_ ?_ (State.setBad_wf u true h) <;> rw [State.reportUe_frame]

theorem State.stuck_frame {w : Nat} (s : State) (off : Nat) (x y : BitVec w) :
    s.stuck off x y = { s with raised := (s.stuck off x y).raised } := rfl

theorem State.countRmw_frame (s : State) (m : Nat) :
    s.countRmw m = { s with mds := (s.countRmw m).mds, raised := (s.countRmw m).raised } := by
  unfold State.countRmw
  dsimp only
  rw [State.stuck_frame]; rfl

theorem State.countRmw_wf {s : State} (m : Nat) (h : Memory.wf s = true) : Memory.wf (s.countRmw m) = true := by
  refine Memory.wf_congr ?_ ?_ ?_ ?_ h <;> rw [State.countRmw_frame]

/-! ### Errors corrected by a read -/

theorem State.updDie_wf {s : State} (d : Nat) (f : TileDie → TileDie) (h : Memory.wf s = true) :
    Memory.wf (s.updDie d f) = true := Memory.wf_congr rfl rfl rfl rfl h

theorem State.updMd_wf {s : State} (m : Nat) (f : MemDie → MemDie) (h : Memory.wf s = true) :
    Memory.wf (s.updMd m f) = true := Memory.wf_congr rfl rfl rfl rfl h

theorem State.updStack_wf {s : State} (m k : Nat) (f : Stack → Stack) (h : Memory.wf s = true) :
    Memory.wf (s.updStack m k f) = true := State.updMd_wf m _ h

theorem State.correctWord_wf {s : State} (u : Nat) (h : Memory.wf s = true) : Memory.wf (s.correctWord u) = true :=
  State.updDie_wf _ _ h


/-! ### Ranges -/

theorem State.garble_wf {s : State} (l : Nat) (bs : List Nat) (h : Memory.wf s = true) :
    Memory.wf (s.garble l bs) = true := by
  unfold State.garble; split
  · exact h
  · exact Memory.wf_foldl (fun t b ht => State.setCells_wf _ _ ht) _ (Memory.wf_congr rfl rfl rfl rfl h)

theorem State.hardFault_wf {s : State} (c : Byte) (h : Memory.wf s = true) : Memory.wf (s.hardFault c) = true :=
  Memory.wf_view (State.hardFault_view s c) h

theorem State.eraseChan_wf {s : State} (m k c : Nat) (h : Memory.wf s = true) : Memory.wf (s.eraseChan m k c) = true := by
  unfold State.eraseChan
  dsimp only
  split
  · exact h
  · split
    · exact State.hardFault_wf _ (Memory.wf_congr rfl rfl rfl rfl h)
    · exact Memory.wf_congr rfl rfl rfl rfl h

theorem State.correct_wf {s : State} (m k c : Nat) (h : Memory.wf s = true) : Memory.wf (s.correct m k c) = true := by
  unfold State.correct
  dsimp only
  split
  · exact State.eraseChan_wf _ _ _ (State.updStack_wf _ _ _ h)
  · exact State.updStack_wf _ _ _ h

/-- Reading a unit keeps the form. -/
theorem State.fixUnit_wf {s : State} (u : Nat) (h : Memory.wf s = true) : Memory.wf (s.fixUnit u) = true := by
  have hf := State.setFlips_wf u [] h
  unfold State.fixUnit
  dsimp only
  split
  · exact h
  · split
    · exact State.correctWord_wf _ hf
    · split
      · exact State.garble_wf _ _ hf
      · split
        · exact State.correct_wf _ _ _ (State.garble_wf _ _ hf)
        · exact State.garble_wf _ _ hf

theorem State.fixRange_wf {s : State} (a n : Nat) (h : Memory.wf s = true) : Memory.wf (s.fixRange a n) = true :=
  Memory.wf_foldl (fun _ u ht => State.fixUnit_wf u ht) _ h

theorem State.writeUnit_wf {s : State} (a : Nat) (l : List Byte) (x : Byte) (h : Memory.wf s = true) :
    Memory.wf (s.writeUnit a l x).1 = true := by
  unfold State.writeUnit
  dsimp only
  split
  · have hw := State.setFlips_wf (unitOf a) [] (State.setBad_wf (unitOf a) false (State.setCells_wf a l h))
    split
    · exact State.lineKeySet_wf _ _ hw
    · exact hw
  · split
    · exact State.reportUe_wf _ _ h
    · split
      · exact State.lineKeySet_wf _ _ (State.countRmw_wf _ (State.setCells_wf _ _ (State.settle_wf _ (State.fixUnit_wf _ h))))
      · exact State.setCells_wf _ _ (State.fixUnit_wf _ h)

theorem State.writeUnits_wf {s : State} (a : Nat) (l : List Byte) (x : Byte) (us : List Nat) (h : Memory.wf s = true) :
    Memory.wf (s.writeUnits a l x us).1 = true := by
  induction us generalizing s with
  | nil => exact h
  | cons u us ih =>
    rw [State.writeUnits]
    have hw := State.writeUnit_wf (unitPart a l u).1 (unitPart a l u).2 x h
    dsimp only
    split <;> rename_i heq <;> rw [heq] at hw
    · exact ih hw
    · exact hw

theorem State.writeRange_wf {s : State} (a : Nat) (l : List Byte) (x : Byte) (h : Memory.wf s = true) :
    Memory.wf (s.writeRange a l x).1 = true := State.markDirty_wf _ _ (State.writeUnits_wf a l x _ h)

theorem State.readRange_wf {s : State} (a n : Nat) (x : Byte) (h : Memory.wf s = true) :
    Memory.wf (s.readRange a n x).1 = true := by
  unfold State.readRange; split
  · exact State.fixRange_wf _ _ h
  · exact State.reportUe_wf _ _ (State.fixRange_wf _ _ h)

theorem State.clearRange_wf {s : State} (lo hi : Nat) (h : Memory.wf s = true) : Memory.wf (s.clearRange lo hi) = true :=
  Memory.wf_mk h (tabFilter_wf _) (tabFilter_wf _) (tabFilter_wf _) (tabFilter_wf _)

/-- What is cleared reads as nothing written; the rest stands. -/
theorem State.cell_clearRange (s : State) (lo hi a : Nat) :
    (s.clearRange lo hi).cell a = if lo ≤ a ∧ a < hi then 0 else s.cell a := by
  have := tabGet_filter (d := memDef) (t := s.mem) (fun k => !decide (lo ≤ k ∧ k < hi)) a
  unfold State.clearRange State.cell
  rw [this]
  by_cases h : lo ≤ a ∧ a < hi <;> simp [h, memDef]

/-! ### Lines, islands and domains -/

/-- A bit that turns over keeps the form. -/
theorem State.upset_wf {s : State} (e : Nat × Nat) (h : Memory.wf s = true) : Memory.wf (s.upset e) = true := by
  unfold State.upset
  dsimp only
  repeat' split
  all_goals first | exact h | exact State.setFlips_wf _ _ h

theorem State.memoryOff_wf {s : State} (h : Memory.wf s = true) : Memory.wf s.memoryOff = true :=
  Memory.wf_mk h (tabFilter_wf _) (tabFilter_wf _) (fun _ => rfl) (tabFilter_wf _)

theorem State.transitOff_wf {s : State} (h : Memory.wf s = true) : Memory.wf s.transitOff = true :=
  Memory.wf_congr rfl rfl rfl rfl h

/-- Reset memory lists nothing and is canonical. -/
theorem State.reset_wf : Memory.wf State.reset = true := rfl

end Sys2Proof.Machine
end

