-- ==== Sys2Proof/Laws/Spec.lean ====
section
/-! SUPPORT. Each shared operation of the meanings once: where it lets the effect happen, and everything it can
answer. -/

namespace Sys2Proof.Machine

open Sys2Proof

/-! ### Conditions -/

theorem doIf_true {c : Bool} {s t : State} (h : c = true) : doIf c s t = .next t := by simp [doIf, h]
theorem doIf_false {c : Bool} {s t : State} (h : c = false) : doIf c s t = .next s := by simp [doIf, h]

/-- A conditional effect answers the effect or the state as it was. -/
theorem doIf_next {c : Bool} {s t u : State} (h : doIf c s t = .next u) : c = true ∧ u = t ∨ c = false ∧ u = s := by
  cases c <;> simp [doIf] at h <;> simp [h]

/-! ### Stage instructions -/

/-- An instruction that issues has its effect on the state with its beats charged. -/
theorem stage_issues {s : State} {t c major fn : Nat} {o : Op} {f : State → Nat → Fx} (h : Issues s t c major fn o) :
    stage major fn t o s f =
      .next ((f (issued s t c) c).settle t c (s.ctx t c).pc.toNat (s.istoreWord t (s.ctx t c).pc.toNat)) := by
  obtain ⟨⟨h1, rfl, h3, h4, h5⟩, h6⟩ := h
  simp [stage, h1, h3, h4, h5, h6, issued]

theorem stageReg_issues {s : State} {t c major fn : Nat} {o : Op} {f : State → Ctx → Ctx}
    (h : Issues s t c major fn o) : stageReg major fn t o s f =
      .next (moveOn s ((issued s t c).updCtx t c (f (issued s t c))) t c) := by
  rw [stageReg, stage_issues h]; rfl

/-- A stage instruction answers one of four states: as it was; the context stopped with fault 1; the false
guard's move of the pc; or its effect. -/
theorem stage_next {s u : State} {t major fn : Nat} {o : Op} {f : State → Nat → Fx}
    (h : stage major fn t o s f = .next u) :
    let c := (s.tile t).owner
    let pc := (s.ctx t c).pc
    u = s ∨ u = s.faultCtx t c 1 pc (s.istoreWord t pc.toNat) ∨
    u = ((s.charge t c).updCtx t c fun x => x.advance pc.toNat (guardedNext major fn pc.toNat o.body)) ∨
    u = (f (s.charge t c) c).settle t c pc.toNat (s.istoreWord t pc.toNat) := by
  unfold stage at h
  dsimp only at h ⊢
  split at h
  · left; cases h; rfl
  · split at h
    · right; left; cases h; rfl
    · split at h
      · left; cases h; rfl
      · split at h
        · right; right; right; cases h; rfl
        · right; right; left; cases h; rfl

/-! ### Packets, host commands, messages -/

theorem rxPacket_arrives {s : State} {kind : Byte} {fd : Nat} {p : Packet} {part : Option Nat} {f : State → State}
    (h : Arrives s kind fd p part) : rxPacket kind fd p part s f = .next (f s) := by
  obtain ⟨h1, h2, h3, h4, h5⟩ := h
  simp [rxPacket, h1, h2, h3, h4, h5]

/-- A packet command answers the state as it was, a drop, or the packet's effect. -/
theorem rxPacket_next {s u : State} {kind : Byte} {fd : Nat} {p : Packet} {part : Option Nat} {f : State → State}
    (h : rxPacket kind fd p part s f = .next u) :
    u = s ∨ (∃ r, s.rxDrop fd p part = some r ∧ u = s.dropPacket fd r p) ∨ u = f s := by
  unfold rxPacket at h
  split at h
  · left; cases h; rfl
  · split at h
    · next r hr => right; left; cases h; exact ⟨r, hr, rfl⟩
    · right; right; cases h; rfl

theorem hostCmd_starts {s : State} {r op : Nat} {blk : Block} {b : Bool} {f : Block → BitVec 16 → State → State}
    (h : Starts s r op blk) : hostCmd s r op b f = .next (f blk (blkTag blk) (started s r)) := by
  obtain ⟨h1, h2, h3, c, h4, rfl⟩ := h
  simp [hostCmd, h1, h2, h3, h4, started]

theorem hostCmd_startsEarly {s : State} {r op : Nat} {blk : Block} {f : Block → BitVec 16 → State → State}
    (h : StartsEarly s r op blk) : hostCmd s r op true f = .next (f blk (blkTag blk) (started s r)) := by
  obtain ⟨h1, h3, c, h4, rfl⟩ := h
  simp [hostCmd, h1, h3, h4, started]

/-- A host command answers the state as it was, a completion with NOT_READY, or its effect. -/
theorem hostCmd_next {s u : State} {r op : Nat} {b : Bool} {f : Block → BitVec 16 → State → State}
    (h : hostCmd s r op b f = .next u) :
    u = s ∨ ∃ c, nextCmd (s.ring r).fetched true = some c ∧ blkOp c.block = op ∧
      ((b || s.readyFor r) = false ∧ u = (started s r).complete r (blkTag c.block) stNotReady ∨
       (b || s.readyFor r) = true ∧ u = f c.block (blkTag c.block) (started s r)) := by
  unfold hostCmd at h
  dsimp only at h
  split at h
  · left; cases h; rfl
  · next c hc =>
    split at h
    · next hop =>
      simp only [Bool.and_eq_true, decide_eq_true_eq] at hop
      right
      refine ⟨c, hc, hop.2, ?_⟩
      split at h
      · next hb => right; cases h; exact ⟨hb, rfl⟩
      · next hb => left; cases h; exact ⟨by simpa using hb, rfl⟩
    · left; cases h; rfl

theorem flockRx_hears {s : State} {h : FlockHdr} {b : FlockBody} {key : Nat} {f : State → State}
    (a : Hears s h b key) : flockRx s h b key f = .next (f (heardFrom s h key)).learnBell := by
  obtain ⟨⟨h1, h2, h3, h4⟩, h5, h6, h7, h8, h9, h10, n, h11⟩ := a
  unfold flockRx
  rw [if_neg (by simp [h1, h2, h3]), if_neg (by simp [h4]), if_neg (by simp [h5]), if_neg (by simp [h6, h7]),
    if_neg (by simp [h8]), if_neg (by simp [h9]), if_neg (by simp [h10])]
  simp [h11, heardFrom]

/-- A flock message answers the state as it was, a fabric die's drop of a fenced source, a drop by one of six checks,
or its effect and the bellwether learnt. -/
theorem flockRx_next {s u : State} {h : FlockHdr} {b : FlockBody} {key : Nat} {f : State → State}
    (e : flockRx s h b key f = .next u) :
    u = s ∨ (s.flockFenced h = true ∧ u = s.countDrop (h.via.toNat - 2) dFenced) ∨ (∃ i, i < 4 ∧ u = s.flockDrop i) ∨
    (∃ i, 4 ≤ i ∧ i < 6 ∧ u = ({ s with shep := { s.shep with
      senders := tabSet (fun _ => {}) s.shep.senders key ((s.sender key).hear h.alive).1 } } : State).flockDrop i) ∨
    u = (f (heardFrom s h key)).learnBell := by
  unfold flockRx at e
  split at e
  · cases e; exact .inl rfl
  split at e
  · next hf => cases e; exact .inr (.inl ⟨hf, rfl⟩)
  split at e
  · cases e; exact .inr (.inr (.inl ⟨0, by omega, rfl⟩))
  split at e
  · cases e; exact .inr (.inr (.inl ⟨1, by omega, rfl⟩))
  split at e
  · cases e; exact .inr (.inr (.inl ⟨2, by omega, rfl⟩))
  split at e
  · cases e; exact .inr (.inr (.inl ⟨3, by omega, rfl⟩))
  split at e
  · cases e; exact .inl rfl
  dsimp only at e
  split at e
  · cases e; exact .inr (.inr (.inr (.inl ⟨4, by omega, by omega, rfl⟩)))
  · cases e; exact .inr (.inr (.inr (.inl ⟨5, by omega, by omega, rfl⟩)))
  · cases e; exact .inr (.inr (.inr (.inr rfl)))

theorem sideRx_hears {s : State} {type : Byte} {f : SideFrame} {n : Nat} {g : State → State} (a : SideHears s type f n) :
    sideRx s type f g = .next (g (sideFrom s f n)) := by
  obtain ⟨h1, h2, h3, h4, h5⟩ := a
  simp [sideRx, h1, h2, h3, h4, h5, sideFrom]

end Sys2Proof.Machine
end

