-- ==== Sys2Proof/Laws/Wire.lean ====
section
/-! SUPPORT. What is sealed is accepted: the CRC of a flit, of a sideband frame and of a flock message, and the tags of
a flock message and of a control message, each hold as they were formed. -/

namespace Sys2Proof.Machine

open Sys2Proof

/-- A flit as formed, its FEC having corrected all, is good. -/
theorem flitGood_seal (h : FlitHdr) (d : Option FlitData) (e : h.fecUncorr = 0) : flitGood (sealFlit h d) d = true := by
  unfold flitGood
  exact decide_eq_true ⟨rfl, e⟩

/-- A sideband frame as formed is good. -/
theorem sideGood_seal (t : Byte) (f : SideFrame) : sideGood t (sealSide t f) = true := by
  unfold sideGood
  exact decide_eq_true rfl

@[simp] theorem sealSide_sender (t : Byte) (f : SideFrame) : (sealSide t f).sender = f.sender := rfl
@[simp] theorem sealSide_alive (t : Byte) (f : SideFrame) : (sealSide t f).alive = f.alive := rfl

/-- The frame of a message is its own but for type, tag and CRC. -/
theorem State.sealFlock_frame (s : State) (h : FlockHdr) (b : FlockBody) :
    s.sealFlock h b = { h with
      type := b.type, tag := (s.sealFlock h b).tag, crc := (s.sealFlock h b).crc } := rfl

/-- A message as sealed is whole. -/
theorem State.sealFlock_whole (s : State) (h : FlockHdr) (b : FlockBody) (e : h.len = 128) :
    flockWhole (s.sealFlock h b) b = true := by
  unfold flockWhole
  exact decide_eq_true ⟨e, rfl⟩

/-- The epoch in force is accepted. -/
theorem State.epoch_mem (s : State) : s.flash.epoch ∈ s.epochs := by
  unfold State.epochs; exact List.mem_cons_self ..

/-- A message as sealed is signed, in the view of its own sealer. -/
theorem State.sealFlock_signed (s : State) (h : FlockHdr) (b : FlockBody) :
    s.flockSigned (s.sealFlock h b) b = true :=
  List.any_eq_true.mpr ⟨_, s.epoch_mem, decide_eq_true rfl⟩

/-- With another tag, under a CRC that fits it, it is whole and not signed, where one epoch is in force. -/
theorem State.flock_forged {s : State} {h : FlockHdr} {b : FlockBody} {t : BitVec 128} (one : s.epochs = [s.flash.epoch])
    (l : h.len = 128) (ne : t ≠ s.flockTag s.flash.epoch h b) :
    ∃ f : FlockHdr, f = { h with tag := t, crc := flockCrc { h with tag := t } b } ∧ flockWhole f b = true ∧
      s.flockSigned f b = false := by
  refine ⟨_, rfl, decide_eq_true ⟨l, rfl⟩, ?_⟩
  unfold State.flockSigned
  rw [one]
  simp only [List.any_cons, List.any_nil, Bool.or_false]
  exact decide_eq_false ne

/-- The type of a body is one of Table 10-3. -/
theorem flockTypeKnown_type (b : FlockBody) : flockTypeKnown b.type = true := by cases b <;> rfl

/-- A sealed message of this pod that comes by an open way, in turn, is heard. -/
theorem hears_seal {s : State} {h : FlockHdr} {b : FlockBody} {key : Nat} (r : Reaches s h) (l : h.len = 128)
    (v : h.version = 1) (t : flockTypeKnown b.type = true) (p : s.flash.settings.plan.map (·.pod) = some h.pod)
    (a : ∃ n, ((s.sender key).hear h.alive).2 = .accepted n) :
    Hears s (s.sealFlock h b) b key :=
  ⟨r, s.sealFlock_whole h b l, v, t, p, s.sealFlock_signed h b, rfl, a⟩

/-- A frame with another CRC is not good. -/
theorem side_forged {t : Byte} {f : SideFrame} {c : BitVec 32} (ne : c ≠ sideCrc t f) :
    ({ f with crc := c } : SideFrame).crc ≠ sideCrc t { f with crc := c } := ne

/-- A sealed frame of the twin in turn is heard. -/
theorem sideHears_seal {s : State} {t : Byte} {f : SideFrame} {n : Nat} (h1 : s.shepOn = true)
    (h2 : s.twin.paired = true) (h3 : f.sender = s.twin.coord) (h4 : (s.shep.sbAlive.hear f.alive).2 = .accepted n) :
    SideHears s t (sealSide t f) n := ⟨h1, sideGood_seal t f, h2, h3, h4⟩

/-- A control message of the right form, in an epoch in force and in sequence, passes every check as it is sealed. -/
theorem State.ctlFail_seal {s : State} {h : CtlHdr} (l : ctlLenOk h = true) (v : h.version = 1)
    (e : s.epochOk h.epoch = true) (q : s.seqOk h = true) : s.ctlFail { h with tag := s.ctlTag h } = none := by
  have l' : ctlLenOk { h with tag := s.ctlTag h } = true := l
  have e' : s.epochOk ({ h with tag := s.ctlTag h } : CtlHdr).epoch = true := e
  have t' : s.ctlSigned { h with tag := s.ctlTag h } = true := decide_eq_true rfl
  have q' : s.seqOk { h with tag := s.ctlTag h } = true := q
  unfold State.ctlFail
  rw [l', e', t', q']
  simp [v]

/-- With another tag it fails the tag check. -/
theorem State.ctlFail_forged {s : State} {h : CtlHdr} {t : BitVec 256} (l : ctlLenOk h = true) (v : h.version = 1)
    (e : s.epochOk h.epoch = true) (ne : t ≠ s.ctlTag h) : s.ctlFail { h with tag := t } = some 2 := by
  have l' : ctlLenOk { h with tag := t } = true := l
  have e' : s.epochOk ({ h with tag := t } : CtlHdr).epoch = true := e
  have t' : s.ctlSigned { h with tag := t } = false := decide_eq_false ne
  unfold State.ctlFail
  rw [l', e', t']
  simp [v]

end Sys2Proof.Machine
end

