-- ==== Sys2Proof/Laws/Words.lean ====
section
/-! SUPPORT. The fields of an instruction word read back what `wordOf` was given (R77). -/

namespace Sys2Proof.Machine

open Sys2Proof

/-- The number that a word is: its four fields, the operand bits lowest. -/
theorem wordOf_toNat (m f : Nat) (o : Op) (hm : m < 64) (hf : f < 64) :
    (wordOf m f o).toNat = ((m * 32 + o.guard.toNat) * 64 + f) * 2 ^ 47 + o.body.toNat := by
  have h1 := o.body.isLt
  have h2 := o.guard.isLt
  have h3 : f < 2 ^ 6 := hf
  simp only [wordOf, BitVec.toNat_append, BitVec.toNat_ofNat]
  rw [Nat.mod_eq_of_lt (show m < 2 ^ 6 from hm), Nat.mod_eq_of_lt h3,
    ← Nat.shiftLeft_add_eq_or_of_lt h2, ← Nat.shiftLeft_add_eq_or_of_lt h3,
    ← Nat.shiftLeft_add_eq_or_of_lt h1]
  simp only [Nat.shiftLeft_eq]

theorem wMajor_wordOf (m f : Nat) (o : Op) (hm : m < 64) (hf : f < 64) : wMajor (wordOf m f o) = m := by
  have h1 := o.body.isLt
  have h2 := o.guard.isLt
  rw [wMajor, wordOf_toNat m f o hm hf]
  omega

theorem wFn_wordOf (m f : Nat) (o : Op) (hm : m < 64) (hf : f < 64) : wFn (wordOf m f o) = f := by
  have h1 := o.body.isLt
  rw [wFn, wordOf_toNat m f o hm hf]
  omega

theorem wBody_wordOf (m f : Nat) (o : Op) (hm : m < 64) (hf : f < 64) : wBody (wordOf m f o) = o.body := by
  have h1 := o.body.isLt
  apply BitVec.eq_of_toNat_eq
  rw [wBody, BitVec.extractLsb'_toNat, wordOf_toNat m f o hm hf]
  simp only [Nat.shiftRight_zero]
  omega

theorem wGuard_wordOf (m f : Nat) (o : Op) (hm : m < 64) (hf : f < 64) : wGuard (wordOf m f o) = o.guard := by
  have h1 := o.body.isLt
  have h2 := o.guard.isLt
  apply BitVec.eq_of_toNat_eq
  rw [wGuard, BitVec.extractLsb'_toNat, wordOf_toNat m f o hm hf, Nat.shiftRight_eq_div_pow]
  omega

end Sys2Proof.Machine
end

