-- ==== Sys2Proof/WellFormed.lean ====
section
/-! DEFINITION. Which commands can be sent: every number names a part that the machine has, and every stage
word is a legal word of its class (R78). `exec` refuses nothing of this kind: a command about a part that does
not exist changes nothing (log entry 1), and an illegal word is a fault of its context. -/

namespace Sys2Proof

open Sys2Proof.Machine

/-- A tile of the forty dies, 240 of each (R54). -/
def tileOk (t : Nat) : Bool := decide (t < 9600)
/-- One of the four contexts of a tile (R50). -/
def ctxOk (c : Nat) : Bool := decide (c < 4)
/-- A tile die. -/
def dieOk (n : Nat) : Bool := decide (n < 40)
/-- A MEM or FAB tag (R97). -/
def tagOk (g : Nat) : Bool := decide (g < 16)
/-- A fabric die. -/
def fdOk (fd : Nat) : Bool := decide (fd < 2)
/-- A link context of a fabric die (R158). -/
def linkOk (k : Nat) : Bool := decide (k < 176)
/-- A light engine, with its Crook. -/
def engineOk (n : Nat) : Bool := decide (n < 4)
/-- An element of a light engine. -/
def elemOk (e : Nat) : Bool := decide (e < 176)
/-- A skein. -/
def skeinOk (q : Nat) : Bool := decide (q < 64)
/-- One of eight job, budget or held-job slots. -/
def slotOk (j : Nat) : Bool := decide (j < 8)
/-- A ring of a partition, or the management ring (R386). -/
def ringOk (r : Nat) : Bool := decide (r < 9)
/-- A packet's payload fits the longest packet (Table 7-3). -/
def packetOk (p : Packet) : Bool := decide (p.payload.length ≤ 4096)
/-- The data of a line write stay within the line. -/
def lineDataOk (d : Option (Nat × List Byte)) : Bool :=
  match d with
  | none => true
  | some (off, bytes) => decide (off + bytes.length ≤ lineSize) && !bytes.isEmpty
/-- Qualification results name a stack and a channel of it. -/
def qualsOk (l : List (Nat × Nat × BitVec 5)) : Bool := l.all fun e => decide (e.1 < 40 ∧ e.2.1 < 18)
/-- Physical cores, 256 places to a die. -/
def coresOk (l : List Nat) : Bool := l.all fun t => decide (t < 10240)
/-- Lanes of cast-on: 384 electrical and 256 optical. -/
def lanesOk (l : List LaneOutcome) : Bool := l.all fun o => decide (o.lane < 640)
/-- An overlay of a fabric die and an entry of it (R166). -/
def overlayOk (o : Option (Nat × BitVec 16 × Nat)) : Bool :=
  match o with
  | none => true
  | some (n, _, i) => decide (n < 8 ∧ i < 512)
/-- A link that a fence names. -/
def fenceLinkOk (l : Option (Nat × Nat)) : Bool :=
  match l with
  | none => true
  | some (fd, k) => fdOk fd && linkOk k
/-- The elements of a set of moves. -/
def movesOk (l : List Move) : Bool := l.all fun m => elemOk m.elem
/-- A lane that a test names: of a fabric die, or (2) of the Gate. -/
def testLaneOk (fd lane : Nat) : Bool := decide (fd < 2 ∧ lane < 320) || decide (fd = 2 ∧ lane < 16)

/-- The command can be sent. -/
def Instr.wf (i : Instr) : Bool :=
  match i with
  | .auxPowerUp => true
  | .auxPgFall => true
  | .mainPowerLoss => true
  | .mainPowerRemove => true
  | .envelopeStep _ _ => true
  | .admissionPause _ _ => true
  | .envelopeSet r => ringOk r
  | .beatWindowEnd die _ _ _ => dieOk die
  | .beatWindowWrite die _ _ => dieOk die
  | .minRearm die => dieOk die
  | .tbTick us => us.all (fun u => decide (u.1 < 2 ^ 48 ∧ u.2 < 4608))
  | .holdoverEntry _ => true
  | .holdoverExit _ => true
  | .ctlNop t o => tileOk t && legalWord (wordOf 0x00 0x00 o)
  | .ctlBr t o => tileOk t && legalWord (wordOf 0x00 0x01 o)
  | .ctlBl t o => tileOk t && legalWord (wordOf 0x00 0x02 o)
  | .ctlJr t o => tileOk t && legalWord (wordOf 0x00 0x03 o)
  | .ctlLoop t o => tileOk t && legalWord (wordOf 0x00 0x04 o)
  | .ctlLoopi t o => tileOk t && legalWord (wordOf 0x00 0x05 o)
  | .ctlBreak t o => tileOk t && legalWord (wordOf 0x00 0x06 o)
  | .ctlLidx t o => tileOk t && legalWord (wordOf 0x00 0x07 o)
  | .ctlYield t o => tileOk t && legalWord (wordOf 0x00 0x08 o)
  | .ctlHalt t o => tileOk t && legalWord (wordOf 0x00 0x09 o)
  | .scaAdd t f o => tileOk t && legalWord (wordOf f.major 0x00 o)
  | .scaSub t f o => tileOk t && legalWord (wordOf f.major 0x01 o)
  | .scaMul t f o => tileOk t && legalWord (wordOf f.major 0x02 o)
  | .scaMulh t f o => tileOk t && legalWord (wordOf f.major 0x03 o)
  | .scaMulhu t f o => tileOk t && legalWord (wordOf f.major 0x04 o)
  | .scaDiv t f o => tileOk t && legalWord (wordOf f.major 0x05 o)
  | .scaDivu t f o => tileOk t && legalWord (wordOf f.major 0x06 o)
  | .scaRem t f o => tileOk t && legalWord (wordOf f.major 0x07 o)
  | .scaRemu t f o => tileOk t && legalWord (wordOf f.major 0x08 o)
  | .scaAnd t f o => tileOk t && legalWord (wordOf f.major 0x09 o)
  | .scaOr t f o => tileOk t && legalWord (wordOf f.major 0x0A o)
  | .scaXor t f o => tileOk t && legalWord (wordOf f.major 0x0B o)
  | .scaShl t f o => tileOk t && legalWord (wordOf f.major 0x0C o)
  | .scaShr t f o => tileOk t && legalWord (wordOf f.major 0x0D o)
  | .scaSra t f o => tileOk t && legalWord (wordOf f.major 0x0E o)
  | .scaMin t f o => tileOk t && legalWord (wordOf f.major 0x0F o)
  | .scaMax t f o => tileOk t && legalWord (wordOf f.major 0x10 o)
  | .scaMinu t f o => tileOk t && legalWord (wordOf f.major 0x11 o)
  | .scaMaxu t f o => tileOk t && legalWord (wordOf f.major 0x12 o)
  | .scaLi t f o => tileOk t && legalWord (wordOf f.major 0x13 o)
  | .scaLih t f o => tileOk t && legalWord (wordOf f.major 0x14 o)
  | .scaCmp t f o => tileOk t && legalWord (wordOf f.major 0x15 o)
  | .scaPlog t f o => tileOk t && legalWord (wordOf f.major 0x16 o)
  | .scaPget t f o => tileOk t && legalWord (wordOf f.major 0x17 o)
  | .scaPset t f o => tileOk t && legalWord (wordOf f.major 0x18 o)
  | .scaAmov t f o => tileOk t && legalWord (wordOf f.major 0x19 o)
  | .scaAget t f o => tileOk t && legalWord (wordOf f.major 0x1A o)
  | .scaAadd t f o => tileOk t && legalWord (wordOf f.major 0x1B o)
  | .vecVadd t o => tileOk t && legalWord (wordOf 0x10 0x00 o)
  | .vecVsub t o => tileOk t && legalWord (wordOf 0x10 0x01 o)
  | .vecVmul t o => tileOk t && legalWord (wordOf 0x10 0x02 o)
  | .vecVfma t o => tileOk t && legalWord (wordOf 0x10 0x03 o)
  | .vecVmin t o => tileOk t && legalWord (wordOf 0x10 0x04 o)
  | .vecVmax t o => tileOk t && legalWord (wordOf 0x10 0x05 o)
  | .vecVand t o => tileOk t && legalWord (wordOf 0x10 0x06 o)
  | .vecVor t o => tileOk t && legalWord (wordOf 0x10 0x07 o)
  | .vecVxor t o => tileOk t && legalWord (wordOf 0x10 0x08 o)
  | .vecVshl t o => tileOk t && legalWord (wordOf 0x10 0x09 o)
  | .vecVshr t o => tileOk t && legalWord (wordOf 0x10 0x0A o)
  | .vecVcmp t o => tileOk t && legalWord (wordOf 0x10 0x0B o)
  | .vecVsel t o => tileOk t && legalWord (wordOf 0x10 0x0C o)
  | .vecVcvt t o => tileOk t && legalWord (wordOf 0x10 0x0D o)
  | .vecVfn t o => tileOk t && legalWord (wordOf 0x10 0x0E o)
  | .vecVred t o => tileOk t && legalWord (wordOf 0x10 0x0F o)
  | .vecVbcast t o => tileOk t && legalWord (wordOf 0x10 0x10 o)
  | .vecVext t o => tileOk t && legalWord (wordOf 0x10 0x11 o)
  | .vecVins t o => tileOk t && legalWord (wordOf 0x10 0x12 o)
  | .vecVperm t o => tileOk t && legalWord (wordOf 0x10 0x13 o)
  | .vecVmxq t o => tileOk t && legalWord (wordOf 0x10 0x14 o)
  | .vecVmxd t o => tileOk t && legalWord (wordOf 0x10 0x15 o)
  | .vecVmov t o => tileOk t && legalWord (wordOf 0x10 0x16 o)
  | .vecVzero t o => tileOk t && legalWord (wordOf 0x10 0x17 o)
  | .vecVneg t o => tileOk t && legalWord (wordOf 0x10 0x18 o)
  | .vecVabs t o => tileOk t && legalWord (wordOf 0x10 0x19 o)
  | .matLdw t o => tileOk t && legalWord (wordOf 0x20 0x00 o)
  | .matZacc t o => tileOk t && legalWord (wordOf 0x20 0x01 o)
  | .matAccw t o => tileOk t && legalWord (wordOf 0x20 0x02 o)
  | .matAccr t o => tileOk t && legalWord (wordOf 0x20 0x03 o)
  | .matMma t o => tileOk t && legalWord (wordOf 0x20 0x04 o)
  | .matAccst t o => tileOk t && legalWord (wordOf 0x20 0x05 o)
  | .stoLdv t o => tileOk t && legalWord (wordOf 0x28 0x00 o)
  | .stoStv t o => tileOk t && legalWord (wordOf 0x28 0x01 o)
  | .stoLdvi t o => tileOk t && legalWord (wordOf 0x28 0x02 o)
  | .stoStvi t o => tileOk t && legalWord (wordOf 0x28 0x03 o)
  | .stoStvm t o => tileOk t && legalWord (wordOf 0x28 0x04 o)
  | .stoGath t o => tileOk t && legalWord (wordOf 0x28 0x05 o)
  | .stoScat t o => tileOk t && legalWord (wordOf 0x28 0x06 o)
  | .stoLd8 t o => tileOk t && legalWord (wordOf 0x28 0x08 o)
  | .stoLd8u t o => tileOk t && legalWord (wordOf 0x28 0x09 o)
  | .stoLd16 t o => tileOk t && legalWord (wordOf 0x28 0x0A o)
  | .stoLd16u t o => tileOk t && legalWord (wordOf 0x28 0x0B o)
  | .stoLd32 t o => tileOk t && legalWord (wordOf 0x28 0x0C o)
  | .stoLd32u t o => tileOk t && legalWord (wordOf 0x28 0x0D o)
  | .stoLd64 t o => tileOk t && legalWord (wordOf 0x28 0x0E o)
  | .stoSt8 t o => tileOk t && legalWord (wordOf 0x28 0x10 o)
  | .stoSt16 t o => tileOk t && legalWord (wordOf 0x28 0x11 o)
  | .stoSt32 t o => tileOk t && legalWord (wordOf 0x28 0x12 o)
  | .stoSt64 t o => tileOk t && legalWord (wordOf 0x28 0x13 o)
  | .memGet t o => tileOk t && legalWord (wordOf 0x2C 0x00 o)
  | .memPut t o => tileOk t && legalWord (wordOf 0x2C 0x01 o)
  | .memGets t o => tileOk t && legalWord (wordOf 0x2C 0x02 o)
  | .memPuts t o => tileOk t && legalWord (wordOf 0x2C 0x03 o)
  | .memWait t o => tileOk t && legalWord (wordOf 0x2C 0x04 o)
  | .memTest t o => tileOk t && legalWord (wordOf 0x2C 0x05 o)
  | .memStat t o => tileOk t && legalWord (wordOf 0x2C 0x06 o)
  | .memTransferComplete t c tag => tileOk t && ctxOk c && tagOk tag
  | .strSend t o => tileOk t && legalWord (wordOf 0x30 0x00 o)
  | .strRecv t o => tileOk t && legalWord (wordOf 0x30 0x01 o)
  | .strFwd t o => tileOk t && legalWord (wordOf 0x30 0x02 o)
  | .strEos t o => tileOk t && legalWord (wordOf 0x30 0x03 o)
  | .strAvail t o => tileOk t && legalWord (wordOf 0x30 0x04 o)
  | .strCred t o => tileOk t && legalWord (wordOf 0x30 0x05 o)
  | .fabPut t o => tileOk t && legalWord (wordOf 0x34 0x00 o)
  | .fabGet t o => tileOk t && legalWord (wordOf 0x34 0x01 o)
  | .fabRed t o => tileOk t && legalWord (wordOf 0x34 0x02 o)
  | .fabWait t o => tileOk t && legalWord (wordOf 0x34 0x04 o)
  | .fabTest t o => tileOk t && legalWord (wordOf 0x34 0x05 o)
  | .fabStat t o => tileOk t && legalWord (wordOf 0x34 0x06 o)
  | .fabTransferComplete t c tag => tileOk t && ctxOk c && tagOk tag
  | .hurArrive t o => tileOk t && legalWord (wordOf 0x38 0x00 o)
  | .hurWait t o => tileOk t && legalWord (wordOf 0x38 0x01 o)
  | .hurSync t o => tileOk t && legalWord (wordOf 0x38 0x02 o)
  | .hurGen t o => tileOk t && legalWord (wordOf 0x38 0x03 o)
  | .arrivalWritesComplete t c _ => tileOk t && ctxOk c
  | .sysRow t o => tileOk t && legalWord (wordOf 0x3C 0x00 o)
  | .sysGetflags t o => tileOk t && legalWord (wordOf 0x3C 0x01 o)
  | .sysClrflags t o => tileOk t && legalWord (wordOf 0x3C 0x02 o)
  | .sysSetrm t o => tileOk t && legalWord (wordOf 0x3C 0x03 o)
  | .sysSetftz t o => tileOk t && legalWord (wordOf 0x3C 0x04 o)
  | .sysSeed t o => tileOk t && legalWord (wordOf 0x3C 0x05 o)
  | .sysGetseed t o => tileOk t && legalWord (wordOf 0x3C 0x06 o)
  | .sysEvent t o => tileOk t && legalWord (wordOf 0x3C 0x07 o)
  | .sysTile t o => tileOk t && legalWord (wordOf 0x3C 0x08 o)
  | .sysJob t o => tileOk t && legalWord (wordOf 0x3C 0x09 o)
  | .sysTime t o => tileOk t && legalWord (wordOf 0x3C 0x0A o)
  | .sysBeats t o => tileOk t && legalWord (wordOf 0x3C 0x0B o)
  | .sysGetrm t o => tileOk t && legalWord (wordOf 0x3C 0x0C o)
  | .waitCauseClear t c => tileOk t && ctxOk c
  | .tileFailure t => tileOk t
  | .tileFaultRecord => true
  | .chCreditSend t c ep => tileOk t && ctxOk c && decide (ep < 8)
  | .rowMapWrite die row _ _ _ => dieOk die && decide (row < 16)
  | .pendingMapApply die row => dieOk die && decide (row < 16)
  | .loadChain r _ _ _ => ringOk r
  | .startChain r => ringOk r
  | .stopChain r => ringOk r
  | .unloadChain r => ringOk r
  | .hurdleArrival die => dieOk die
  | .hurdleTimeout j _ => slotOk j
  | .hurTimeoutWrite _ => true
  | .releaseHoldEnd j _ => slotOk j
  | .storeScrub t word => tileOk t && decide (word < 131072)
  | .scrubRowReport die trow tcol sub row => dieOk die && decide (trow < 16) && decide (tcol < 16) && decide (sub < 16) && decide (row < 1024)
  | .lineAccess addr data _ => (bandOf addr).isSome && lineDataOk data
  | .memoryScrub md _ => decide (md < 8)
  | .selfRefreshReturn md => decide (md < 8)
  | .bandOwnerWrite _ band _ => decide (band < 160)
  | .bar2Read off len => decide (off + len ≤ 2 ^ 48) && decide (0 < len)
  | .bar2Write off bytes => decide (off + bytes.length ≤ 2 ^ 48) && !bytes.isEmpty
  | .bar2MergeTimeout => true
  | .ueReport => true
  | .laneRemove fd lane _ _ => fdOk fd && decide (lane < 320)
  | .dataFlit fd k _ d => fdOk fd && linkOk k && decide (d.payload.length ≤ 296)
  | .ackFlit fd k _ => fdOk fd && linkOk k
  | .nakFlit fd k _ => fdOk fd && linkOk k
  | .idleFlit fd k _ => fdOk fd && linkOk k
  | .trainFlit fd k _ _ => fdOk fd && linkOk k
  | .identityReportTimeout fd k => fdOk fd && linkOk k
  | .ackTimer fd k => fdOk fd && linkOk k
  | .linkFail fd k => fdOk fd && linkOk k
  | .commandedRetrain fd k => fdOk fd && linkOk k
  | .transitPacket fd k p _ => fdOk fd && linkOk k && packetOk p
  | .chEntry fd p => fdOk fd && packetOk p
  | .chCredit fd p => fdOk fd && packetOk p
  | .put fd p => fdOk fd && packetOk p
  | .putAck fd p => fdOk fd && packetOk p
  | .getReq fd p => fdOk fd && packetOk p
  | .getData fd p => fdOk fd && packetOk p
  | .redUp fd p => fdOk fd && packetOk p
  | .redDown fd p => fdOk fd && packetOk p
  | .reductionChunkCombine j _ i => slotOk j && decide (i < 256)
  | .hurArrivePacket p => packetOk p
  | .hurReleasePacket p => packetOk p
  | .keepaliveSend fd k => fdOk fd && linkOk k
  | .keepalive fd k _ _ _ _ _ _ => fdOk fd && linkOk k
  | .partnerSilent fd k => fdOk fd && linkOk k
  | .drain fd k _ _ => fdOk fd && linkOk k
  | .ready fd k _ => fdOk fd && linkOk k
  | .drop fd p => fdOk fd && packetOk p
  | .probe fd p => fdOk fd && packetOk p
  | .probeReply fd p => fdOk fd && packetOk p
  | .ckpt fd p _ => fdOk fd && packetOk p
  | .ckptAck fd p => fdOk fd && packetOk p
  | .fenceWrite _ link _ => fenceLinkOk link
  | .coordinateHoldEnd _ => true
  | .tagHoldEnd t c tag => tileOk t && ctxOk c && tagOk tag
  | .routeEntryWrite fd overlay _ e => fdOk fd && overlayOk overlay && decide (e.choices.length ≤ 4)
  | .moveSet n ms => engineOk n && movesOk ms
  | .ecsPoll x _ => decide (x < 4)
  | .feedLoss x f => decide (x < 4) && decide (f < 4)
  | .reachWrite _ => true
  | .quiesce q => skeinOk q
  | .quiesceRelease q => skeinOk q
  | .darkSlotEvent q => skeinOk q
  | .fadeEvaluation q _ => skeinOk q
  | .scheduledSwitch q => skeinOk q
  | .scheduledSwitchTimeout q => skeinOk q
  | .immediateSwitch q => skeinOk q
  | .primaryReturn q => skeinOk q
  | .ecsSafeWrite x _ => decide (x < 4)
  | .blank => true
  | .blankLift => true
  | .crookPeriod n _ => engineOk n
  | .slotMiss n => engineOk n
  | .liveValuesUpdate n => engineOk n
  | .railFault n => engineOk n
  | .elemMove n e _ _ => engineOk n && elemOk e
  | .elemSeek n e _ _ => engineOk n && elemOk e
  | .elemPark n e => engineOk n && elemOk e
  | .elemHold n e => engineOk n && elemOk e
  | .elemRelease n e => engineOk n && elemOk e
  | .elemTest n e => engineOk n && elemOk e
  | .elemSel n e _ => engineOk n && elemOk e
  | .elemClear n e => engineOk n && elemOk e
  | .queuedMoveStart n e => engineOk n && elemOk e
  | .handoverEvaluation n e => engineOk n && elemOk e
  | .slip n e => engineOk n && elemOk e
  | .followingErrorExpiry n e => engineOk n && elemOk e
  | .notchRecoveryEnd n e => engineOk n && elemOk e
  | .coefficientWrite n _ i w _ => engineOk n && decide (i < 176) && decide (w < 32)
  | .progMemWrite n _ _ => engineOk n
  | .progRun n => engineOk n
  | .progStop n => engineOk n
  | .indicatorCollect => true
  | .scoreWrite _ => true
  | .gossipSend => true
  | .gossip _ _ es => decide (es.length ≤ 15)
  | .selfReport _ _ _ _ _ => true
  | .verdict _ _ _ => true
  | .pen _ _ _ => true
  | .unpen _ _ _ => true
  | .claim _ _ => true
  | .accuse _ _ _ _ _ _ => true
  | .probeOrder _ _ _ _ => true
  | .probeResult _ _ _ _ => true
  | .probeDeadline => true
  | .expelReq _ _ _ _ => true
  | .expelOrder _ _ _ _ => true
  | .expelRefused _ _ _ => true
  | .admitMsg _ _ _ _ => true
  | .reportLapse m => decide (m < 16)
  | .gossipLost m => decide (m < 16)
  | .bellwetherLost => true
  | .hardFault _ => true
  | .suspensionExpiry m => decide (m < 16)
  | .budgetSlotExpiry i => slotOk i
  | .counterTrusted => true
  | .expelReevaluation => true
  | .reserveReport _ _ => true
  | .bindOffDeadline => true
  | .paddockMainRamp => true
  | .paddockPass => true
  | .paddockPassEnd _ _ => true
  | .paddockProgress => true
  | .paddockReportRepeat => true
  | .heartbeatSend => true
  | .heartbeat _ => true
  | .handshake _ => true
  | .sidebandSelfReport _ => true
  | .heartbeatSilence => true
  | .checkpointConfig r _ _ => ringOk r
  | .checkpointImport r _ _ => ringOk r
  | .tink r => ringOk r
  | .restoreComplete j => slotOk j
  | .commit j => slotOk j
  | .commitNotice p _ => packetOk p
  | .commitTimeout j => slotOk j
  | .exportComplete h => slotOk h
  | .bindOff r => ringOk r
  | .bindOffCommit => true
  | .castOnCo0 _ _ _ _ _ _ _ => true
  | .castOnCo1 _ _ => true
  | .castOnCo2 _ _ _ _ _ _ => true
  | .castOnCo3 _ _ => true
  | .castOnCo4 quals temps => qualsOk quals && decide (temps.length = 40)
  | .castOnCo5 failed noAck => coresOk failed && coresOk noAck
  | .castOnCo6 lanes => lanesOk lanes
  | .castOnCo7 sources gauges temps lanes => decide (sources.length = 4) && sources.all (fun x => x.all (fun t => decide (t.safe.length = 32 ∧ t.full.length = 32))) && decide (gauges.length = 4) && decide (temps.length = 4) && lanesOk lanes
  | .castOnCo8 lanes => lanesOk lanes
  | .castOnCo9 => true
  | .stageTimeout => true
  | .castRetry => true
  | .planWaitRetry => true
  | .holdReport => true
  | .planLoad r _ _ _ _ => ringOk r
  | .planMessage _ _ _ _ => true
  | .partitionReset r => ringOk r
  | .allPartitionReset r => ringOk r
  | .mainReset r => ringOk r
  | .islandAssign r => ringOk r
  | .nop r => ringOk r
  | .accuseCommand r => ringOk r
  | .move r _ _ => ringOk r
  | .moveComplete r _ _ => ringOk r
  | .imageStage r _ _ _ => ringOk r
  | .activateImage r => ringOk r
  | .controlActivateImage _ slot => decide (slot < 2)
  | .maintenancePoint => true
  | .rejectImage r => ringOk r
  | .fwConfirm _ => true
  | .trialDeadline => true
  | .ownerEnroll r _ _ _ => ringOk r
  | .ownerRelease r _ _ => ringOk r
  | .distribute _ _ _ slot _ _ => decide (slot < 2)
  | .chunk _ bytes _ _ => decide (bytes.length ≤ 16416)
  | .chunkRepair => true
  | .repairHolderTimeout => true
  | .controlMessage _ _ => true
  | .sequenceRecord => true
  | .epochGraceEnd => true
  | .reservationRetry _ => true
  | .spdmGetVersion via => decide (via < 3)
  | .getCapabilities via => decide (via < 3)
  | .negotiateAlgorithms via => decide (via < 3)
  | .getDigests via => decide (via < 3)
  | .getCertificate via slot _ _ => decide (via < 3) && decide (slot < 8)
  | .challenge via _ => decide (via < 3)
  | .getMeasurements via _ _ => decide (via < 3)
  | .pskExchange via _ => decide (via < 3)
  | .pskFinish via _ => decide (via < 3)
  | .spdmHeartbeat via => decide (via < 3)
  | .endSession via => decide (via < 3)
  | .vendorDefinedRequest via _ _ => decide (via < 3)
  | .tallyEvent _ => true
  | .tokenRefill _ => true
  | .cursorWrite _ => true
  | .windowAutoAdvance => true
  | .freeze => true
  | .unfreeze => true
  | .freezeTimeout => true
  | .mirror => true
  | .ringWriteEnd => true
  | .bbRelease => true
  | .bbCursorWrite _ _ => true
  | .testStart fd lane => testLaneOk fd lane
  | .ringPoll r _ _ _ _ => ringOk r
  | .ringEnable r _ _ _ _ _ => ringOk r
  | .ringDisable r => ringOk r
  | .completionWrite r _ => ringOk r
  | .coalesceTimer r => ringOk r
  | .functionLevelReset => true
  | .perst _ => true
  | .doeRequest _ req => decide (req.length ≤ 16384)
  | .doeAbort => true
  | .getStatus => true
  | .mboxGetMeasurements => true
  | .getLog => true
  | .getCert => true
  | .recoveryWrite => true
  | .recoveryCheck _ => true
  | .mboxOwnerEnroll => true
  | .entdaa _ => true
  | .rstdaa => true
  | .enec _ => true
  | .disec _ => true
  | .getpid => true
  | .getbcr => true
  | .getdcr => true
  | .getstatus => true
  | .setmwl _ => true
  | .setmrl _ => true
  | .getmwl => true
  | .getmrl => true
  | .rstact _ => true
  | .setEndpointId _ => true
  | .getEndpointId => true
  | .getEndpointUuid => true
  | .getMctpVersionSupport _ => true
  | .getMessageTypeSupport => true
  | .serviceRequest => true
  | .coolantSample _ _ _ => true
  | .coolingLow => true
  | .coolingRecovered => true
  | .thermalTrip => true
  | .registerWrite off width _ => decide (off < 2 ^ 48) && decide (width = 1 ∨ width = 2 ∨ width = 4 ∨ width = 8)
  | .mainPowerRestore => true
  | .ecsPresChange x _ => decide (x < 4)
  | .holdupBankCharged => true
  | .shadowCopyEnd => true
  | .mirrorWriteEnd => true
  | .checkerLock fd lane => testLaneOk fd lane
  | .checkerLockLost fd lane _ _ _ _ => testLaneOk fd lane

end Sys2Proof
end

