-- ==== Sys2Proof/Tests/Slice0.lean ====
section
/-! SUPPORT. Tests: words written out from the encodings, ill-formed commands, single commands worked out by hand, and
for every statement with hypotheses a witness that meets them. -/

namespace Sys2Proof.Tests

open Sys2Proof Sys2Proof.Machine


/-! ### States of the tests -/

/-- A module up in group 1, position 0: main on, every island up, ready, owned, a member with its plan. -/
def up : State := { State.reset with
  tb := 0x1000000000000
  pwr := { State.reset.pwr with transit := true, memory := true, islands := 0xFF }
  gate := { State.reset.gate with sig := { State.reset.gate.sig with auxPg := true, mainEn := true, perstN := true } }
  cast := { State.reset.cast with running := false, ready := true, stage := 9, coordValid := true }
  shep := { State.reset.shep with coord := 0x010, hasCoord := true, member := true }
  flash := { State.reset.flash with
    owned := true
    settings := { State.reset.flash.settings with plan := some { version := 1, pod := 5, epoch := 0 } } } }

/-- Tile 7 of that module, its context 0 being `x`, running, at a word of major opcode `m` and function `f`
with the operand bits `b`. -/
def at7 (m f : Nat) (b : BitVec 47) (x : Ctx := {}) : State := { up with
  ctxs := [(28, { x with mode := .running, istoreLen := 64, jobId := 3, jobGen := 1 })]
  istore := [(229376, wordOf m f ⟨0, b⟩)]
  images := [{ part := 0, chainId := 0xFFFF, jobId := 3, jobGen := 1, flags := 1, peers := [0x011], ctxs := [], hurs := [
    { id := 0x123, level := 0, commit := false, post := false, members := 2, children := 0, parent := 0xFFFF },
    { id := 0x124, level := 2, commit := false, post := false, members := 1, children := 0, parent := 0xFFFF },
    { id := 0x125, level := 1, commit := true, post := false, members := 1, children := 0, parent := 0xFFFF }] }]
  partJob := [(0, 3)]
  jobs := [(0, { jobId := 3, jobGen := 1, valid := true, row := 41, hasRow := true })] }

/-- Operand bits of format R and of format I. -/
def fr (d a b c x : Nat) : BitVec 47 := BitVec.ofNat 47 (d * 2 ^ 41 + a * 2 ^ 35 + b * 2 ^ 29 + c * 2 ^ 23 + x)
def fi (d a i : Nat) : BitVec 47 := BitVec.ofNat 47 (d * 2 ^ 41 + a * 2 ^ 35 + i)

/-- Everything that `Issues` asks, as one value. -/
def iss (s : State) (m f : Nat) (b : BitVec 47) : Bool :=
  s.canIssue 7 && decide ((s.tile 7).owner = 0) && (s.ctx 7 0).pcIn &&
  decide (s.istoreWord 7 (s.ctx 7 0).pc.toNat = wordOf m f ⟨0, b⟩) && legalWord (wordOf m f ⟨0, b⟩) && (s.ctx 7 0).guardOk 0

theorem issues_of {s : State} {m f : Nat} {b : BitVec 47} (h : iss s m f b = true) : Issues s 7 0 m f ⟨0, b⟩ := by
  simp only [iss, Bool.and_eq_true, decide_eq_true_eq] at h
  exact ⟨⟨h.1.1.1.1.1, h.1.1.1.1.2, h.1.1.1.2, h.1.1.2, h.1.2⟩, h.2⟩

/-! ### Decoding: words written out from Tables 4-3 to 4-19, one or more for each family -/

theorem test_decode_ctl : stageOf 7 0x0004800000000000 = some (.ctlHalt 7 ⟨0, 0⟩) ∧
    -- CTL_BR −1: imm [34:0] all ones
    stageOf 7 0x00008007FFFFFFFF = some (.ctlBr 7 ⟨0, 0x7FFFFFFFF⟩) ∧
    -- CTL_LOOPI 5, level 1, length 3: imm = 5 · 2^14 + 1 · 2^12 + 3
    stageOf 7 0x0002800000015003 = some (.ctlLoopi 7 ⟨0, 0x15003⟩) := by decide
theorem test_decode_sca : stageOf 7 0x2000060840000000 = some (.scaAdd 7 .reg ⟨0, 0x060840000000⟩) ∧
    stageOf 7 0x2749820000000005 = some (.scaLi 7 .imm ⟨0b11010, 0x020000000005⟩) := by decide
/-- VEC_VADD v2, v1, v3 of type 10: major 0x10, d 2, a 1, b 3, x 10. -/
theorem test_decode_vec : stageOf 7 0x400004086000000A = some (.vecVadd 7 ⟨0, 0x04086000000A⟩) := by decide
/-- MAT_ZACC 3: major 0x20, function 1, d 3. -/
theorem test_decode_mat : stageOf 7 0x8000860000000000 = some (.matZacc 7 ⟨0, 0x060000000000⟩) := by decide
/-- STO_LD64 s3, a2, 8: major 0x28, function 0x0E, d 3, a 2, imm 8. -/
theorem test_decode_sto : stageOf 7 0xA007061000000008 = some (.stoLd64 7 ⟨0, 0x061000000008⟩) := by decide
theorem test_decode_mem : stageOf 7 0xB002040000000000 = some (.memWait 7 ⟨0, 0x040000000000⟩) := by decide
/-- STR_SEND ch 1, v2, last: major 0x30, d 1, a 2, x 1. -/
theorem test_decode_str : stageOf 7 0xC000021000000001 = some (.strSend 7 ⟨0, 0x021000000001⟩) := by decide
/-- FAB_WAIT 2: major 0x34, function 4, d 2. -/
theorem test_decode_fab : stageOf 7 0xD002040000000000 = some (.fabWait 7 ⟨0, 0x040000000000⟩) := by decide
theorem test_decode_hur : stageOf 7 0xE000800000000123 = some (.hurWait 7 ⟨0, 0x123⟩) := by decide
theorem test_decode_sys : stageOf 7 0xF005080000000000 = some (.sysTime 7 ⟨0, 0x080000000000⟩) := by decide
/-- A guard of 1 without g, a function of no class, and a class of no functions are no instructions. -/
theorem test_decode_illegal : stageOf 7 0x0020000000000000 = none ∧ stageOf 7 0x201F800000000000 = none ∧
    stageOf 7 0xFC00000000000000 = none := by decide

/-! ### WellFormed refuses an ill-formed command of each check -/

theorem test_wf_refuses :
    (Instr.ctlNop 9600 ⟨0, 0⟩).wf = false ∧ (Instr.ctlNop 7 ⟨0, 1⟩).wf = false ∧ (Instr.ctlNop 7 ⟨1, 0⟩).wf = false ∧
    (Instr.scaLi 7 .reg ⟨0, 0⟩).wf = false ∧ (Instr.waitCauseClear 7 4).wf = false ∧ (Instr.minRearm 40).wf = false ∧
    (Instr.memTransferComplete 7 0 16).wf = false ∧ (Instr.ackTimer 2 0).wf = false ∧ (Instr.ackTimer 0 176).wf = false ∧
    (Instr.progRun 4).wf = false ∧ (Instr.elemPark 0 176).wf = false ∧ (Instr.quiesce 64).wf = false ∧
    (Instr.commit 8).wf = false ∧ (Instr.nop 9).wf = false ∧ (Instr.chCreditSend 7 0 8).wf = false ∧
    (Instr.rowMapWrite 0 16 0 true none).wf = false ∧ (Instr.storeScrub 7 131072).wf = false ∧
    (Instr.scrubRowReport 0 0 0 0 1024).wf = false ∧ (Instr.lineAccess 0x0F0000000000 none 0).wf = false ∧
    (Instr.lineAccess 0 (some (512, [0])) 0).wf = false ∧ (Instr.tbTick [(2 ^ 48, 0)]).wf = false ∧
    (Instr.memoryScrub 8 0).wf = false ∧ (Instr.bandOwnerWrite true 160 0).wf = false ∧ (Instr.bar2Read 0 0).wf = false ∧
    (Instr.bar2Write 0 []).wf = false ∧ (Instr.laneRemove 0 320 true 0).wf = false ∧
    (Instr.reductionChunkCombine 0 0 256).wf = false ∧ (Instr.fenceWrite none (some (0, 176)) true).wf = false ∧
    (Instr.routeEntryWrite 0 (some (8, 0, 0)) 0 {}).wf = false ∧ (Instr.moveSet 0 [⟨176, none, 0, none⟩]).wf = false ∧
    (Instr.feedLoss 0 4).wf = false ∧ (Instr.coefficientWrite 0 false 0 32 0).wf = false ∧ (Instr.gossipLost 16).wf = false ∧
    (Instr.castOnCo4 [] []).wf = false ∧ (Instr.castOnCo5 [10240] []).wf = false ∧
    (Instr.castOnCo6 [{ lane := 640, partner := none, errs := 0, bits := 0, uncorr := 0 }]).wf = false ∧ (Instr.getDigests 3).wf = false ∧
    (Instr.testStart 2 16).wf = false ∧ (Instr.registerWrite 0 3 0).wf = false ∧ (Instr.ecsSafeWrite 4 true).wf = false := by
  decide
/-- The packet check: a payload of 4 096 bytes passes, a longer one does not. -/
theorem test_wf_packet (n : Nat) : packetOk { dst := 0, src := 0, kind := 3, vc := 0, payload := List.replicate n 0 } =
    decide (n ≤ 4096) := by simp [packetOk]
theorem test_wf_accepts : (Instr.ctlNop 9599 ⟨0, 0⟩).wf = true ∧ (Instr.scaAdd 0 .reg ⟨0, 0x060840000000⟩).wf = true ∧
    (Instr.ackTimer 1 175).wf = true ∧ (Instr.nop 8).wf = true := by decide

/-! ### Single commands on small states; what each gives is worked out from the rule named -/

/-- Reading of one register of context 0 of tile 7 after a command. -/
def after (i : Instr) (s : State) (f : Ctx → Word) : Option Word :=
  match exec i s with
  | .next u => some (f (u.ctx 7 0))
  | _ => none

/-- R86: 2^64 − 1 plus 2 wraps to 1. -/
theorem test_add_wraps : after (.scaAdd 7 .reg ⟨0, fr 3 1 2 0 0⟩)
    (at7 8 0 (fr 3 1 2 0 0) { s := [(1, 0xFFFFFFFFFFFFFFFF), (2, 2)] }) (·.getS 3) = some 1 := by decide
/-- R86: −7 divided by 2 rounds toward zero; a divisor of 0 gives all ones. -/
theorem test_div_corners : after (.scaDiv 7 .reg ⟨0, fr 3 1 2 0 0⟩)
      (at7 8 5 (fr 3 1 2 0 0) { s := [(1, 0xFFFFFFFFFFFFFFF9), (2, 2)] }) (·.getS 3) = some 0xFFFFFFFFFFFFFFFD ∧
    after (.scaDiv 7 .reg ⟨0, fr 3 1 2 0 0⟩)
      (at7 8 5 (fr 3 1 2 0 0) { s := [(1, 5)] }) (·.getS 3) = some 0xFFFFFFFFFFFFFFFF := by decide
/-- R86: −2^63 by −1 gives −2^63. -/
theorem test_div_overflow : after (.scaDiv 7 .reg ⟨0, fr 3 1 2 0 0⟩)
    (at7 8 5 (fr 3 1 2 0 0) { s := [(1, 0x8000000000000000), (2, 0xFFFFFFFFFFFFFFFF)] }) (·.getS 3)
      = some 0x8000000000000000 := by decide
/-- Table 3-1: a write of s0 is ignored. -/
theorem test_s0_stays_zero : after (.scaLi 7 .imm ⟨0, fi 0 0 5⟩) (at7 9 0x13 (fi 0 0 5)) (·.getS 0) = some 0 := by decide
/-- R81: a word with a false guard moves the pc by one and writes nothing. -/
theorem test_false_guard : after (.scaLi 7 .imm ⟨0b10001, fi 3 0 5⟩)
    { at7 9 0x13 0 with istore := [(229376, wordOf 9 0x13 ⟨0b10001, fi 3 0 5⟩)] }
    (fun x => x.getS 3 + x.pc.setWidth 64) = some 1 := by decide

/-! ### Witnesses: for each statement with hypotheses, states and operands that meet them, clause by clause -/

theorem wit_StageWordReadsBack : stageWord (.scaLi 7 .imm ⟨0b11010, 0x020000000005⟩) = some (7, 0x2749820000000005) ∧
    legalWord 0x2749820000000005 = true := by decide
theorem wit_LegalWordsAreInstructions : legalWord 0x2000060840000000 = true ∧ legalWord 0x201F800000000000 = false := by
  decide
/-- A word with function 0x3F; a pc at the end of the region; a false guard. -/
theorem wit_FetchedWordOutcomes :
    (stageWord (.ctlNop 7 ⟨0, 0⟩) = some (7, wordOf 0 0 ⟨0, 0⟩) ∧ (at7 8 0x3F 0).canIssue 7 = true ∧
      ((at7 8 0x3F 0).tile 7).owner = 0 ∧ legalWord ((at7 8 0x3F 0).istoreWord 7 0) = false ∧
      ((at7 0 0 0 { pc := 64 }).ctx 7 0).pcIn = false ∧ (at7 0 0 0 { pc := 64 }).canIssue 7 = true) ∧
    (∀ s, s = { at7 0 4 0 with istore := [(229376, wordOf 0 4 ⟨0b10001, fi 0 1 3⟩)] } →
      Fetches s 7 0 0 4 ⟨0b10001, fi 0 1 3⟩ ∧ (s.ctx 7 0).guardOk 0b10001 = false ∧
      stageWord (.ctlLoop 7 ⟨0b10001, fi 0 1 3⟩) = some (7, wordOf 0 4 ⟨0b10001, fi 0 1 3⟩)) := by
  refine ⟨by decide, fun s h => ?_⟩; subst h; unfold Fetches; decide

theorem wit_ControlInstructions :
    (∀ f b, (f, b) ∈ [(0, 0), (1, fi 0 0 5), (2, fi 1 0 5), (3, fi 0 1 0), (6, 0), (7, fi 3 0 0x1000), (8, 0), (9, 0)] →
      Issues (at7 0 f b) 7 0 0 f ⟨0, b⟩) ∧
    (∀ s, s = at7 0 6 0 { loops := [(0, { active := true, last := 9 })] } →
      Issues s 7 0 0 6 ⟨0, 0⟩ ∧ (((issued s 7 0).ctx 7 0).loop 0).active = true) ∧
    (((issued (at7 0 6 0) 7 0).ctx 7 0).loop 0).active = false ∧
    (((issued (at7 0 9 0) 7 0).ctx 7 0).mems.any fun p => p.2.xfer.isSome) = false ∧
    (∀ s, s = at7 0 9 0 { mems := [(2, { xfer := some { kind := .get, aw := 0, am := 0, len := 32 } })] } →
      Issues s 7 0 0 9 ⟨0, 0⟩ ∧ (((issued s 7 0).ctx 7 0).mems.any fun p => p.2.xfer.isSome) = true) := by
  refine ⟨fun f b h => issues_of ?_, fun s h => ?_, by decide, by decide, fun s h => ?_⟩
  · fin_cases h <;> decide
  · subst h; exact ⟨issues_of (by decide), by decide⟩
  · subst h; exact ⟨issues_of (by decide), by decide⟩

/-- LOOP and LOOPI with a count above 0 and a count of 0. -/
theorem wit_LoopSetup :
    (Issues (at7 0 4 (fi 0 1 0x3003) { s := [(1, 6)] }) 7 0 0 4 ⟨0, fi 0 1 0x3003⟩ ∧
      (((issued (at7 0 4 (fi 0 1 0x3003) { s := [(1, 6)] }) 7 0).ctx 7 0).getS 1).setWidth 32 = (6 : BitVec 32)) ∧
    (Issues (at7 0 4 (fi 0 0 0x1FFF)) 7 0 0 4 ⟨0, fi 0 0 0x1FFF⟩ ∧
      (((issued (at7 0 4 (fi 0 0 0x1FFF)) 7 0).ctx 7 0).getS 0).setWidth 32 = (0 : BitVec 32)) ∧
    (Issues (at7 0 5 (fi 0 0 0x3FFFFFFFF)) 7 0 0 5 ⟨0, fi 0 0 0x3FFFFFFFF⟩ ∧ loopCount (fi 0 0 0x3FFFFFFFF) = 1048575) ∧
    (Issues (at7 0 5 (fi 0 0 1)) 7 0 0 5 ⟨0, fi 0 0 1⟩ ∧ loopCount (fi 0 0 1) = 0) :=
  ⟨⟨issues_of (by decide), by decide⟩, ⟨issues_of (by decide), by decide⟩, ⟨issues_of (by decide), by decide⟩,
    issues_of (by decide), by decide⟩

theorem wit_ScalarArithmetic : (∀ f < 0x13, Issues (at7 8 f (fr 31 30 29 0 0)) 7 0 8 f ⟨0, fr 31 30 29 0 0⟩) ∧
    ∀ f ∈ [0, 2, 9, 10, 11, 12, 13, 14], Issues (at7 9 f (fi 31 30 0x7FFFFFFFF)) 7 0 9 f ⟨0, fi 31 30 0x7FFFFFFFF⟩ := by
  unfold Issues Fetches; decide

theorem wit_ScalarMovesAndPredicates :
    (∀ m f b, (m, f, b) ∈ [(9, 0x13, fi 3 0 0x7FFFFFFFF), (9, 0x14, fi 3 0 0xFFFFFFFF), (8, 0x15, fr 47 1 2 0 0),
        (9, 0x15, fi 0 1 5), (8, 0x16, fr 7 1 2 0 3), (8, 0x17, fr 3 0 0 0 0), (8, 0x18, fr 0 3 0 0 0),
        (8, 0x19, fr 15 3 0 0 0), (8, 0x1A, fr 3 15 0 0 0), (8, 0x1B, fr 15 14 3 0 0), (9, 0x1B, fi 15 14 0x7FFFFFFFF)] →
      Issues (at7 m f b) 7 0 m f ⟨0, b⟩) := by
  intro m f b h; refine issues_of ?_; fin_cases h <;> decide

theorem wit_VectorLaneArithmetic :
    (∀ f ∈ [0, 1, 2, 4, 5], ∀ t ∈ [0, 1, 2, 4, 5, 6, 8, 9, 10], Issues (at7 16 f (fr 31 1 2 0 t)) 7 0 16 f ⟨0, fr 31 1 2 0 t⟩) ∧
    ∀ f ∈ [9, 10], ∀ t ∈ [0, 1, 2, 4, 5, 6], Issues (at7 16 f (fr 31 1 2 0 t)) 7 0 16 f ⟨0, fr 31 1 2 0 t⟩ ∧
      typeFloat t = false := by
  unfold Issues Fetches; decide
theorem wit_VectorBitsAndLanes :
    (∀ f b, (f, b) ∈ [(0x06, fr 3 1 2 0 2), (0x07, fr 3 1 2 0 0), (0x08, fr 3 1 2 0 6), (0x0C, fr 3 1 2 4 10),
        (0x10, fr 3 31 0 0 5), (0x11, fr 31 3 0 0 (255 * 2 ^ 13)), (0x12, fr 3 31 0 0 (63 * 2 ^ 13 + 10)), (0x13, fr 3 1 2 0 2),
        (0x16, fr 3 1 0 0 0), (0x17, fr 63 0 0 0 0), (0x18, fr 3 1 0 0 2), (0x18, fr 3 1 0 0 8), (0x19, fr 3 1 0 0 2),
        (0x19, fr 3 1 0 0 10), (0x18, fr 3 1 0 0 5)] → Issues (at7 16 f b) 7 0 16 f ⟨0, b⟩) ∧
    (0 < 32 ∧ (List.replicate 64 (0 : Nat)).length * 32 ≤ 2048 ∧ 63 < (List.replicate 64 (0 : Nat)).length) := by
  refine ⟨fun f b h => issues_of ?_, by decide⟩; fin_cases h <;> decide
theorem wit_VectorFloatAndFormats :
    (∀ f b, (f, b) ∈ [(0x03, fr 3 1 2 4 10), (0x0B, fr 3 1 2 0 (6 * 64 + 8)), (0x0B, fr 3 1 2 0 0),
        (0x0D, fr 3 1 0 0 (8 * 512 + 10)), (0x0E, fr 3 1 0 0 (6 * 512 + 10)), (0x0F, fr 3 1 0 0 2), (0x0F, fr 3 1 0 0 (2 * 64 + 5)),
        (0x0F, fr 3 1 0 0 10), (0x0F, fr 3 1 0 0 (64 + 9)), (0x14, fr 3 1 2 0 (3 * 512 + 10)),
        (0x15, fr 3 1 2 0 (512 + 10))] → Issues (at7 16 f b) 7 0 16 f ⟨0, b⟩) ∧
    (typeFloat 2 = false ∧ typeFloat 10 = true ∧ xOp 10 = 0 ∧ xOp (64 + 9) ≠ 0) := by
  refine ⟨fun f b h => issues_of ?_, by decide⟩; fin_cases h <;> decide

/-- A packet of job 3 from module 0x011 to tile 7. -/
def pkt (k : Byte) (vc : BitVec 2) : Packet :=
  { dst := 0x010, src := 0x011, kind := k, vc := vc, jobId := 3, jobGen := 1, dstTile := 7, srcTile := 7 }

/-- A window of 64 KiB, and a channel endpoint and a tag of each kind. -/
def win : Ctx := { windowLen := 65536 }

theorem wit_MatrixInstructions :
    (∀ f b, (f, b) ∈ [(0, fi 3 0 (6 * 2 ^ 23)), (1, fr 3 0 0 0 0), (2, fr 3 1 0 0 1), (3, fr 5 3 0 0 (64 + 4)), (4, fr 3 1 2 3 0),
        (4, fr 2 1 2 2 3), (5, fi 3 0 (2 ^ 27 + 2 ^ 23))] → Issues (at7 32 f b win) 7 0 32 f ⟨0, b⟩) ∧
    (∀ s, s = issued (at7 32 0 (fi 3 0 (6 * 2 ^ 23)) win) 7 0 →
      (s.ctx 7 0).winOk (effAddr (s.ctx 7 0) 0 0 32) (wbufBytes 6) = true ∧
      s.firstBad (winAddr 7 (s.ctx 7 0) 0) (wbufBytes 6) = none) ∧
    (∃ wt af, mmaListed wt af = false) ∧ (mmaListed 0 0 = true) ∧
    (∀ s, s = at7 32 4 (fr 2 1 2 2 3) { win with wb := [(2, { tag := 4 }), (3, { tag := 4 })] } →
      Issues s 7 0 32 4 ⟨0, fr 2 1 2 2 3⟩ ∧ (((issued s 7 0).ctx 7 0).getW 2).tag = 4 ∧
      (((issued s 7 0).ctx 7 0).getW 3).tag = 4 ∧ mmaListed 4 3 = true) ∧
    (∀ s, s = issued (at7 32 5 (fi 3 0 (2 ^ 27 + 2 ^ 23)) win) 7 0 →
      let x := s.ctx 7 0
      let r := x.accOut 3 1 0
      let bytes := leBytes (4 * r.2.1) (packNat r.2.1 r.1)
      x.winOk (effAddr x 0 0 32) bytes.length = true ∧ s.mergeBad [(winAddr 7 x (effAddr x 0 0 32), bytes)] = none) := by
  refine ⟨fun f b h => issues_of ?_, fun s h => ?_, ⟨0, 5, by decide⟩, by decide, fun s h => ?_, fun s h => ?_⟩
  · fin_cases h <;> decide
  · subst h; decide
  · subst h; exact ⟨issues_of (by decide), by decide, by decide, by decide⟩
  · subst h; decide

theorem wit_StoreLoads :
    (∀ f ∈ [0, 2, 8, 9, 10, 11, 12, 13, 14], Issues (at7 40 f (fi 3 2 0) win) 7 0 40 f ⟨0, fi 3 2 0⟩) ∧
    Issues (at7 40 5 (fr 3 2 4 0 0) win) 7 0 40 5 ⟨0, fr 3 2 4 0 0⟩ ∧
    (∀ s, s = issued (at7 40 0 (fi 3 2 65280) win) 7 0 →
      (s.ctx 7 0).winOk (effAddr (s.ctx 7 0) 2 65280 32) 256 = true ∧
      s.firstBad (winAddr 7 (s.ctx 7 0) 65280) 256 = none ∧
      (∀ n ∈ [1, 2, 4, 8], (s.ctx 7 0).winOk (effAddr (s.ctx 7 0) 2 65528 n) n = true ∧
        s.firstBad (winAddr 7 (s.ctx 7 0) 65528) n = none) ∧
      (∀ i < 64, (s.ctx 7 0).winOk (((s.ctx 7 0).getA 2).toNat + laneGet 32 ((s.ctx 7 0).getV 4) i) 4 = true) ∧
      (∀ i < 64, s.unitBad (unitOf (winAddr 7 (s.ctx 7 0) (laneGet 32 ((s.ctx 7 0).getV 4) i))) = false) ∧
      (s.ctx 7 0).winOk (effAddr (s.ctx 7 0) 2 65536 8) 8 = false) := by
  refine ⟨by unfold Issues Fetches; decide, issues_of (by decide), fun s h => ?_⟩
  subst h; decide +kernel

theorem wit_StoreWrites :
    (∀ f ∈ [1, 3, 16, 17, 18, 19], Issues (at7 40 f (fi 3 2 0) win) 7 0 40 f ⟨0, fi 3 2 0⟩) ∧
    Issues (at7 40 6 (fr 3 2 4 0 0) win) 7 0 40 6 ⟨0, fr 3 2 4 0 0⟩ ∧
    Issues (at7 40 4 (fr 3 2 4 0 0) win) 7 0 40 4 ⟨0, fr 3 2 4 0 0⟩ ∧
    (∀ s, s = issued (at7 40 1 (fi 3 2 65280) win) 7 0 →
      (s.ctx 7 0).winOk 65280 256 = true ∧ s.mergeBad [(winAddr 7 (s.ctx 7 0) 65280, vecBytes 0)] = none ∧
      (∀ n ∈ [1, 2, 4, 8], (s.ctx 7 0).winOk 65528 n = true ∧
        s.mergeBad [(winAddr 7 (s.ctx 7 0) 65528, leBytes n 5)] = none) ∧
      (s.ctx 7 0).winOk 65536 8 = false) := by
  refine ⟨by unfold Issues Fetches; decide, issues_of (by decide), issues_of (by decide), fun s h => ?_⟩
  subst h; decide +kernel

/-- Bands 0 to 19 belong to partition 0; tag 2 is free or flies. -/
def memAt (f : Nat) (b : BitVec 47) (n : Word) (fly : Bool) : State :=
  { at7 44 f b { win with
      s := [(4, n)]
      mems := if fly then [(2, { xfer := some { kind := .get, aw := 0, am := 0, len := 32 } })] else [] } with
    bands := [(0, { owner := 0 })] }

theorem wit_MemTransfers :
    (∀ f b, (f, b) ∈ [(0, fr 2 1 3 4 0), (1, fr 2 1 3 4 0), (2, fr 2 1 3 4 2), (3, fr 2 1 3 4 4096), (4, fr 2 0 0 0 0), (5, fr 7 2 0 0 0),
        (6, fr 3 2 0 0 0)] → ∀ fly, Issues (memAt f b 32 fly) 7 0 44 f ⟨0, b⟩) ∧
    (∀ s, s = issued (memAt 1 (fr 2 1 3 4 0) 64 false) 7 0 →
      ((s.ctx 7 0).mem 2).xfer.isSome = false ∧ (s.ctx 7 0).winOk 0 64 = true ∧ s.reach (partOfTile 7) 0 64 = true ∧
      s.firstBad (winAddr 7 (s.ctx 7 0) 0) 64 = none) ∧
    (((issued (memAt 4 (fr 2 0 0 0 0) 0 true) 7 0).ctx 7 0).mem 2).xfer.isSome = true ∧
    ((0x400020 : Word).toNat % 2 ^ 32 / 32 * 32 > 0x400000 ∧ (31 : Word).toNat % 2 ^ 32 / 32 * 32 = 0) ∧
    (∀ s k, s = at7 0 0 0 { win with mems := [(2, { xfer := some { kind := k, aw := 0, am := 0, len := 32 } })], memOrder := [2] } →
      k = .get ∨ k = .put →
      ((s.ctx 7 0).mem 2).xfer = some { kind := k, aw := 0, am := 0, len := 32 } ∧ s.dieOn (dieOfTile 7) = true ∧
      (s.ctx 7 0).mustWait 2 { kind := k, aw := 0, am := 0, len := 32 } = false ∧ s.firstBad 0 32 = none ∧
      s.xferAsleep { kind := k, aw := 0, am := 0, len := 32 } = false) ∧
    (∀ s, s = { up with mds := [(0, { selfRefresh := true })] } →
      s.xferAsleep { kind := .get, aw := 0, am := 0, len := 32 } = true) := by
  refine ⟨fun f b h fly => issues_of ?_, fun s h => ?_, by decide, by decide, fun s k h hk => ?_, fun s h => by subst h; decide⟩
  · cases fly <;> fin_cases h <;> decide
  · subst h; decide
  · rcases hk with rfl | rfl <;> subst h <;> decide

/-- Endpoints of context 0: outbound 1 bound to another module with `n` credits, inbound 2 with entries `l`. -/
def chAt (f : Nat) (b : BitVec 47) (n : Nat) (l : List Bool) : State := at7 48 f b { win with
  outs := [(1, { far := some (.away 0x011 7 0 2), depth := 4, credits := n })]
  ins := [(2, { far := some (.away 0x011 7 0 1), depth := 4, buf := 1024, lasts := l, nextSeq := 9, owed := List.replicate 8 5 })] }

theorem wit_StreamChannels :
    (∀ f b, (f, b) ∈ [(0, fr 1 3 0 0 1), (1, fr 3 2 0 0 0), (2, fr 1 2 0 0 0), (3, fr 0 2 0 0 0), (4, fr 0 2 0 0 0), (5, fr 0 1 0 0 0)] →
      Issues (chAt f b 1 [false]) 7 0 48 f ⟨0, b⟩) ∧
    (∀ s x, s = issued (chAt 2 (fr 1 2 0 0 0) 1 [false]) 7 0 → x = s.ctx 7 0 →
      (x.outEp 1).far.isNone = false ∧ (x.outEp 1).closed = false ∧ (x.outEp 1).credits ≠ 0 ∧ (x.inEp 2).far.isNone = false ∧
      (x.inEp 2).lasts ≠ [] ∧ s.firstBad ((x.inEp 2).addr 7 (x.inEp 2).head) 256 = none ∧ (x.outEp 0).far.isNone = true) ∧
    (∀ s x, s = issued (chAt 0 (fr 1 3 0 0 1) 0 []) 7 0 → x = s.ctx 7 0 →
      (x.outEp 1).credits = 0 ∧ (x.inEp 2).lasts = [] ∧ (x.inEp 2).ended = false) ∧
    (∀ s, s = at7 48 1 (fr 3 2 0 0 0) { ins := [(2, { ended := true })] } →
      Issues s 7 0 48 1 ⟨0, fr 3 2 0 0 0⟩ ∧ (((issued s 7 0).ctx 7 0).inEp 2).lasts = [] ∧
      (((issued s 7 0).ctx 7 0).inEp 2).ended = true) ∧
    (∀ s, s = chAt 0 0 1 [] →
      Arrives s 1 1 { pkt 1 0 with ep := 2, ident := 9 } (some (7 / 1200)) ∧ Arrives s 2 0 { pkt 2 1 with ep := 1, arg := 3 } (some (7 / 1200)) ∧
      (s.ctx 7 0).mode ≠ .empty ∧ (s.ctx 7 0).jobId = 3 ∧ (s.ctx 7 0).jobGen = 1 ∧ ((s.ctx 7 0).inEp 2).far.isNone = false ∧
      ((s.ctx 7 0).inEp 2).nextSeq = 9 ∧ ((s.ctx 7 0).inEp 2).early = [] ∧ ((s.ctx 7 0).outEp 1).far.isNone = false ∧
      (s.ctx 7 1).mode = .empty ∧ Arrives s 1 1 { pkt 1 0 with ctx := 1 } (some (7 / 1200)) ∧
      ((s.ctx 7 0).inEp 2).far = some (.away 0x011 7 0 1) ∧ s.dieOn (dieOfTile 7) = true ∧ 8 ≤ ((s.ctx 7 0).inEp 2).owed.length) := by
  refine ⟨fun f b h => issues_of ?_, fun s x h h' => ?_, fun s x h h' => ?_, fun s h => ?_, fun s h => ?_⟩
  · fin_cases h <;> decide
  · subst h h'; decide
  · subst h h'; decide
  · subst h; exact ⟨issues_of (by decide), by decide, by decide⟩
  · subst h; unfold Arrives; decide

/-- FAB tag 2 free, or with a transfer of 32 bytes of a kind in flight. -/
def fabAt (f : Nat) (b : BitVec 47) (n : Word) (k : Option XferKind) : State := at7 52 f b { win with
  s := [(4, n)]
  fabs := match k with
    | some k => [(2, { xfer := some { kind := k, aw := 0, am := 0, len := 32, peer := 0x011, open_ := [0] } })]
    | none => [] }

theorem wit_FabTransfers :
    (∀ f b, (f, b) ∈ [(0, fr 2 1 3 4 0), (1, fr 2 1 3 4 0), (4, fr 2 0 0 0 0), (5, fr 7 2 0 0 0), (6, fr 3 2 0 0 0)] →
      Issues (fabAt f b 32 none) 7 0 52 f ⟨0, b⟩) ∧
    (∀ s, s = issued (fabAt 0 (fr 2 1 3 4 0) 32 none) 7 0 →
      ((s.ctx 7 0).fab 2).xfer.isSome = false ∧ s.tagHeld ((s.ctx 7 0).fab 2) = false ∧ (s.ctx 7 0).winOk 0 32 = true ∧
      s.peerOf 7 (s.ctx 7 0) 0 = some 0x011 ∧ s.firstBad (winAddr 7 (s.ctx 7 0) 0) 32 = none) ∧
    (∀ s, s = fabAt 4 (fr 2 0 0 0 0) 32 (some .fabPut) → Issues s 7 0 52 4 ⟨0, fr 2 0 0 0 0⟩ ∧
      (((issued s 7 0).ctx 7 0).fab 2).xfer.isSome = true ∧ s.awaited 7 0 2 0 .fabPut 3 1 = true ∧
      s.awaited 7 0 2 1 .fabPut 3 1 = false ∧ Arrives s 4 1 { pkt 4 1 with b23 := 2 } (some (7 / 1200))) ∧
    (∀ s, s = fabAt 4 (fr 2 0 0 0 0) 32 (some .fabGet) → s.awaited 7 0 2 0 .fabGet 3 1 = true ∧
      Arrives s 6 1 { pkt 6 1 with b23 := 2 } (some (7 / 1200)) ∧
      ((s.ctx 7 0).fab 2).xfer = some { kind := .fabGet, aw := 0, am := 0, len := 32, peer := 0x011, open_ := [0] }) ∧
    (∀ s, s = at7 0 0 0 { fabs := [(2, { xfer := some { kind := .fabPut, aw := 0, am := 0, len := 32 } })] } →
      ((s.ctx 7 0).fab 2).xfer = some { kind := .fabPut, aw := 0, am := 0, len := 32 } ∧ s.dieOn (dieOfTile 7) = true) ∧
    (∀ s, s = { at7 0 0 0 with bands := [(0, { owner := 0 }), (1, { owner := 1 })] } →
      Arrives s 3 0 { pkt 3 0 with payload := [1, 2], len := 2 } (s.partOfAddr 0) ∧ s.jobReach 3 0 2 = true ∧
      Arrives s 3 0 { pkt 3 0 with arg := 0x400000000 } (s.partOfAddr 0x400000000) ∧ s.jobReach 3 0x400000000 2 = false ∧
      Arrives s 5 0 { pkt 5 0 with len := 32 } (s.partOfAddr 0) ∧ s.jobReach 3 0 32 = true ∧ s.firstBad 0 32 = none) := by
  refine ⟨fun f b h => issues_of ?_, fun s h => ?_, fun s h => ?_, fun s h => ?_, fun s h => ?_, fun s h => ?_⟩
  · fin_cases h <;> decide
  · subst h; decide
  · subst h; exact ⟨issues_of (by decide), by decide, by decide, by decide, by unfold Arrives; decide⟩
  · subst h; unfold Arrives; decide
  · subst h; decide
  · subst h; unfold Arrives; decide

theorem wit_SystemInstructions :
    (∀ f b, (f, b) ∈ [(0, fr 3 0 0 0 0), (1, fr 3 0 0 0 0), (2, fi 0 0 31), (3, fi 0 0 2), (4, fi 0 0 1), (5, fr 0 3 0 0 0), (6, fr 3 0 0 0 0),
        (7, fi 0 3 65535), (8, fr 3 0 0 0 0), (9, fr 31 0 0 0 0), (10, fr 0 0 0 0 0), (11, fr 3 0 0 0 0), (12, fr 3 0 0 0 0)] →
      Issues (at7 60 f b) 7 0 60 f ⟨0, b⟩) ∧ ((issued (at7 60 0 (fr 3 0 0 0 0)) 7 0).ctx 7 0).jobId = 3 := by
  refine ⟨fun f b h => issues_of ?_, by decide⟩; fin_cases h <;> decide

/-- A context that has arrived at hurdle 0x123, of level 0, at generation `g`. -/
def hurAt (f : Nat) (b : BitVec 47) (g : Option Byte) (sync : Bool := false) : State := at7 56 f b { win with
  arrived := match g with
    | some g => [(0x123, g)]
    | none => []
  inSync := sync }

theorem wit_HurdleInstructions :
    (∀ f b, (f, b) ∈ [(0, fi 0 0 0x123), (1, fi 0 0 0x123), (2, fi 0 0 0x123), (3, fi 3 0 0x123)] → ∀ g ∈ [none, some (255 : Byte)],
      Issues (hurAt f b g) 7 0 56 f ⟨0, b⟩) ∧
    (∀ s x, s = issued (hurAt 0 (fi 0 0 0x123) none) 7 0 → x = s.ctx 7 0 → (s.planOf 7 x 0x123).isSome = true ∧
      (x.arrived.any fun a => decide (a.1 = 0x123)) = false ∧ x.arrivedAt 0x123 = none ∧ (s.planOf 7 x 0x126).isSome = false) ∧
    (∀ s x, s = issued (hurAt 1 (fi 0 0 0x123) (some 0)) 7 0 → x = s.ctx 7 0 →
      x.arrivedAt 0x123 = some 0 ∧ s.genNow 7 x 0x123 = 0) ∧
    (∀ s x, s = issued (hurAt 1 (fi 0 0 0x123) (some 255)) 7 0 → x = s.ctx 7 0 →
      x.arrivedAt 0x123 = some 255 ∧ s.genNow 7 x 0x123 ≠ 255) ∧
    (∀ s u, s = issued (hurAt 2 (fi 0 0 0x123) none) 7 0 → u = ((s.plainJoin 7 0 0x123).arriveAt 7 0 0x123
        (writeTags (s.ctx 7 0).mems) (writeTags (s.ctx 7 0).fabs)).updCtx 7 0 (fun y => { y with inSync := true }) →
      (s.ctx 7 0).inSync = false ∧ (u.ctx 7 0).arrivedAt 0x123 = some 0 ∧ u.genNow 7 (u.ctx 7 0) 0x123 = 0) ∧
    (∀ s u, s = issued { hurAt 2 (fi 0 0 0x123) none with
          tiles := [(7, { hurJob := (3, 1), hurs := [(0x123, { gen := 4, count := 1 })] })] } 7 0 →
        u = ((s.plainJoin 7 0 0x123).arriveAt 7 0 0x123
          (writeTags (s.ctx 7 0).mems) (writeTags (s.ctx 7 0).fabs)).updCtx 7 0 (fun y => { y with inSync := true }) →
      (u.ctx 7 0).arrivedAt 0x123 = some 4 ∧ u.genNow 7 (u.ctx 7 0) 0x123 ≠ 4) ∧
    (∀ s x, s = issued (hurAt 2 (fi 0 0 0x123) (some 255) true) 7 0 → x = s.ctx 7 0 →
      x.inSync = true ∧ x.arrivedAt 0x123 = some 255 ∧ s.genNow 7 x 0x123 ≠ 255) := by
  refine ⟨fun f b h g hg => issues_of ?_, fun s x h h' => ?_, fun s x h h' => ?_, fun s x h h' => ?_, fun s x h h' => ?_,
    fun s x h h' => ?_, fun s x h h' => ?_⟩
  · fin_cases hg <;> fin_cases h <;> decide
  all_goals subst h h'; decide

/-- Job 3 in slot 0 with hurdle 0x123 of two local members, at generation 0 with `x` counted. -/
def hurJob (x : Hur) (rec : HurRec := { id := 0x123, level := 2, commit := false, post := false, members := 2, children := 0, parent := 0xFFFF }) :
    State := { up with
  images := [{ part := 0, chainId := 5, jobId := 3, jobGen := 1, flags := 1, peers := [0x011], ctxs := [], hurs := [rec] }]
  partJob := [(0, 3)]
  jobs := [(0, { jobId := 3, jobGen := 1, valid := true, row := 41, hasRow := true, hurs := [(0x123, x)] })] }

theorem wit_HurdleUnit :
    (∀ s, s = { up with ctxs := [(28, { mode := .running, heldArr := [(0x123, 0, [], [])] })] } →
      (s.ctx 7 0).heldArr.find? (fun a => decide (a.1 = 0x123)) = some (0x123, 0, [], []) ∧ s.dieOn (dieOfTile 7) = true) ∧
    (∀ s, ∀ g ∈ [0, 5], s = { hurJob { local_ := 1 } with dies := [(0, { arrMsgs := [{ jobId := 3, jobGen := 1, hur := 0x123, hurGen := g, count := 1 }] })] } →
      (s.die 0).arrMsgs = [{ jobId := 3, jobGen := 1, hur := 0x123, hurGen := g, count := 1 }] ∧ s.pwr.transit = true ∧
      (s.updDie 0 fun d => { d with arrMsgs := [] }).slotOfJob 3 = some 0 ∧
      ((s.updDie 0 fun d => { d with arrMsgs := [] }).job 0).jobGen = 1 ∧
      (((s.updDie 0 fun d => { d with arrMsgs := [] }).job 0).hur 0x123).gen = 0) ∧
    (∀ s, s = hurJob { local_ := 1 } → Arrives s 0x09 0 { pkt 9 3 with ident := 0x123 } none ∧ s.slotOfJob 3 = some 0 ∧
      ((s.job 0).hur 0x123).gen = 0 ∧ Arrives s 0x0A 0 { pkt 10 3 with ident := 0x123 } none ∧ s.slotRecs 0 0x123 ≠ []) ∧
    (∀ s, s = { hurJob { local_ := 1, openSince := some 5 } with tb := 100000005 } → s.pwr.transit = true ∧ (s.job 0).valid = true ∧
      s.hurTimeout ≠ 0 ∧ ((s.job 0).hur 0x123).timedOut = false ∧ ((s.job 0).hur 0x123).openSince = some 5 ∧
      s.passed 5 s.hurTimeout.toNat = true) ∧
    (up.pwr.transit = true ∧ ∀ j < 8, (up.job j).valid = false) ∧
    (∀ s, s = { hurJob { local_ := 2, complete := true, lastRelease := some 5 } with tb := 1605 } → s.pwr.transit = true ∧
      (s.job 0).valid = true ∧ ((s.job 0).hur 0x123).complete = true ∧ hurParent (s.slotRecs 0 0x123) = none ∧
      hurFull (s.slotRecs 0 0x123) ((s.job 0).hur 0x123) = true ∧ s.releaseHeld ((s.job 0).hur 0x123) = false) ∧
    (∀ s c, s = hurJob { local_ := 2 } { id := 0x123, level := 2, commit := c, post := false, members := 2, children := 0, parent := 0xFFFF } →
      tabWf (fun _ => ({} : Job)) s.jobs = true ∧ tabWf (fun _ => ({} : Hur)) (s.job 0).hurs = true ∧
      (s.slotRecs 0 0x123).any (fun r => r.2.commit) = c) := by
  refine ⟨fun s h => ?_, fun s g hg h => ?_, fun s h => ?_, fun s h => ?_, by decide, fun s h => ?_, fun s c h => ?_⟩
  · subst h; decide
  · fin_cases hg <;> subst h <;> decide
  · subst h; unfold Arrives; decide
  · subst h; decide
  · subst h; decide
  · subst h; cases c <;> decide

/-- The reduction of hurdle 0x123 with one contribution of 256 bytes by this module's only member. -/
def redAt (parent : Nat) : State := { hurJob {} { id := 0x123, level := 2, commit := false, post := false, members := 1, children := 0, parent := parent } with
  jobs := [(0, {
    jobId := 3, jobGen := 1, valid := true, reduction := true,
    reds := [(redKey 0x123 0, { contribs := [{ tile := 7, ctx := 0, child := none, op := 0, f := 0, len := 256, data := [1, 2] }] })] })] }

theorem wit_Reductions :
    (∀ s s1 s2 x, s = at7 52 2 (fr 2 1 3 4 0x124) { win with s := [(4, 512)] } → s1 = issued s 7 0 →
      s2 = s1.updCtx 7 0 (fun x => (x.redWaited 2).setFab 2 { (x.redWaited 2).fab 2 with holdFrom := none }) → x = s2.ctx 7 0 →
      Issues s 7 0 52 2 ⟨0, fr 2 1 3 4 0x124⟩ ∧ ((s1.ctx 7 0).fab 2).xfer.isSome = false ∧
      s1.tagHeld ((s1.ctx 7 0).fab 2) = false ∧ s2.badArrival 7 x 0x124 = false ∧
      (s2.planOf 7 x 0x124).any (fun r => decide (r.level = 2)) = true ∧ (x.getS 4).toNat % 2 ^ 32 / 256 * 256 = 512 ∧
      (s2.imageOf 7 x).any (fun i => i.flags.getLsbD 0) = true ∧ x.winOk 0 512 = true ∧ s2.slotOfJob x.jobId = some 0 ∧
      s2.firstBad (winAddr 7 x 0) 512 = none) ∧
    (∀ s, s = redAt 0xFFFF → s.pwr.transit = true ∧ hurParent (s.slotRecs 0 0x123) = none ∧
      (((s.job 0).reds.find? (fun e => decide (e.1 / 256 = 0x123) && chunkReady (s.slotRecs 0 0x123) e.2 0)).map
        (fun e => (e.1, e.2.contribs.length))) = some (redKey 0x123 0, 1)) ∧
    (∀ s, s = hurJob {} → Arrives s 0x07 0 { pkt 7 2 with ident := 0x123, arg := redArg 0 3 0 0 0 0 } none ∧
      s.slotOfJob 3 = some 0 ∧ redPktStatus { pkt 7 2 with arg := redArg 0 3 0 0 0 0 } = 0 ∧ bitsAt (redArg 0 3 0 0 0 0).toNat 8 2 = 3 ∧
      (tabGet (fun _ => ({} : Hur)) (s.job 0).hurs 0x123).gen = 0 ∧
      (s.red 0 (redKey 0x123 0)).contribs.any (fun x => decide (x.child = some 0x011)) = false ∧
      Arrives s 0x08 1 { pkt 8 2 with ident := 0x123, arg := redArg 0 1 1 0 256 0, payload := [1, 2], len := 2 } none ∧
      redPktStatus { pkt 8 2 with arg := redArg 0 1 1 0 256 0 } = 0) := by
  refine ⟨fun s s1 s2 x h h1 h2 hx => ?_, fun s h => ?_, fun s h => ?_⟩
  · subst hx h2 h1 h; exact ⟨issues_of (by decide), by decide⟩
  · subst h; decide
  · subst h; unfold Arrives; decide

theorem wit_TilesAndRowMaps :
    (∀ s, s = { at7 0 0 0 with ctxs := [(28, { mode := .waiting, waitCause := 4 })] } →
      s.dieOn (dieOfTile 7) = true ∧ s.pwr.mode ≠ 3 ∧ (s.ctx 7 0).mode = .waiting ∧ (s.tile 7).failed = false ∧ s.canGo 7 0 = true) ∧
    (∀ s, s = { at7 0 0 0 with faultRecs := [{
        tile := 7, ctx := 0, code := 5, pc := 9, word := 1, jobId := 3, jobGen := 1, hurId := 0, hurGen := 0, row := 2, tb := 3 }] } →
      s.faultRecs ≠ [] ∧ s.pwr.aux = true ∧ s.cast.hold ≠ 1) ∧
    (∀ s, s = { at7 0 0 0 { fabs := [(2, { holdFrom := some 5 })] } with tb := 400005 } → ((s.ctx 7 0).fab 2).holdFrom.isSome = true ∧
      s.tagHeld ((s.ctx 7 0).fab 2) = false ∧ (s.ctx 7 0).mode = .running ∧ tabWf (fun _ => ({} : Ctx)) s.ctxs = true) ∧
    (up.pwr.aux = true ∧ up.cast.hold ≠ 1 ∧ up.dieOn 0 = true ∧ up.rowEmpty 0 0 = true ∧ (at7 0 0 0).rowEmpty 0 0 = false) ∧
    (∀ s, s = { up with dies := [(39, { pendingMap := [(15, some { healthy := true })] })] } →
      s.dieOn 39 = true ∧ s.pendingOf 39 15 = some { healthy := true } ∧ s.rowEmpty 39 15 = true) := by
  refine ⟨fun s h => ?_, fun s h => ?_, fun s h => ?_, by decide, fun s h => ?_⟩ <;> subst h <;> decide

/-- A command block: opcode, tag 9, then the bytes from offset 8. -/
def blk (op : Byte) (l : List Byte) : Block := [op, 0, 9, 0, 0, 0, 0, 0] ++ l ++ List.replicate (56 - l.length) 0
/-- `s` with that one command fetched on ring `r`. -/
def cmd (s : State) (r : Nat) (b : Block) : State := { s with rings := [(r, { enable := true, fetched := [{ block := b }] })] }
/-- `s` not ready, its cast-on running in stage `st`. -/
def busyAt (s : State) (st : BitVec 4) : State := { s with cast := { s.cast with running := true, ready := false, stage := st } }

theorem starts_of {s : State} {r op : Nat} {b : Block} (h : (s.pwr.aux && s.readyFor r && decide (blkOp b = op) &&
    decide ((nextCmd (s.ring r).fetched true).map (·.block) = some b)) = true) : Starts s r op b := by
  simp only [Bool.and_eq_true, decide_eq_true_eq, Option.map_eq_some_iff] at h
  exact ⟨h.1.1.1, h.1.1.2, h.1.2, h.2⟩
theorem early_of {s : State} {r op : Nat} {b : Block} (h : (s.pwr.aux && decide (blkOp b = op) &&
    decide ((nextCmd (s.ring r).fetched true).map (·.block) = some b)) = true) : StartsEarly s r op b := by
  simp only [Bool.and_eq_true, decide_eq_true_eq, Option.map_eq_some_iff] at h
  exact ⟨h.1.1, h.1.2, h.2⟩

/-- A chain image of ID 5: one word of code for context 0 of tile 7, no channel, no hurdle. -/
def img : List Byte :=
  let sect := fun (ty off len n : Nat) => leBytes 2 ty ++ leBytes 2 0 ++ leBytes 4 off ++ leBytes 4 len ++ leBytes 4 n
  let body := sect 1 128 8 1 ++ sect 2 136 32 1 ++ sect 3 168 0 0 ++ sect 4 168 0 0 ++
    leBytes 8 0x0004800000000000 ++ (leBytes 2 7 ++ [0, 0] ++ leBytes 2 0 ++ leBytes 2 1 ++ leBytes 4 0 ++ leBytes 4 0 ++
      leBytes 4 256 ++ leBytes 8 1 ++ leBytes 4 0)
  let h : List Byte := leBytes 4 0x48435847 ++ leBytes 2 1 ++ leBytes 2 0 ++ leBytes 2 5 ++ leBytes 2 4 ++ leBytes 4 168 ++ leBytes 4 0 ++
    leBytes 4 1 ++ shake body 32 ++ leBytes 4 0
  h ++ leBytes 4 (crc32c h).toNat ++ body

theorem wit_ChainCommands :
    (∀ s, s = cmd up 0 (blk 1 (leBytes 8 0 ++ leBytes 4 168 ++ leBytes 4 0 ++ leBytes 2 3 ++ [1] ++ List.replicate 13 0 ++ leBytes 2 1)) →
      Starts s 0 0x01 (blk 1 (leBytes 8 0 ++ leBytes 4 168 ++ leBytes 4 0 ++ leBytes 2 3 ++ [1] ++ List.replicate 13 0 ++ leBytes 2 1)) ∧
      (((started s 0).flushWhere fun _ => true).applyDue 0).loadFault 0 3 (sliceB img 0 168) 1 = none ∧
      (((started s 0).flushWhere fun _ => true).applyDue 0).loadFault 0 3 (sliceB img 0 167) 1 = some (2, stBadImage)) ∧
    (∀ s c, s = cmd { at7 0 0 0 with
          ctxs := [(28, { mode := .loaded, chainId := 5, jobId := 3, jobGen := 1, istoreLen := 64 })]
          images := [] } 0 c → c = blk 2 (leBytes 2 5 ++ leBytes 2 3 ++ [1, 1] ++ leBytes 2 0 ++ leBytes 8 41) →
      Starts s 0 0x02 c ∧ s.gate.merge = [] ∧ (started s 0).shep.penned = false ∧ (started s 0).jobHeld 3 1 = false ∧ (started s 0).slotOfJob 3 = some 0 ∧ ((started s 0).job 0).jobGen = 1 ∧
      ((started s 0).chainCtxs 0 5).filter (fun e => decide (((started s 0).ctx e.1 e.2).mode = .loaded) &&
        ((started s 0).ctx e.1 e.2).sameJob 3 1) ≠ [] ∧ (started s 0).adaptiveOk 3 = true ∧ ((started s 0).ckptJob 0).state ≠ 4 ∧
      ((started s 0).job 0).row = 41 ∧ (nth c 13 0).getLsbD 0 = true) ∧
    Starts (cmd up 0 (blk 3 [5, 0])) 0 0x03 (blk 3 [5, 0]) ∧
    (∀ s, s = cmd { at7 0 0 0 with ctxs := [(28, { mode := .stopped, chainId := 5 })] } 0 (blk 4 [5, 0]) →
      Starts s 0 0x04 (blk 4 [5, 0]) ∧ (s.ring 0).fetched.find? (fun c => c.started && decide (blkOp c.block = 0x04)) = none ∧
      (∀ e ∈ (started s 0).chainCtxs 0 5, ((started s 0).ctx e.1 e.2).mode = .loaded ∨ ((started s 0).ctx e.1 e.2).mode = .stopped ∨
        ((started s 0).ctx e.1 e.2).mode = .done) ∧ (∀ e ∈ (started s 0).chainCtxs 0 5, ((started s 0).ctx e.1 e.2).flying = false)) := by
  refine ⟨fun s h => ?_, fun s c h hc => ?_, starts_of (by decide), fun s h => ?_⟩
  · subst h; refine ⟨starts_of (by decide), ?_⟩; decide +kernel
  · subst hc h; exact ⟨starts_of (by decide), by decide⟩
  · subst h; exact ⟨starts_of (by decide), by decide⟩

theorem wit_MemoryProtection :
    (∀ l ∈ [[], [3], [3, 4]], ∀ s, s = up.setFlips (sliceAddr 0) l → s.dieOn (dieOfTile 0) = true ∧
      tabGet (fun _ => false) s.bad (sliceAddr 0) = false ∧ s.flips (sliceAddr 0) = l) ∧
    (∀ s, s = { up with dies := [(0, { scrubRow := [(storeRowKey 15 14 15 1023, 8)] })] } →
      8 ≤ tabGet (fun _ => 0) (s.die 0).scrubRow (storeRowKey 15 14 15 1023) ∧
      s.flash.settings.fieldRepair.contains (Repair.storeRow 0 15 14 15 1023) = false) ∧
    (∀ s, s = { up with bands := [(0, { owner := 0 }), (1, { owner := 8 })] } → bandOf 0x400000000 = some 1 ∧ s.pwr.memory = true ∧
      (s.band 1).owner.toNat ≤ 8 ∧ (s.band 0).owner.toNat ≤ 8 ∧ (s.band 1).busy = false ∧ (s.md 0).selfRefresh = false ∧
      (s.linkFixed 0 2).unitBad 0 = false ∧ ((s.setFlips 0 [0, 256, 512]).linkFixed 0 2).unitBad 0 = true ∧
      508 % 512 + [1, 2, 3, 4].length ≤ 512 ∧ (s.md 0).scrubEnable = true ∧ (s.md 0).scrubLine + 1 < 20 * 0x400000000 / 512 ∧
      s.bandAccept false 2 5 = true ∧ (5 : BitVec 4) ≠ (s.band 2).owner ∧ s.bandAccept true 2 5 = false) ∧
    (∀ s, s = { up with pwr := { up.pwr with mode := 3 }, mds := [(0, { twinTraffic := some 0 })] } →
      (s.md 0).twinTraffic = some 0 ∧ s.pwr.memory = true ∧ s.pwr.mode = 3 ∧ s.passed 0 100000 = true) ∧
    (∀ s, s = { at7 0 0 0 with ueReports := [{ addr := 64, source := 1, owner := 0, tb := 3 }] } →
      s.ueReports = [{ addr := 64, source := 1, owner := 0, tb := 3 }] ∧ s.pwr.aux = true ∧ s.slotOfPart 0 = some 0) ∧
    (∀ s, s = { up with bands := [(0, { owner := 0 })], gate := { up.gate with bar2Mask := 1 } } →
      s.pwr.aux = true ∧ s.gate.sig.perstN = true ∧ s.cast.hold ≠ 1 ∧ s.ideBlocked = false ∧ 508 + 4 ≤ s.bar2Size ∧ s.gate.merge = [] ∧
      reachAll s.bar2Byte (s.bar2Addr 508) 4 = true ∧ s.firstBad (s.bar2Addr 508) 4 = none ∧ s.bar2Addr 508 < 0x100000000000) ∧
    (∀ s, s = up → reachAll s.bar2Byte (s.bar2Addr 0) 4 = false ∧ s.pwr.aux = true ∧ s.gate.sig.perstN = true ∧ s.ideBlocked = false) ∧
    (∀ s, s = { up with gate := { up.gate with bar2Slices := true, bar2Base := 0x100000000000, bar2Mask := 1 } } →
      reachAll s.bar2Byte (s.bar2Addr 0) 32 = true ∧ 0x100000000000 ≤ s.bar2Addr 0 ∧
      (s.writeRange (s.bar2Addr 0) (List.replicate 32 7) 3).2 = true) := by
  refine ⟨fun l hl s h => ?_, fun s h => ?_, fun s h => ?_, fun s h => ?_, fun s h => ?_, fun s h => ?_, fun s h => ?_, fun s h => ?_⟩
  · fin_cases hl <;> subst h <;> decide +kernel
  all_goals subst h; decide

/-- What R133 makes of errors: channel 17 alone, channel 17 beside an erased one, three erased. -/
theorem wit_DecodeLine : (∀ b ∈ [17 * 256, 17 * 256 + 255], b / 256 = 17) ∧ decodeLine 0 [17 * 256, 17 * 256 + 255] = .corrected 17 ∧
    decodeLine (1 <<< 3) [17 * 256] = .uncorrectable ∧ (erasedList (0b101 : BitVec 18)).length = 2 ∧
    3 ≤ (erasedList (0b111 : BitVec 18)).length := by decide +kernel

theorem wit_MemoryReadsBack : Memory.wf State.reset = true ∧ Memory.wf { up with mem := [(3, 7)] } = true ∧
    ∀ u ∈ unitsOf 0x10000000000F 18, up.unitBad u = false := by decide

/-- One link of fabric die `fd`. -/
def linkAt (fd k : Nat) (l : Link) : State := { up with tb := 5000000, links := [(176 * fd + k, l)] }
/-- One lane of skein `q` in a state, trained since tick 0, its slot 2 expected to come from skein 9 of module 0x033. -/
def laneAt (q j : Nat) (st : BitVec 4) : State := { up with
  tb := 5000000, olanes := [(4 * q + j, { state := st, rxSlot := 2 })]
  slotInfo := [(8 * q + 2, { coord := 0x033, remoteSkein := 9, valid := true, expectCoord := some (0x033, 9) })] }

theorem one_ne {n : Nat} (x : BitVec (n + 1)) : x + 1 ≠ x := by intro e; have := congrArg (· - x) e; simp at this

theorem wit_FlitsAndLinks :
    (∀ fd ∈ [0, 1], ∀ k ∈ [0, 175], ∀ s, s = linkAt fd k { state := 2, lanes := [0], expected := 0xFFF } →
      s.pwr.transit = true ∧ (s.link fd k).live = true ∧ (s.link fd k).state = 2 ∧ (s.link fd k).member = false ∧
      (((0xFFF : BitVec 12) - (s.link fd k).expected).toNat = 0 ∧ ((5 : BitVec 12) - (s.link fd k).expected).toNat = 6 ∧
        2048 ≤ ((0x800 : BitVec 12) - (s.link fd k).expected).toNat)) ∧
    (∀ s, s = linkAt 0 3 {
        state := 2, unacked := 1, unackedSince := 4999980, ackProgress := 4000000
        replay := [{ seq := 0, data := { vc := 0, sop := true, eop := true, payload := [] } }] } → (s.link 0 3).live = true ∧ 0 < (s.link 0 3).unacked ∧
      s.passed (s.link 0 3).unackedSince 20 = true ∧ (s.link 0 3).replay ≠ [] ∧ s.passed (s.link 0 3).ackProgress 1000000 = true) ∧
    (∀ s, s = linkAt 0 3 { state := 3, downSince := some 4000000 } → (s.link 0 3).downSince = some 4000000 ∧
      s.passed 4000000 1000000 = true ∧ (s.link 0 3).state ≠ 5 ∧ (s.link 0 3).state ≠ 0 ∧ (s.link 0 3).state ≠ 2) ∧
    (∀ s, s = linkAt 0 44 { state := 2, lanes := List.range 16 } →
      (s.link 0 (s.linkOfLane 0 191)).lanes.contains (191 % 16) = true) ∧
    (∀ s, s = laneAt 63 3 5 → (s.olane (32 * 1 + 127 / 4) (127 % 4)).state = 5) ∧
    (∀ s, s = laneAt 63 3 4 → (s.olane (32 * 1 + (175 - 48) / 4) ((175 - 48) % 4)).state = 4 ∧ s.pwr.transit = true ∧
      s.passed (s.olane (32 * 1 + (175 - 48) / 4) ((175 - 48) % 4)).trainSince 300000 = true) ∧
    -- flits whose CRC holds, of each type, and one whose CRC does not
    (∀ (d : Option FlitData) (ty : BitVec 4), ∃ h : FlitHdr, h.type = ty ∧ h.crc = flitCrc h d ∧ h.fecUncorr = 0) ∧
    (∀ d : Option FlitData, ∃ h : FlitHdr, h.crc ≠ flitCrc h d) := by
  refine ⟨fun fd hf k hk s h => ?_, fun s h => ?_, fun s h => ?_, fun s h => ?_, fun s h => ?_, fun s h => ?_,
    fun d ty => ⟨sealFlit { type := ty } d, rfl, (of_decide_eq_true (flitGood_seal { type := ty } d rfl)).1, rfl⟩,
    fun d => ⟨{ crc := flitCrc {} d + 1 }, fun e => one_ne _ e⟩⟩
  · fin_cases hf <;> fin_cases hk <;> subst h <;> decide
  all_goals subst h; decide

theorem wit_IdentityAndKeepalives :
    (∀ s, s = laneAt 63 3 4 → (s.olane (32 * 1 + 127 / 4) (127 % 4)).state = 4 ∧ s.expected 63 3 = some (0x033, 9) ∧
      s.expected 63 3 ≠ some (0x034, 9) ∧ (some (s.shep.coord, BitVec.ofNat 6 63) : Option (Coord × BitVec 6)) = some (0x010, 63) ∧
      s.underTest 1 (192 + 127) = false) ∧
    (∀ s, s = linkAt 1 5 { state := 2, lastCtlTx := 4990000, lastCtlRx := 4900000 } → (s.link 1 5).state = 2 ∧
      (s.link 1 5).member = false ∧ s.shep.hard = false ∧ s.passed (s.link 1 5).lastCtlTx 10000 = true ∧ (s.link 1 5).live = true ∧
      (s.link 1 5).fenced = false ∧ (s.fab 1).fenced 0x011 = false ∧ ((s.link 1 5).aliveRx.hear 200).2 = .accepted 0 ∧
      (s.link 1 5).drainReason = 0 ∧ (s.link 1 5).retrainTx = false ∧ (s.link 1 5).retrainRx = false ∧ (s.link 1 5).silent = false ∧
      s.passed (s.link 1 5).lastCtlRx 100000 = true ∧ s.pwr.aux = true ∧ s.cast.hold ≠ 1 ∧ s.shep.hasCoord = true ∧
      s.shep.admits.any (fun a => decide (a.coord = 0x011)) = false) ∧
    (∀ s, s = linkAt 1 5 { state := 2, fenced := true } → (s.link 1 5).live = true ∧ (s.link 1 5).fenced = true) := by
  refine ⟨fun s h => ?_, fun s h => ?_, fun s h => ?_⟩ <;> subst h <;> decide

/-- Distances 0, 1, 3 and 4 from the last counter across the wrap, and 0, 1, 3 and 4 from the candidate. -/
theorem wit_AliveCounterRule : (∀ n ∈ [(254 : Byte), 255, 1, 2], 0 ≤ (n - 254).toNat ∧ (n - 254).toNat ≤ 4) ∧
    (∀ c ∈ [(100 : Byte), 99, 97, 96], 4 ≤ ((100 : Byte) - 254).toNat ∧ ((100 : Byte) - c).toNat ≤ 4) := by decide

theorem wit_RoutingAndFences :
    (∀ s, s = linkAt 0 5 { state := 2 } → (s.link 0 5).live = true ∧ (s.link 0 5).fenced = false ∧ s.pwr.transit = true ∧
      s.pwr.aux = true ∧ s.cast.hold ≠ 1 ∧ s.coordHeld 0x033 = false ∧ s.penTime 0x033 = none ∧ (s.link 0 5).penFence = false) ∧
    (∀ s, s = linkAt 0 5 { state := 2, fenced := true } → (s.link 0 5).fenced = true ∧ s.ownProbe (pkt 3 0) = false) ∧
    (∀ s, s = { up with tb := 500000, shep := { up.shep with penHold := [(0x033, 499999), (0x034, 0)], admits := [{ coord := 0x034, prev := 0x7FF, digest := 5, ready := true }] } } →
      s.coordHeld 0x033 = true ∧ (s.penTime 0x034).isSome = true ∧ s.coordHeld 0x034 = false ∧ s.admittedReady 0x034 = true ∧
      s.shep.admits.any (fun a => decide (a.coord = 0x034) && a.ready) = true) ∧
    (∀ s, s = fabAt 0 0 32 (some .fabPut) → Arrives s 0x0E 0 { pkt 14 3 with b23 := 2, arg := 0x0300 } none ∧
      (0x0300 : Word).extractLsb' 8 8 = (0x03 : Byte) ∧ s.awaited 7 0 2 0 .fabPut 3 1 = true ∧
      Arrives s 0x10 1 (pkt 16 3) none ∧ s.isMine 0x011 = false ∧ s.dieOn (dieOfTile 7) = true ∧ (s.tile 7).failed = false ∧
      s.tileAbsent 7 = false ∧ Arrives s 0x11 0 (pkt 17 3) none) := by
  refine ⟨fun s h => ?_, fun s h => ?_, fun s h => ?_, fun s h => ?_⟩
  · subst h; decide
  · subst h; decide
  · subst h; decide
  · subst h; unfold Arrives; decide

theorem wit_CombSources :
    (∀ s, s = { up with ecs := [(3, { present := true, outputOn := true, fails := 2 })] } →
      (s.ecsOf 3).present = true ∧ (s.ecsOf 3).outputOn = true ∧ s.pwr.aux = true ∧ s.removable 3 = false) ∧
    (∀ s, s = { up with skeins := (List.range 16).map (fun i => (i, { secondary := true })) } → s.removable 0 = true ∧
      s.fibresWhole 0 = true) ∧
    (∀ s, s = { up with skeins := (List.range 16).map (fun i => (i, { secondary := true, feedPri := 0xF000 })) } →
      s.removable 0 = true ∧ s.fibresWhole 0 = false) := by
  refine ⟨fun s h => ?_, fun s h => ?_, fun s h => ?_⟩ <;> subst h <;> decide

/-- One skein. -/
def skeinAt (q : Nat) (k : Skein) : State := { up with
  tb := 100000000000, skeins := [(q, k)]
  flash := { up.flash with settings := { up.flash.settings with refs := [(2 * q + 1, { tap := some 0 })] } } }

theorem wit_SkeinsAndFade :
    (up.pwr.aux = true ∧ up.cast.hold ≠ 1 ∧ up.pwr.transit = true ∧ up.flash.owned = true) ∧
    (∀ s, s = skeinAt 63 { quiesced := true, darkOver := 256 } → (s.skein 63).quiesced = true ∧ (s.skein 63).switching = false ∧
      s.movesOn 63 = false ∧ 256 ≤ (s.skein 63).darkOver ∧ (s.skein 63).darkArmed = true) ∧
    (∀ s, s = { skeinAt 63 { schedSince := some 5 } with
          olanes := [(252, { state := 5 })]
          links := [(176 + 48 + 124, { state := 2, lanes := [124] })]
          fabs := [(1, { routes := [(0x011, { choices := [(172, 1)], valid := true })] })]
          images := [{ part := 0, chainId := 5, jobId := 3, jobGen := 0, flags := 1, peers := [0x011], ctxs := [], hurs := [
            { id := 0x125, level := 1, commit := true, post := false, members := 1, children := 0, parent := 0 }] }]
          jobs := [(0, { jobId := 3, valid := true })]
          twin := { up.twin with jobs := [(0, { state := 1 })] } } →
      (s.skein 63).schedSince = some 5 ∧ s.maySwitch 63 = true ∧ s.movesOn 63 = false ∧ s.commitHolds 63 = true ∧ s.passed 5 90000000000 = true) ∧
    (∀ s, s = skeinAt 63 { fade := 3 } → (s.skein 63).fade = 3 ∧ s.maySwitch 63 = true ∧ (s.skein 63).lastImmediate = none ∧
      (s.skein 63).secondary = false ∧ s.feedFit 63 true = true) ∧
    (∀ s, s = skeinAt 63 { fade := 3, lastImmediate := some 99999999999 } → (s.skein 63).lastImmediate = some 99999999999 ∧
      s.maySwitch 63 = true ∧ (s.skein 63).fade = 3 ∧
      s.passed 99999999999 60000000000 = false) ∧
    (∀ s, s = skeinAt 63 { secondary := true, primaryFitSince := some 5 } → (s.skein 63).primaryFitSince = some 5 ∧
      (s.skein 63).secondary = true ∧ (s.skein 63).schedSince = none ∧ s.passed 5 60000000000 = true) ∧
    -- the levels of R216 at their bounds
    ((-300 : Int) ≤ -300 ∧ (-300 : Int) < -299 ∧ (-200 : Int) ≤ -200 ∧ 3 * 100 ≤ 2 * 150 ∧ (-200 : Int) < -199 ∧ 24 < 25 ∧
      2 * 149 < 3 * 100 ∧ 5 * 100 ≤ 4 * 125 ∧ (-100 : Int) < -99 ∧ 4 * 124 < 5 * 100) := by
  refine ⟨by decide, fun s h => ?_, fun s h => ?_, fun s h => ?_, fun s h => ?_, fun s h => ?_, by decide⟩ <;>
    subst h <;> decide

/-- One element of engine 3, index `e`, on a bus with a valid slot 2. -/
def elemAt (e : Nat) (x : Elem) : State := { up with
  elems := [(elemKey 3 e, x)]
  slotInfo := (List.range 64).map (fun q => (8 * q + 2, { coord := 0x033, remoteSkein := 9, valid := true })) }
/-- Gauge values with room for every move. -/
def gauged (m : ElemMode) (r : Option Run) (l : BitVec 4 := 1) : Elem := {
  mode := m, run := r, slot := l, liveLines := List.replicate 8 0x2000, livePark := 0x1000
  liveRow := List.replicate 8 0 }
def moving (p : MovePhase) : Run := { phase := p, target := some 2, from_ := 0, to_ := 0x2000 }

theorem wit_ElementCommands :
    (∀ s, s = { elemAt 4 { gauged .track none with cmdAt := some 9 } with engines := [(3, { crookRunning := true, period := 9 })] } →
      (s.engine 3).crookRunning = true ∧ (s.elem 3 4).cmdAt = some (s.engine 3).period ∧ (s.engine 3).railHeld = false) ∧
    (∀ s, s = { elemAt 4 (gauged .track none) with engines := [(3, { crookRunning := true, period := 9 })] } →
      (s.elem 3 4).cmdAt ≠ some (s.engine 3).period) ∧
    (∀ s m, s = elemAt 4 (gauged .track none) → m = s.elem 3 4 → s.pwr.transit = true ∧ (s.engine 3).railHeld = false ∧ (s.engine 3).crookRunning = false ∧
      elemIsSel 4 = false ∧ m.run.isNone = true ∧ m.mode = .track ∧ s.moveRefusal 3 4 (some 2) [] [] = none ∧
      s.moveRefusal 3 4 (some 7) [] [] = some 4 ∧ s.moveRefusal 3 4 none [] [] = none ∧ s.servesNow 3 4 = false ∧
      m.faulted = false ∧ (s.engine 3).blanked = false) ∧
    (∀ s, s = elemAt 4 (gauged .move (some (moving .out))) → (s.elem 3 4).run.isSome = true) ∧
    (∀ s, s = elemAt 4 (gauged .park none) → (s.elem 3 4).mode = .park ∧ (s.elem 3 4).run.isNone = true ∧
      s.moveRefusal 3 4 (some 2) [] [] = none) ∧
    (∀ s, s = elemAt 4 (gauged .hold none) → (s.elem 3 4).mode = .hold ∧ (s.elem 3 4).slot.toNat < 8) ∧
    (∀ s, s = elemAt 175 { gauged .hold none with queued := some { cmd := 7, slot := 1, lane := 0 } } → elemIsSel 175 = true ∧
      (s.elem 3 175).run = none ∧ (s.elem 3 175).mode ≠ .park ∧ (s.elem 3 175).queued = some { cmd := 7, slot := 1, lane := 0 }) ∧
    (∀ s, s = elemAt 4 { gauged .track none with queued := some { cmd := 1, slot := 2, lane := 0 } } → elemIsSel 4 = false ∧
      s.selBusy 3 4 = false ∧ (s.elem 3 4).run = none ∧ (s.elem 3 4).queued = some { cmd := 1, slot := 2, lane := 0 }) := by
  refine ⟨fun s h => by subst h; decide, fun s h => by subst h; decide, fun s m h h' => ?_, fun s h => ?_, fun s h => ?_, fun s h => ?_, fun s h => ?_,
    fun s h => ?_⟩
  · subst h' h; decide
  all_goals subst h; decide

/-- Engine 3. -/
def engAt (g : Engine) (x : Elem := {}) : State := { elemAt 5 x with engines := [(3, g)] }

theorem wit_CrookSupervision :
    (∀ s, s = engAt { crookRunning := true, gaugeOk := true, run := true, railOut := 16, period := 512 } → (s.engine 3).crookRunning = true ∧
      (s.engine 3).gaugeOk = true ∧ (s.engine 3).run = true ∧ (s.engine 3).lastMiss = none ∧ 16 ≤ (s.engine 3).railOut ∧
      (s.engine 3).railActed = false ∧ (s.engine 3).period.toNat % 256 = 0 ∧ (s.engine 3).coefQ.length < 16 ∧ s.pwr.transit = true) ∧
    (∀ s r, r = { moving .evaluating with proposals := List.replicate 4 0x3000 } → s = engAt {} (gauged .move (some r)) →
      (s.elem 3 5).run = some r ∧ r.phase = .evaluating ∧ 4 ≤ r.proposals.length ∧
      handoverOk (r.proposals.take 4) (q15 r.to_) (s.engine 3).handover.toNat = false) ∧
    (∀ s, s = engAt {} { gauged .track none with slipRun := 16, notch := 1 } → (s.elem 3 5).mode = .track ∧ 1 ≤ (s.elem 3 5).slipRun ∧
      (s.engine 3).slipUpdates.toNat ≤ (s.elem 3 5).slipRun ∧ (s.elem 3 5).notch = 1 ∧ (s.engine 3).run = false) ∧
    (∀ s, s = elemAt 175 { gauged .move none with feTimer := 64 } → elemIsSel 175 = true ∧ (s.elem 3 175).mode = .move ∧
      1 ≤ (s.elem 3 175).feTimer.toNat ∧ (s.elem 3 175).fePeriods.toNat ≤ (s.elem 3 175).feTimer.toNat) := by
  refine ⟨fun s h => ?_, fun s r h' h => ?_, fun s h => ?_, fun s h => ?_⟩
  · subst h; decide
  · subst h h'; decide
  all_goals subst h; decide

/-- The domains of `up` off. -/
def mainOffUp : State := { up with pwr := {} }

theorem wit_MainAndAuxPower :
    (({ up with pwr := { up.pwr with aux := false } } : State).pwr.aux = false) ∧
    (∀ s, s = { up with tally := { up.tally with bbFrozen := true } } → s.pwr.aux = true ∧ s.tally.bbFrozen = true) ∧
    (∀ s, ∀ c ∈ [DrainCause.maintenance, .mainReset 8 9, .bindOff true], s = { up with tb := 5000000, pwr := { up.pwr with drain := some (c, 0) } } → s.pwr.drain = some (c, 0) ∧
      s.passed 0 10000 = true ∧ s.passed s.pwr.lastTransit 10000 = true ∧ s.passed 0 5000000 = true) ∧
    (∀ s, s = { up with tb := 4999999, pwr := { up.pwr with drain := some (.maintenance, 0), lastTransit := 4999999 } } →
      s.passed 0 5000000 = false ∧ s.passed s.pwr.lastTransit 10000 = false) ∧
    (up.pwr.aux = true ∧ up.pwr.drain.isNone = true ∧ up.mainOn = true) ∧
    (∀ s, s = { mainOffUp with pwr := { mainOffUp.pwr with lost := true } } → s.shepOn = true ∧ s.pwr.lost = true ∧
      s.pwr.mainBarred = false ∧ s.cast.running = false ∧ s.pwr.drain.isNone = true ∧ s.shep.padWait = none) := by
  refine ⟨by decide, fun s h => ?_, fun s c hc h => ?_, fun s h => ?_, by decide, fun s h => ?_⟩
  · subst h; decide
  · fin_cases hc <;> subst h <;> decide
  all_goals subst h; decide

theorem wit_ResetsAndIslands :
    (∀ s, s = cmd up 8 (blk 0x23 []) → StartsEarly s 8 0x23 (blk 0x23 []) ∧ s.pwr.drain.isNone = true ∧ s.pwr.mainBarred = false ∧
      s.cast.running = false) ∧
    (∀ s, s = busyAt up 2 → 2 ≤ s.cast.stage.toNat) ∧
    (∀ s, s = cmd { up with pwr := { up.pwr with drain := some (.maintenance, 0) } } 8 (blk 0x23 []) →
      StartsEarly s 8 0x23 (blk 0x23 []) ∧ s.pwr.drain.isSome = true) ∧
    (∀ s, s = cmd up 3 (blk 0x0A []) → Starts s 3 0x0A (blk 0x0A []) ∧ s.flash.settings.islands.getLsbD 3 = true) ∧
    (∀ s, s = cmd { up with flash := { up.flash with settings := { up.flash.settings with islands := 0 } } } 3 (blk 0x0A []) →
      Starts s 3 0x0A (blk 0x0A []) ∧ s.flash.settings.islands.getLsbD 3 = false) ∧
    Starts (cmd up 8 (blk 0x22 [])) 8 0x22 (blk 0x22 []) ∧ Starts (cmd up 0 (blk 0 [])) 0 0x00 (blk 0 []) ∧
    -- mask 0x7F takes island 7; mask 0xFF adds island 0 where the settings leave it out
    (∀ s, s = cmd up 8 (blk 0x21 [0x7F]) → Starts s 8 0x21 (blk 0x21 [0x7F]) ∧
      ((List.range 8).filter (fun p => s.flash.settings.islands.getLsbD p && !(0x7F : BitVec 8).getLsbD p)).any s.partInUse = false ∧
      (s.pwr.transit && s.pwr.memory) = true) ∧
    (∀ s, s = cmd { up with bands := [(0, { owner := 7 })] } 8 (blk 0x21 [0x7F]) → Starts s 8 0x21 (blk 0x21 [0x7F]) ∧
      ((List.range 8).filter (fun p => s.flash.settings.islands.getLsbD p && !(0x7F : BitVec 8).getLsbD p)).any s.partInUse = true) ∧
    (∀ s, s = cmd { mainOffUp with flash := { up.flash with settings := { up.flash.settings with islands := 0xFE } } } 8 (blk 0x21 [0xFF]) →
      Starts s 8 0x21 (blk 0x21 [0xFF]) ∧
      ((List.range 8).filter (fun p => (0xFF : BitVec 8).getLsbD p && !s.flash.settings.islands.getLsbD p)).isEmpty = false ∧
      (s.pwr.transit && s.pwr.memory) = false) := by
  refine ⟨fun s h => ?_, fun s h => ?_, fun s h => ?_, fun s h => ?_, fun s h => ?_, starts_of (by decide), starts_of (by decide),
    fun s h => ?_, fun s h => ?_, fun s h => ?_⟩ <;> subst h
  · exact ⟨early_of (by decide), by decide⟩
  · decide
  · exact ⟨early_of (by decide), by decide⟩
  all_goals exact ⟨starts_of (by decide), by decide⟩

/-- REFCLK is back; the link's width is free, and neither a hard fault nor the paddock stands in the way. -/
theorem wit_HoldoverExit (b : Bool) (s : State)
    (h : s = { up with gate := { up.gate with holdover := true }, cast := { up.cast with refclkRestart := b } }) :
    s.gate.holdover = true ∧ s.cast.hold ≠ 1 ∧ s.passed s.gate.holdoverAt 1000000 = true ∧ s.cast.refclkRestart = b ∧
    s.cast.running = false ∧
    let u := ({ s with gate := { s.gate with holdover := false, ppm := 300 } } : State).pcieUp
    let v := (if u.gate.pcieWidth = 0 then u else { u with gate := { u.gate with
      pcieRetrains := stickAdd u.gate.pcieRetrains 1 } }).clearRefclk
    v.padReady = false ∧ v.shep.hard = false := by
  subst h
  refine ⟨rfl, by cases b <;> decide, by cases b <;> decide, rfl, rfl, ?_⟩
  dsimp only
  split <;> exact ⟨rfl, rfl⟩

theorem wit_EnvelopeAndBeats :
    (up.pwr.aux = true ∧ up.pwr.islands ≠ 0 ∧ up.pwr.mode ≠ 3 ∧ up.pwr.lastStep = none ∧ meanNat ((10000 :: up.pwr.inputs).take 100) = 10000 ∧
      up.powerLimit < 10000 ∧ 100 < up.powerLimit ∧ up.pwr.vcore ≤ up.vcoreTop 100 ∧ mainOffUp.pwr.islands = 0) ∧
    (∀ s, s = { up with pwr := { up.pwr with lastStep := some 0, vcore := 600, overSince := some 0 } } → s.passed 0 10000 = true ∧
      s.pwr.vcore ≤ 600 ∧ s.pwr.overSince = some 0 ∧ s.passed 0 1000000 = true) ∧
    (∀ s, s = { up with pwr := { up.pwr with lastStep := some up.tb } } → s.passed up.tb 10000 = false) ∧
    (∀ b ∈ [[4], [3], [2], [1, 1]], ∀ s, s = cmd up 8 (blk 0x20 b) → StartsEarly s 8 0x20 (blk 0x20 b)) ∧
    (up.atHurdles = true ∧ (at7 0 0 0).atHurdles = false ∧ (2 : BitVec 2) ≠ up.pwr.mode ∧ (1 : BitVec 2) = up.pwr.mode) ∧
    (up.gate.holdover = false ∧ up.cast.hold ≠ 1 ∧ up.cast.running = false) ∧
    (∀ s, s = { up with gate := { up.gate with holdoverAt := up.tb } } → s.passed s.gate.holdoverAt 1000000 = false) ∧
    (∀ s, s = { up with tb := 10000 } → s.dieOn 39 = true ∧ s.passed (s.die 39).windowStart (s.die 39).window.toNat = true) ∧
    (clampWindow 999 = 1000 ∧ clampWindow 1000001 = 1000000 ∧ clampWindow 10000 = (up.die 39).window ∧
      clampWindow 1000 ≠ (up.die 39).window) := by
  refine ⟨by decide, fun s h => by subst h; decide, fun s h => by subst h; decide, fun b hb s h => ?_, by decide, by decide,
    fun s h => ?_, fun s h => ?_, by decide⟩
  · subst h; refine early_of ?_; fin_cases hb <;> decide
  all_goals subst h; decide

theorem wit_BeatWindowWrite : up.dieOn 0 = true ∧ (10000 : BitVec 20) = (up.die 0).window ∧ (1000 : BitVec 20) ≠ (up.die 0).window := by
  decide

/-- Ring 0. -/
def ringAt (x : Ring) : State := { up with tb := 100000, rings := [(0, x)] }

theorem wit_HostRings :
    (∀ s, s = ringAt { enable := true } → (s.ring 0).enable = true ∧ (s.ring 0).stopped = false ∧ s.ideBlocked = false ∧ s.cast.hold ≠ 1 ∧
      s.gate.sig.perstN = true ∧ (s.ring 0).cmdN < ((257 : BitVec 32) - (s.ring 0).cmdCons).toNat ∧
      ((256 : BitVec 32) - (s.ring 0).cmdCons).toNat ≤ (s.ring 0).cmdN ∧ 8 ≤ (s.ring 0).free ∧
      (s.ring 0).polledAt = none ∧ 0 < min ((s.ring 0).mayFetch 256) [blk 0 []].length ∧ blkFault 0 (blk 3 [5, 0]) = none) ∧
    (∀ s, s = ringAt { polledAt := some 5 } → (s.ring 0).enable = false ∧ (s.ring 0).polledAt = some 5 ∧
      s.passed 5 (100 * (s.ring 0).pollUs.toNat) = true) ∧
    (mainOffUp.gate.sig.perstN = true ∧ State.reset.gate.sig.perstN = false) ∧
    (∀ s c, c = { kind := 1 } → s = ringAt { enable := true, due := [c], unsignalled := some 5, coalesceUs := 255 } → (s.ring 0).parked = false ∧
      8 ≤ (s.ring 0).free ∧ (s.ring 0).due = [c] ∧ (s.ring 0).used < (s.ring 0).cplN ∧ (s.ring 0).unsignalled = some 5 ∧
      s.passed 5 (100 * (s.ring 0).coalesceUs.toNat) = true) ∧
    (∀ s, s = ringAt { enable := true, lostSince := 3 } → (s.ring 0).due = [] ∧ (s.ring 0).lostSince ≠ 0 ∧ 8 ≤ (s.ring 0).free) ∧
    (∀ s c, c = { kind := 1 } → s = ringAt { enable := true, held := [c] } → (s.ring 0).due = [] ∧ (s.ring 0).lostSince = 0 ∧ (s.ring 0).held = [c] ∧
      8 ≤ (s.ring 0).free) ∧
    (up.mgmt.doeBusy = false ∧ up.gate.sig.perstN = true) := by
  refine ⟨fun s h => ?_, fun s h => ?_, by decide, fun s c hc h => ?_, fun s h => ?_, fun s c hc h => ?_, by decide⟩ <;> subst h
  · decide
  · decide
  · subst hc; decide
  · decide
  · subst hc; decide

/-- The mailbox with an operation and its request. -/
def mboxAt (s : State) (op : Byte) (l : List Byte) : State :=
  { s with gate := { s.gate with mbox := { op := op, length := BitVec.ofNat 15 l.length, data := l } } }
/-- `s` in hold state 1. -/
def holdAt (s : State) : State := { s with cast := { s.cast with held := true, hold := 1, ready := false } }
def signing (s : State) : State := { s with sec := { s.sec with signLimit := 1024 } }

theorem wit_MailboxOperations :
    (∀ s, s = { up with gate := { up.gate with mbox := { busy := true } } } → s.pwr.aux = true ∧ s.gate.mbox.busy = true) ∧
    (up.gate.mbox.busy = false ∧ up.cast.hold ≠ 1 ∧ (holdAt up).cast.hold = 1) ∧
    (∀ s, s = mboxAt (signing up) 2 (List.replicate 36 1) → (sliceB s.gate.mbox.data 0 s.gate.mbox.length.toNat).length = 36 ∧
      s.sign.isSome = true) ∧
    (∀ s, s = mboxAt up 2 (List.replicate 36 1) → s.sign.isNone = true) ∧
    (∀ s, s = mboxAt up 3 (leBytes 4 0 ++ leBytes 4 256) → 0 < fieldB (sliceB s.gate.mbox.data 0 s.gate.mbox.length.toNat) 4 4 ∧
      fieldB (sliceB s.gate.mbox.data 0 s.gate.mbox.length.toNat) 4 4 ≤ 256 ∧
      (sliceB s.gate.mbox.data 0 s.gate.mbox.length.toNat).length = 8) ∧
    (∀ s, s = mboxAt (holdAt { up with flash := { up.flash with slots := [(0, { state := 4 }), (1, { state := 1 })] } }) 0x10
        (leBytes 8 1 ++ leBytes 8 0) →
      fieldB (sliceB s.gate.mbox.data 0 s.gate.mbox.length.toNat) 0 8 < 2 ∧ 16 ≤ (sliceB s.gate.mbox.data 0 s.gate.mbox.length.toNat).length ∧
      slotWritable (s.slotOf 1) = true ∧ (s.slotOf 1).state = slotWriting ∧
      fieldB (sliceB s.gate.mbox.data 0 s.gate.mbox.length.toNat) 0 4 < 2) ∧
    (∀ s, s = mboxAt { up with flash := { up.flash with owned := false } } 0x12 (List.replicate 33 1) →
      33 ≤ (sliceB s.gate.mbox.data 0 s.gate.mbox.length.toNat).length ∧ s.flash.owned = false) := by
  refine ⟨fun s h => ?_, by decide, fun s h => ?_, fun s h => ?_, fun s h => ?_, fun s h => ?_, fun s h => ?_⟩ <;> subst h <;> decide

theorem wit_ManagementAndSpdm :
    (up.pwr.aux = true ∧ up.mgmt.dynAddr = none ∧ (256 : BitVec 16).toNat ≤ 256 ∧ 256 < (257 : BitVec 16).toNat ∧
      up.mctpTypes.contains 0x7F = true ∧ up.mctpTypes.contains 1 = false ∧ up.cast.hold ≠ 1 ∧ (holdAt up).cast.hold = 1) ∧
    (∀ s, s = { up with mgmt := { up.mgmt with dynAddr := some 8, doeBusy := true }, sec := { up.sec with session := true } } →
      s.mgmt.dynAddr.isSome = true ∧ s.mgmt.ibiEn = true ∧ s.spdmOpen 0 = true ∧ s.sec.session = true ∧ s.flash.owned = true) ∧
    (up.spdmOpen 1 = true ∧ up.sign.isNone = true ∧ up.signBarred = true ∧ (signing up).sign.isSome = true ∧ (signing up).signBarred = false ∧
      (signing up).signsNow.length < 16 ∧ ((signing up).sec.signNext + 1).toNat ≠ 2 ^ 40) ∧
    (∀ s, s = { up with flash := { up.flash with owned := false } } → s.spdmOpen 1 = true ∧ s.flash.owned = false) := by
  refine ⟨by decide, fun s h => ?_, by decide, fun s h => ?_⟩ <;> subst h <;> decide

/-- Slot 0 active, slot 1 in a state. -/
def slot1 (s : State) (st : BitVec 3) : State := { s with flash := { s.flash with slots := [(0, { state := 4 }), (1, { state := st })] } }
def ctlOk : CtlHdr := { epoch := 0, seq := 9, sender := 4 }
/-- That header with its tag, as `s` forms it. -/
def ctlSigned (s : State) : CtlHdr := { ctlOk with tag := s.ctlTag ctlOk }
theorem ctlSigned_passes {s : State} (e : s.epochOk 0 = true) (q : s.seqOk ctlOk = true) : s.ctlFail (ctlSigned s) = none :=
  State.ctlFail_seal (h := ctlOk) (by decide) rfl e q

theorem wit_ImagesAndControl :
    (∀ b ∈ [leBytes 8 1 ++ leBytes 8 0 ++ leBytes 8 16, leBytes 8 1 ++ leBytes 8 0 ++ leBytes 8 16 ++ [1]],
      StartsEarly (cmd (slot1 up 1) 8 (blk 0x26 b)) 8 0x26 (blk 0x26 b)) ∧
    (slotWritable ((slot1 up 1).slotOf 1) = true ∧ slotWritable (up.slotOf 0) = false ∧ fieldB (blk 0x26 [1]) 8 1 < 2) ∧
    StartsEarly (cmd (slot1 up 2) 8 (blk 0x27 [1])) 8 0x27 (blk 0x27 [1]) ∧
    ((slot1 up 2).canActivate 1 = true ∧ up.canActivate 1 = false) ∧
    (∀ f ∈ [(0 : Byte), 1], StartsEarly (cmd (slot1 up 3) 8 (blk 0x28 [f])) 8 0x28 (blk 0x28 [f])) ∧
    (up.trialSlot.isNone = true ∧ (slot1 up 3).trialSlot.isSome = true) ∧
    (∀ s, s = { slot1 up 2 with sec := { up.sec with activate := some 1 } } → s.maintenance = true ∧ s.sec.resetting = false ∧
      s.sec.activate = some 1 ∧ s.canActivate 1 = true) ∧
    (∀ s n, s = { up with tb := n, sec := { up.sec with trial := true, deadline := 50 } } → n = 50 ∨ n = 49 →
      s.sec.trial = true ∧ s.sec.deadline ≠ 0 ∧ s.sec.resetting = false ∧
      (n = 50 → s.sec.deadline.toNat ≤ s.tb.toNat) ∧ (n = 49 → s.tb.toNat < s.sec.deadline.toNat)) ∧
    (up.ctlFail (ctlSigned up) = none ∧ (∃ h, up.ctlFail h = some 2) ∧ up.flash.owned = true ∧ up.cast.hold ≠ 1 ∧
      (slot1 up 2).ctlFail (ctlSigned (slot1 up 2)) = none ∧ (0 : BitVec 2) ≠ up.pwr.mode ∧ up.pwr.transit = true) ∧
    (∀ s, s = { up with sec := { up.sec with prevEpoch := some (3, 5) } } → s.passed s.sec.lastSeqRecord 60000000000 = true ∧
      s.sec.prevEpoch = some (3, 5) ∧ s.passed 5 60000000000 = true ∧ s.sec.reservePending = true ∧ s.sec.reserveFail = false) := by
  refine ⟨fun b h => early_of ?_, by decide, early_of (by decide), by decide, fun f h => early_of ?_, by decide, fun s h => ?_,
    fun s n h hn => ?_, ⟨ctlSigned_passes (by decide) (by decide), ⟨{ ctlOk with tag := up.ctlTag ctlOk + 1 },
      State.ctlFail_forged (by decide) rfl (by decide) (one_ne _)⟩, by decide, by decide,
      ctlSigned_passes (by decide) (by decide), by decide, by decide⟩, fun s h => ?_⟩
  · fin_cases h <;> decide
  · fin_cases h <;> decide
  · subst h; decide
  · subst h; rcases hn with rfl | rfl <;> decide
  · subst h; decide

/-- `up` with its twin at position 8 of the group, its unit having the digest 7. -/
def twinUp : State := { up with
  twin := { up.twin with coord := 0x018, paired := true }
  flash := { up.flash with settings := { up.flash.settings with plan := some { version := 1, pod := 5, epoch := 0, digests := [(7, 0x018)] } } } }

/-- An image of three chunks, of which the chunks `k` are held, and its last chunk, of one byte. -/
def distOf (k : List Nat) : Dist := { digest := 77, total := 3, slot := 1, source := 0x011, parent := 0x011, held := k }
def lastChunk : List Byte :=
  let h := leBytes 4 0x4B435847 ++ leBytes 8 77 ++ leBytes 2 2 ++ leBytes 2 3 ++ leBytes 2 1 ++ leBytes 2 0 ++ leBytes 8 32768
  h ++ leBytes 4 (crc32c (h ++ [9])).toNat ++ [9]

theorem wit_OwnerAndDistribution :
    ((∀ i : ImageInfo, i = {} → i.headerOk = true ∧ i.signatureOk = true ∧ i.hwType = 0x00484D01 ∧ i.unitId = 0) ∧
      ctlLenOk ctlOk = true ∧ ctlLenOk { ctlOk with length := 1 } = false ∧ up.epochOk 7 = false ∧ up.epochOk 0 = true ∧
      up.seqOk ctlOk = true ∧ ({ up with sec := { up.sec with seqs := [(4, 9)] } } : State).seqOk ctlOk = false) ∧
    StartsEarly (cmd { up with flash := { up.flash with owned := false } } 8 (blk 0x29 [])) 8 0x29 (blk 0x29 []) ∧
    StartsEarly (cmd up 8 (blk 0x29 [])) 8 0x29 (blk 0x29 []) ∧ StartsEarly (cmd up 8 (blk 0x2A [])) 8 0x2A (blk 0x2A []) ∧
    (up.ctlFail (ctlSigned up) = none ∧ slotWritable (up.slotOf 1) = true ∧ (4092 : BitVec 12).toNat ≤ 4092) ∧
    (∀ k ∈ [[0], [1, 0]], ∀ s d, d = { distOf k with lastChunk := 0 } →
      s = { twinUp with tb := 4000000000, flash := { twinUp.flash with dist := some d }, sec := { up.sec with bcState := 1 } } →
      s.flash.dist = some d ∧ chunkOk d lastChunk = true ∧ (k = [0] → d.held.length + 1 < d.total.toNat) ∧
      (k = [1, 0] → d.total.toNat ≤ d.held.length + 1) ∧ d.held.contains 0 = true ∧ fieldB (leBytes 12 0 ++ [0, 0]) 12 2 = 0 ∧
      s.passed d.lastChunk 3000000000 = true ∧ s.passed d.askedAt 1000000000 = true ∧ s.twin.paired = true) ∧
    (∀ (s : State) (d : Dist), ∃ g, s.distDigest { d with digest := g } = ({ d with digest := g } : Dist).digest) := by
  refine ⟨⟨fun i h => ?_, by decide⟩, early_of (by decide), early_of (by decide), early_of (by decide),
    ⟨ctlSigned_passes (by decide) (by decide), by decide, by decide⟩, fun k hk s d hd h => ?_, fun s d => ⟨s.distDigest d, rfl⟩⟩
  · subst h; decide
  · fin_cases hk <;> subst h hd <;> decide +kernel

/-- The Tally Book. -/
def tallyAt (t : Tally) : State := { up with tb := 5000000000, tally := t }

theorem wit_TallyBook :
    (∀ s, s = tallyAt {} → s.raised = [] ∧ (4 : BitVec 3) ≠ 5 ∧ s.tally.bbFrozen = false ∧ s.tally.freeze = false ∧ s.tally.copying = false ∧
      s.tally.autoInc = false) ∧
    (∀ s, s = tallyAt { freeze := true, freezeAt := 5 } → s.tally.freeze = true ∧ s.tally.staging.length < 256 ∧
      s.passed s.tally.freezeAt 100000000 = true) ∧
    (∀ s, s = tallyAt { bbFrozen := true } → s.tally.bbFrozen = true ∧ s.tally.hold.length < 256) ∧
    (∀ s, s = tallyAt { copying := true, autoInc := true } → s.tally.copying = true ∧ s.flash.fatalHeld = false ∧ s.tally.autoInc = true) ∧
    (∀ s, s = tallyAt { buckets := [(7, 3, 5), (8, 64, 5)], mirrorDue := true, book := [(2, { code := 7, source := 1 })] } →
      s.tally.buckets.find? (fun q => q.1 = 7) = some (7, 3, 5) ∧ 3 < (rateOf s.tally 7).2 ∧ s.passed 5 (tokenTicks (rateOf s.tally 7).1) = true ∧
      s.tally.buckets.find? (fun q => q.1 = 8) = some (8, 64, 5) ∧ (rateOf s.tally 8).2 ≤ 64 ∧ s.tally.mirrorDue = true ∧ s.tally.mirroring = false ∧
      findRec s.tally.book 7 1 = some 2) ∧
    (∀ s m, s = tallyAt { shadow := some m, mirroring := true } → s.tally.shadow = some m ∧ s.tally.mirroring = true) ∧
    (∀ r : Rec, r = { count := 1, valued := true } → r.valued = true ∧ r.count ≠ 0) ∧
    (2 ^ (14 - 1) ≤ (8192 : BitVec 32).toNat ∧ (16383 : BitVec 32).toNat < 2 ^ 14 ∧ 2 ^ 14 ≤ (16384 : BitVec 32).toNat ∧
      2 ^ (1 - 1) ≤ (1 : BitVec 32).toNat ∧ (1 : BitVec 32).toNat < 2 ^ 1) := by
  refine ⟨fun s h => ?_, fun s h => ?_, fun s h => ?_, fun s h => ?_, fun s h => ?_, fun s m h => ?_, fun r h => ?_, by decide⟩ <;> subst h
  iterate 5 decide
  · exact ⟨rfl, rfl⟩
  · decide

theorem wit_TallyWindow :
    (∀ e, e = { code := 7, source := 1, severity := 2 } → ∃ u, exec (.tallyEvent e) (tallyAt {}) = .next u) ∧
    (tallyAt { autoInc := true }).tally.autoInc = true ∧ (tallyAt {}).tally.source = 0 ∧
    (∃ m : Mirror, m.complete = true) ∧
    (∀ m, ({ tallyAt { source := 1 } with flash := { up.flash with mirrors := some m } } : State).flash.mirrors = some m) ∧
    (∀ m, ({ tallyAt { source := 2 } with flash := { up.flash with mirrors2 := some m } } : State).flash.mirrors2 = some m) :=
  ⟨fun e h => by subst h; exact ⟨_, rfl⟩, rfl, rfl, ⟨{ seq := 1, tb := 2, life := 3, book := [] }, rfl⟩, fun _ => rfl, fun _ => rfl⟩

theorem wit_BlackBoxAndLaneTests :
    (∀ s, s = tallyAt { bbFrozen := true, bbWriting := true } → s.tally.bbFrozen = true ∧ s.tally.bbWriting = true ∧ s.tally.hold = []) ∧
    (tallyAt {}).tally.bbWriting = false ∧
    (∀ x, (tallyAt { ring := [x] }).tally.ring.reverse[(0 : BitVec 12).toNat]? = some x) ∧
    (∀ s, s = { up with tests := [(5, { chk := 1 }), (6, { lock := true })] } → s.testable 0 5 = true ∧ (s.test 0 5).chk ≠ 0 ∧
      (s.test 0 5).lock = false ∧ (s.test 0 6).lock = true) ∧
    (linkAt 0 0 { state := 2, lanes := [0] }).testable 0 0 = false ∧ up.testable 2 11 = false := by
  refine ⟨fun s h => ?_, rfl, fun x => rfl, fun s h => ?_, by decide, by decide⟩ <;> subst h <;> decide

theorem wit_PinsMovesAndRegisters :
    (up.serving = false ∧ up.cast.hold ≠ 1 ∧ up.mainOn = true ∧ up.pwr.coolLimit = false ∧ up.gate.coolAt = none) ∧
    (∀ s, s = { up with gate := { up.gate with coolAt := some 0, sig := { up.gate.sig with attnTaken := true } } } → s.serving = true ∧
      s.gate.coolAt = some 0 ∧ s.passed 0 10000000 = true) ∧
    (∀ s, s = { up with
        pwr := { up.pwr with coolLimit := true, tripSince := some 0 }
        gate := { up.gate with flowLow := some 0, inletHot := some 0, flowTrip := some 0, coolGood := some 0 } } →
      s.gate.flowLow = some 0 ∧ s.gate.inletHot = some 0 ∧ s.gate.flowTrip = some 0 ∧ s.gate.coolGood = some 0 ∧
      s.pwr.tripSince = some 0 ∧ s.passed 0 6000000000 = true ∧ s.pwr.coolLimit = true) ∧
    (∀ s b, b = blk 9 (leBytes 8 0 ++ leBytes 8 0 ++ leBytes 4 512) → s = cmd { up with bands := [(0, { owner := 0 })] } 0 b →
      Starts s 0 0x09 b ∧ moveLen (fieldB b 24 4) = true ∧ s.reach 0 (fieldB b 16 8) (fieldB b 24 4) = true) ∧
    (∀ s b, b = blk 9 (leBytes 8 0 ++ leBytes 8 0 ++ leBytes 4 512) → s = cmd up 0 b →
      s.reach 0 (fieldB b 16 8) (fieldB b 24 4) = false) ∧
    (Starts (cmd up 0 (blk 9 [])) 0 0x09 (blk 9 []) ∧ moveLen (fieldB (blk 9 []) 24 4) = false) ∧
    (∀ s, s = { up with rings := [(0, { fetched := [{ block := blk 9 [], started := true }] })] } →
      (s.ring 0).fetched.any (fun c => c.started && decide (blkOp c.block = 0x09 ∧ blkTag c.block = 9)) = true) ∧
    (up.gate.sig.perstN = true ∧ up.ideBlocked = false ∧ (15 : Word).toNat < 16) := by
  refine ⟨by decide, fun s h => ?_, fun s h => ?_, fun s b hb h => ?_, fun s b hb h => ?_, ⟨starts_of (by decide), by decide⟩, fun s h => ?_,
    by decide⟩
  · subst h; decide
  · subst h; decide
  · subst h hb; exact ⟨starts_of (by decide), by decide⟩
  · subst h hb; decide
  · subst h; decide

def flk : FlockHdr := { sender := 0x011, pod := 5, alive := 9, term := 3 }

/-- A state in which messages of the pod are heard, and the state in which one sealed from `flk` has its effect. -/
theorem hears_of {s : State} {k : Nat} (b : FlockBody) (e : (s.shepOn && s.flash.owned && s.gate.port0En &&
    decide (s.flash.settings.plan.map (·.pod) = some 5) && decide (((s.sender k).hear 9).2 = .accepted 0)) = true) :
    Hears s (s.sealFlock flk b) b k := by
  simp only [Bool.and_eq_true, decide_eq_true_eq] at e
  exact hears_seal ⟨e.1.1.1.1, e.1.1.1.2, e.1.1.2, rfl⟩ rfl rfl (flockTypeKnown_type b) e.1.2 ⟨0, e.2⟩
theorem heardFrom_sealed (s : State) (b : FlockBody) (k : Nat) : heardFrom s (s.sealFlock flk b) k = heardFrom s flk k := rfl

theorem wit_FlockMessages :
    (∀ b, Hears up (up.sealFlock flk b) b 0x011 ∧ Hears up (up.sealFlock flk b) b (2048 + 7)) ∧
    ((heardFrom up flk 0x011).inGroup 0x011 = true ∧ newerTerm 3 (heardFrom up flk 0x011).shep.term = true ∧
      (heardFrom up flk 0x011).freeBudget = some 0 ∧ (heardFrom up flk 0x011).isMine 0x010 = true) ∧
    (∀ s, s = { up with shep := { up.shep with bellwether := true, allowed := 0 } } → (∀ b, Hears s (s.sealFlock flk b) b 0x011) ∧
      (heardFrom s flk 0x011).shep.bellwether = true ∧ (heardFrom s flk 0x011).freeBudget = none) ∧
    -- the spare of the group stands elsewhere, and a bellwether hears a unit that graduates
    (∀ s, s = { up with
        shep := { up.shep with bellwether := true }
        flash := { up.flash with settings := { up.flash.settings with
          standins := [(44, 0x013)], plan := some { version := 1, pod := 5, epoch := 0, digests := [(44, 0x01F)] } } } } →
      (∀ b, Hears s (s.sealFlock flk b) b (2048 + 7)) ∧ (heardFrom s flk (2048 + 7)).shep.bellwether = true ∧
      (heardFrom s flk (2048 + 7)).inGroup (coordAt 1 15) = true ∧
      (heardFrom s flk (2048 + 7)).spareOut (heardFrom s flk (2048 + 7)).ownGroup = true) ∧
    up.lowest = some (posOf up.shep.coord) ∧
    (∀ s, s = { up with obs := [(0, { valid := true, score := 200, gossipAt := up.tb })], shep := { up.shep with coord := 0x012 } } → s.lowest ≠ some (posOf s.shep.coord)) := by
  refine ⟨fun b => ⟨hears_of b (by decide), hears_of b (by decide)⟩, by decide, fun s h => ?_, fun s h => ?_, by decide, fun s h => ?_⟩
  · subst h; exact ⟨fun b => hears_of b (by decide), by decide⟩
  · subst h; exact ⟨fun b => hears_of b (by decide), by decide⟩
  · subst h; decide

/-- Counter 9 after 9 is a repeat, after 5 a jump. -/
theorem wit_FlockChecksInOrder :
    (up.shepOn = true ∧ up.flash.owned = true ∧ up.flockOpen flk = true ∧ up.flockFenced flk = false ∧
      ({ flk with len := 127 } : FlockHdr).len ≠ 128 ∧ ({ flk with version := 2 } : FlockHdr).version ≠ 1 ∧
      up.flash.settings.plan.map (·.pod) ≠ some 6 ∧ up.flash.settings.plan.map (·.pod) = some flk.pod) ∧
    (∀ s, s = { up with fabs := [(1, { fence := [(0x011, true)] })] } → s.flockOpen { flk with via := 3 } = true ∧
      (s.fab 1).fenced 0x011 = true) ∧
    -- whole and signed, whole and not signed
    (∀ b, flockWhole (up.sealFlock flk b) b = true ∧ up.flockSigned (up.sealFlock flk b) b = true) ∧
    (∀ b, ∃ f : FlockHdr, f.version = 1 ∧ flockTypeKnown f.type = true ∧ f.pod = 5 ∧ flockWhole f b = true ∧ up.flockSigned f b = false) ∧
    (∀ s, s = { up with shep := { up.shep with senders := [(0x011, { last := some 9 })] } } →
      ((s.sender flk.sender.toNat).hear flk.alive).2 = .again) ∧
    (∀ s, s = { up with shep := { up.shep with senders := [(0x011, { last := some 5 })] } } →
      ((s.sender flk.sender.toNat).hear flk.alive).2 = .jump) := by
  refine ⟨by decide, fun s h => by subst h; decide, fun b => ⟨up.sealFlock_whole flk b rfl, up.sealFlock_signed flk b⟩, fun b => ?_,
    fun s h => ?_, fun s h => ?_⟩
  · obtain ⟨f, e, w, g⟩ := State.flock_forged (s := up) (h := { flk with type := b.type }) (b := b)
      (t := up.flockTag up.flash.epoch { flk with type := b.type } b + 1) (by decide) rfl (one_ne _)
    exact ⟨f, by rw [e]; rfl, by rw [e]; exact flockTypeKnown_type b, by rw [e]; rfl, w, g⟩
  all_goals subst h; decide

/-- The Shepherd at a late tick. -/
def shepAt (x : Shep) : State := { up with tb := 9000000000000, shep := x }

theorem wit_FlockTimers :
    (up.shepOn = true ∧ up.shep.member = true ∧ up.shep.paddock = false ∧ up.shep.lastGossip = none ∧ up.shep.bellwether = false ∧
      up.shep.hasCoord = true ∧ up.lowest = some (posOf up.shep.coord) ∧ up.bellLost = true ∧ up.shep.indPast = [] ∧ up.flash.owned = true ∧
      up.ctlFail (ctlSigned up) = none ∧ up.shep.hard = false) ∧
    (∀ s, s = { up with tb := 120000000000, obs := [(3, { valid := true, suspended := true })] } → (s.obsOf 3).valid = true ∧
      s.passed (s.obsOf 3).gossipAt 3000000 = true ∧ (s.obsOf 3).suspended = true ∧ s.passed (s.obsOf 3).suspAt 120000000000 = true) ∧
    (∀ s, s = shepAt { up.shep with bellwether := true, slots := [(7, 9000000000000)], orders := [(0x011, 2, 5)], padWait := some 5,
                                    runs := [{ subject := 0x011, asked := [0], since := 5 }], paddock := true } →
      s.slotAt 7 ≠ 0 ∧ (s.slotAt 7).toNat ≤ s.tb.toNat ∧ s.shep.trusted = false ∧ s.passed s.shep.memberSince 8640000000000 = true ∧
      (s.shep.orders.find? (fun y => s.passed y.2.2 60000000000)).isSome = true ∧
      (s.shep.runs.find? (fun y => s.passed y.since 2000000)).isSome = true ∧ s.shep.padWait = some 5 ∧ s.gate.sig.mainEn = true ∧
      s.pwr.mainBarred = false ∧ s.cast.running = false ∧ s.passed 5 1000000000 = true) ∧
    (∀ s, s = shepAt { up.shep with paddock := true } → s.shep.paddock = true ∧ s.shep.padWait = none ∧ s.pwr.transit = true ∧
      s.cast.running = false ∧ s.cast.held = false ∧ s.shep.padPhase = 0 ∧ s.shep.clean ≠ 3 ∧ s.shep.lastPass = none ∧
      s.passed s.shep.padProgressAt 6000000000 = true) ∧
    (∀ c ∈ [(1 : BitVec 2), 2], ∀ p ∈ [(1 : BitVec 2), 2, 3], ∀ s, s = shepAt { up.shep with paddock := true, padPhase := p, clean := c } →
      s.shep.paddock = true ∧ s.shep.padPhase = p ∧ (c = 2 ↔ s.shep.clean = 2)) ∧
    (∀ s, s = shepAt { up.shep with paddock := true, clean := 3 } → s.shep.clean = 3 ∧ s.passed s.shep.padReportAt 60000000000 = true) ∧
    Starts (cmd up 0 (blk 8 [0x11, 0, 3, 0])) 0 0x08 (blk 8 [0x11, 0, 3, 0]) ∧
    (∀ l a, (l, a) ∈ [(1024, [0, 240]), (1023, [0, 240]), (0, []), (1, []), (1024, [0])] → ∀ r : ProbeRun,
      r = { subject := 0x011, asked := [0, 240], answered := a, looped := l, since := 0 } →
      (r.allAnswered = true ↔ a = [0, 240]) ∧ (r.loopback = true ↔ l = 1024)) := by
  refine ⟨⟨by decide, by decide, by decide, by decide, by decide, by decide, by decide, by decide, by decide, by decide,
      ctlSigned_passes (by decide) (by decide), by decide⟩, fun s h => ?_, fun s h => ?_, fun s h => ?_, fun c hc p hp s h => ?_, fun s h => ?_, starts_of (by decide), fun l a h r hr => ?_⟩
  · subst h; decide
  · subst h; decide
  · subst h; decide
  · fin_cases hc <;> fin_cases hp <;> subst h <;> decide
  · subst h; decide
  · subst hr; fin_cases h <;> decide

/-- Scores at the bounds: 159 and 160, 167 and 168, 95 and 104. -/
theorem wit_WatchAndExpulsionRequest :
    (up.shepOn = true ∧ up.shep.hard = false ∧ up.shep.expelOpen = false ∧ up.shep.member = true ∧ up.twin.bindOff.isNone = true) ∧
    ((159 : Byte).toNat < up.shep.watchThr.toNat ∧ up.shep.watchThr.toNat ≤ (160 : Byte).toNat ∧ (167 : Byte).toNat < up.shep.watchThr.toNat + 8 ∧
      up.shep.watchThr.toNat + 8 ≤ (168 : Byte).toNat ∧ (95 : Byte).toNat < up.shep.expelThr.toNat ∧
      up.shep.expelThr.toNat + 8 ≤ (104 : Byte).toNat) ∧
    ({ up with shep := { up.shep with expelOpen := true } } : State).shep.expelOpen = true := by decide

def side (k : Byte) (d : Word := 7) : SideFrame := { alive := 4, sender := 0x018, kind := k, digest := d }
theorem sideHears_of {s : State} {t : Byte} {f : SideFrame} {n : Nat} (e : (s.shepOn && s.twin.paired && decide (f.sender = s.twin.coord) &&
    decide ((s.shep.sbAlive.hear f.alive).2 = .accepted n)) = true) : SideHears s t (sealSide t f) n := by
  simp only [Bool.and_eq_true, decide_eq_true_eq] at e
  exact sideHears_seal e.1.1.1 e.1.1.2 e.1.2 e.2

theorem wit_TwinSideband :
    (∀ k ∈ [(0 : Byte), 1, 5], ∀ t, SideHears twinUp t (sealSide t (side k)) 0) ∧ (∃ f, f.crc ≠ sideCrc 1 f) ∧ up.shep.sbSentAt = none ∧
    (∀ s, s = { up with shep := { up.shep with sbSentAt := some up.tb } } → s.passed up.tb 100000 = false) ∧
    (∀ s, s = { up with tb := 1000000 } → s.shepOn = true ∧ s.shep.sbSilent = false ∧ s.passed s.shep.sbLast 1000000 = true ∧
      s.twin.paired = false) ∧
    (∀ s, s = { twinUp with tb := 1000000 } → s.shep.sbSilent = false ∧ s.twin.paired = true ∧ s.shep.hasCoord = true ∧
      s.passed s.shep.sbLast 1000000 = true) ∧
    (∀ u, u = sideFrom twinUp (side 0) 0 → u.coordOfDigest 7 = some 0x018 ∧ u.coordOfDigest 8 ≠ some 0x018 ∧ u.shep.hasCoord = true ∧
      u.cast.coordValid = true ∧ u.twin.sentHandshake = false) ∧
    SideHears twinUp 2 (sealSide 2 (side 0 8)) 0 ∧
    (∀ s, s = { up with twin := { up.twin with bindOff := some (none, 0) } } → s.twin.bindOff.isSome = true ∧ s.pwr.drain.isNone = true ∧
      s.pwr.transit = true ∧ s.boundOff = true) ∧
    (∀ b ∈ [none, some ((none : Option (Nat × BitVec 16)), (4 : Word)), some (some (8, 2), 4)],
      Starts (cmd { up with twin := { up.twin with bindOff := b } } 8 (blk 0x24 [])) 8 0x24 (blk 0x24 [])) := by
  refine ⟨fun k h t => sideHears_of ?_, ⟨{ side 0 with crc := sideCrc 1 (side 0) + 1 }, side_forged (one_ne _)⟩, rfl, fun s h => by subst h; decide,
    fun s h => ?_, fun s h => ?_, fun u h => ?_, sideHears_of (by decide), fun s h => ?_,
    fun b h => starts_of ?_⟩
  · fin_cases h <;> decide
  · subst h; decide
  · subst h; decide
  · subst h; decide
  · subst h; decide
  · fin_cases h <;> decide

/-- Job 3 stands at its commit hurdle 0x125 with its one member arrived; `f` changes its checkpoint. -/
def commitAtState (c : Ckpt) (x : Ctx := {}) (unfit : Bool := false) (twinless : Bool := true) : State := { twinUp with
  tb := 5000000000, ctxs := [(28, { x with mode := .waiting, waitCause := 3, jobId := 3, jobGen := 1 })]
  bands := [(0, { owner := 0 })]
  images := [{ part := 0, chainId := 5, jobId := 3, jobGen := 1, flags := 1, peers := [0x011], ctxs := [], hurs := [
    { id := 0x125, level := 1, commit := true, post := false, members := 1, children := 0, parent := 0xFFFF }] }]
  partJob := [(0, 3)]
  jobs := [(0, { jobId := 3, jobGen := 1, valid := true, row := 41, hasRow := true, unfit := unfit, hurs := [(0x125, { local_ := 1 })] })]
  twin := { twinUp.twin with twinless := twinless, jobs := [(0, c)] } }

theorem wit_Commits :
    (∀ s, s = commitAtState { limitGib := 16 } → s.shepOn = true ∧ s.pwr.transit = true ∧ (s.job 0).valid = true ∧ (s.commitAt 0).isSome = true ∧
      (s.ckptJob 0).state = 0 ∧ s.earlierCommit 0 = false ∧ s.channelsEmpty 0 = true ∧ (s.job 0).unfit = false ∧
      s.coveredBytes 0 ≤ (s.ckptJob 0).limitGib * 0x40000000 ∧ s.twin.twinless = true ∧ (s.ckptJob 0).state.toNat ≤ 1 ∧
      s.passed (s.ckptJob 0).arrival s.twin.timeout.toNat = true) ∧
    (∀ s, s = commitAtState {} → (s.commitAt 0).isSome = true ∧ s.channelsEmpty 0 = true ∧
      (s.ckptJob 0).limitGib * 0x40000000 < s.coveredBytes 0) ∧
    (∀ s, s = commitAtState {} { ins := [(0, { lasts := [true] })] } → (s.commitAt 0).isSome = true ∧ s.channelsEmpty 0 = false) ∧
    (∀ s, s = commitAtState {} {} true → (s.commitAt 0).isSome = true ∧ s.channelsEmpty 0 = true ∧ (s.job 0).unfit = true) ∧
    (∀ s p q, s = commitAtState { state := 1 } {} false false → p = { pkt kCkptAck 1 with src := 0x018, jobId := 0, ident := 3, arg := ckptArg 42 false false } →
      q = { p with arg := ckptArg 42 false true } → Arrives s kCkptAck 0 p none ∧ p.src = s.twin.coord ∧ ckptBack p = false ∧
      s.slotOfJob p.ident = some 0 ∧ argBad p = false ∧ (s.ckptJob 0).state = 1 ∧ argRow p = (s.job 0).row + 1 ∧
      Arrives s kCkptAck 0 q none ∧ argBad q = true ∧ ckptBack q = false ∧ argRow q = (s.job 0).row + 1) ∧
    -- the reserve does not hold what the twin would be sent
    (∀ s, s = commitAtState { limitGib := 16, reserveGib := 0, dirty := [1] } {} false false → s.channelsEmpty 0 = true ∧
      (s.job 0).unfit = false ∧ s.coveredBytes 0 ≤ (s.ckptJob 0).limitGib * 0x40000000 ∧ (s.ckptJob 0).fullNext = false ∧
      ((s.ckptJob 0).reserveGib - (s.ckptJob 0).limitGib) * 0x40000000 < (s.someGrans 0 (s.ckptJob 0).dirty).length * 0x10000) ∧
    (∀ s p, s = commitAtState {} → ∀ v ∈ [(false, false), (true, false), (true, true)],
      p = { pkt kCkpt 0 with src := 0x018, jobId := 0, ident := 3, b23 := ckptByte 0 false v.1 v.2 } → Arrives s kCkpt 0 p none ∧
      p.src = s.twin.coord ∧ s.pwr.memory = true ∧ ckptBack p = v.1 ∧ ckptFlag p = v.2) ∧
    (∀ s p, s = { commitAtState {} with twin := { twinUp.twin with held := [(2, { jobId := 9, jobGen := 1, sealed := some { row := 4 } }), (3, { exportState := 1 })] } } →
      p = { pkt kCkpt 3 with src := 0x018, jobId := 0, jobGen := 1, ident := 9 } → s.heldFor p.ident = some 2 ∧ s.pwr.memory = true ∧
      p.src = s.twin.coord ∧ p.jobGen = (s.heldJob 2).jobGen ∧ (s.heldJob 2).sealed.any (fun v => decide (v.row = 4)) = true ∧
      (s.heldJob 3).exportState = 1) := by
  refine ⟨fun s h => ?_, fun s h => ?_, fun s h => ?_, fun s h => ?_, fun s p q h hp hq => ?_,
    fun s h => ?_, fun s p h v hv hp => ?_, fun s p h hp => ?_⟩
  iterate 4 (first | (subst h; decide))
  · subst hq hp h; unfold Arrives; decide
  · subst h; decide
  · fin_cases hv <;> subst hp h <;> unfold Arrives <;> decide
  · subst hp h; decide

theorem wit_CheckpointCommands :
    (∀ s b, b = blk 6 ([0, 0] ++ leBytes 2 3 ++ leBytes 2 32 ++ leBytes 2 16) → s = cmd (commitAtState {}) 0 b → Starts s 0 0x06 b ∧
      s.slotOfJob 3 = some 0 ∧ s.jobOfPart 0 = 3 ∧ fieldB b 12 2 = 32 ∧ fieldB b 14 2 = 16 ∧ s.twin.twinless = true) ∧
    (∀ s b, b = blk 6 ([0, 0] ++ leBytes 2 4) → s = cmd (commitAtState {}) 0 b → Starts s 0 0x06 b ∧ s.slotOfJob 4 = none) ∧
    (∀ t s b, t ∈ [true, false] → b = blk 5 ([0, 0] ++ leBytes 2 3 ++ [2, 0, 0, 0] ++ leBytes 8 41) →
      s = cmd (commitAtState { dirty := [1] } {} false t) 0 b → Starts s 0 0x05 b ∧ s.slotOfJob 3 = some 0 ∧ (s.ckptJob 0).restoreTag = none ∧
      s.heldFor 3 = none ∧ s.twin.twinless = t) ∧
    (∀ s b, b = blk 5 ([0, 0] ++ leBytes 2 3) → s = cmd (commitAtState { restoreTag := some (0, 2) }) 0 b → Starts s 0 0x05 b ∧
      (s.ckptJob 0).restoreTag.isSome = true) ∧
    (∀ s, s = commitAtState { state := 4, restoreTag := some (0, 2) } → s.shepOn = true ∧ (s.ckptJob 0).state = 4 ∧ (s.ckptJob 0).needed = [] ∧
      (s.ckptJob 0).needAll = false ∧ (s.ckptJob 0).restoreTag = some (0, 2)) ∧
    (∀ n s b, n ∈ [41, 42] → b = blk 7 ([0, 0] ++ leBytes 2 3 ++ [0, 0, 0, 0] ++ leBytes 8 n) → s = cmd (commitAtState {}) 0 b →
      Starts s 0 0x07 b ∧ s.slotOfJob 3 = some 0 ∧ s.jobOfPart 0 = 3 ∧ (s.ckptJob 0).restoreTag = none ∧
      ((s.job 0).row = BitVec.ofNat 64 (fieldB b 16 8) ↔ n = 41)) ∧
    -- what RESTORE and IMPORT meet: granules to fetch and none, an image of no granule and one of another name
    (∀ s, s = { commitAtState { dirty := [1] } with bands := [] } → s.coveredBytes 0 ≤ 16 * 0x40000000 ∧ (s.restoreNeeds 0 41 false).1 = []) ∧
    (∀ s, s = commitAtState { dirty := [1] } → (s.restoreNeeds 0 41 false).1 ≠ [] ∧ 8 * 0x40000000 < s.coveredBytes 0) ∧
    (∀ s l, s = { commitAtState {} with bands := [] } → l = exportManifest 3 1 41 0x010 [] →
      s.importData 0 ((shake256 l).setWidth 128) l [] = some []) ∧
    (shake256 []).setWidth 128 ≠ (0 : BitVec 128) := by
  refine ⟨fun s b hb h => ?_, fun s b hb h => ?_, fun t s b ht hb h => ?_, fun s b hb h => ?_, fun s h => ?_, fun n s b hn hb h => ?_,
    fun s h => by subst h; decide +kernel, fun s h => by subst h; decide +kernel, fun s l h hl => by subst h hl; decide +kernel, by decide +kernel⟩
  · subst h hb; exact ⟨starts_of (by decide), by decide⟩
  · subst h hb; exact ⟨starts_of (by decide), by decide⟩
  · fin_cases ht <;> subst h hb <;> exact ⟨starts_of (by decide), by decide⟩
  · subst h hb; exact ⟨starts_of (by decide), by decide⟩
  · subst h; decide
  · fin_cases hn <;> subst h hb <;> exact ⟨starts_of (by decide), by decide⟩

/-- Cast-on runs in stage `st`; a run of one island covers island 7. -/
def stageSt (st : BitVec 4) (run : CastRun := .full) (s : State := up) : State :=
  { s with tb := 70000000000, cast := { s.cast with running := true, ready := false, stage := st, run := run } }
/-- Island 0 alone assigned, its five dies out of service. -/
def allGone (s : State) : State := { s with
  dies := (List.range 5).map (fun n => (n, { outOfService := true }))
  flash := { s.flash with settings := { s.flash.settings with islands := 1 } } }

/-- A defect map without entries, of the unit 5. -/
def record5 : List Byte :=
  let h := leBytes 4 0x4D445847 ++ leBytes 2 1 ++ leBytes 2 0 ++ leBytes 4 64 ++ leBytes 4 0x00484D01 ++ leBytes 32 5 ++ leBytes 12 0
  h ++ leBytes 4 (crc32c h).toNat ++ List.replicate 2820 0
/-- The unit 5. -/
def unit5 (s : State) : State := { s with sec := { s.sec with unitId := 5 } }

theorem wit_CastOnStagesCo0ToCo5 :
    (∀ st ∈ [(0 : BitVec 4), 1, 2, 3, 4, 5], (stageSt st).atStage st.toNat = true) ∧
    -- CO0: the image as shipped, one written since, none
    (up.co0Slot = some 0 ∧ (up.slotOf 0).shipped = true ∧ (slot1 up 4).co0Slot = some 0 ∧ ((slot1 up 4).slotOf 0).shipped = false ∧
      ({ up with flash := { up.flash with slots := [] } } : State).co0Slot = none) ∧
    -- CO1: an image that passes, and one that no slot passes
    (∀ s, s = stageSt 1 → ∀ x, (s.frogTrial.chooseSlot fun n => s.slotFacts n (if n = 0 then { headerOk := x } else {})).2 =
      if x then some (0, false) else none) ∧
    (∀ s, s = stageSt 2 → s.gate.sig.mainEn = true ∧ s.pwr.mainBarred = false) ∧
    (∀ s, s = { stageSt 2 with gate := { up.gate with sig := {} } } → s.atStage 2 = true ∧ s.gate.sig.mainEn = false) ∧
    -- CO3: a record that is good, in an island with dies and in one without
    (∀ s ∈ [stageSt 3 (.island 7) (unit5 up), stageSt 3 (.island 7) (unit5 (allGone up))], s.atStage 3 = true ∧
      s.recordOk 0x4D445847 record5 = true ∧ fieldB record5 8 4 = 64 + 8 * fieldB record5 6 2) ∧
    ((stageSt 3 (.island 7) (unit5 up)).zeroSlices.co3Maps (defectsOf record5) 0).dieOut = false ∧
    ((stageSt 3 (.island 7) (unit5 (allGone up))).zeroSlices.co3Maps (defectsOf record5) 0).dieOut = true ∧
    (stageSt 3).recordOk 0x4D445847 [] = false ∧
    -- CO4: two channels of the last stack at no rate, then one; one that qualifies at code 1 alone sets its die's rate
    (∀ s, s = stageSt 4 →
      (List.range 40).any (fun k => decide (2 ≤ ((s.co4Train [(39, 0, 0), (39, 17, 0)]).stack (k / 5) (k % 5)).erasedN)) = true ∧
      (List.range 40).any (fun k => decide (2 ≤ ((s.co4Train [(39, 17, 0)]).stack (k / 5) (k % 5)).erasedN)) = false ∧
      co4Rate [(39, 17, 3)] (s.co4Bad [(39, 17, 3)]) 7 = 1 ∧ co4Rate [(39, 17, 3)] (s.co4Bad [(39, 17, 3)]) 6 = 4) ∧
    (∀ s, s = stageSt 5 (.island 7) → s.co5Bad [256 * 39 + 255] [] ≠ [] ∧ (s.co5Test (s.co5Bad [256 * 39 + 255] [])).dieOut = false) ∧
    (∀ s, s = stageSt 5 (.island 7) (allGone up) → (s.co5Test (s.co5Bad [] [])).dieOut = true) := by
  refine ⟨fun st h => ?_, by decide, fun s h x => ?_, fun s h => ?_, fun s h => ?_, fun s h => ?_, by decide +kernel, by decide +kernel,
    by decide, fun s h => ?_, fun s h => ?_, fun s h => ?_⟩
  · fin_cases h <;> decide
  · subst h; cases x <;> decide +kernel
  · subst h; decide +kernel
  · subst h; decide +kernel
  · fin_cases h <;> decide +kernel
  all_goals subst h; decide +kernel

/-- The plan names this unit, whose digest is 0, at 0x010. -/
def planned (s : State) : State := { s with flash := { s.flash with
  settings := { s.flash.settings with plan := some { version := 1, pod := 5, epoch := 0, digests := [(0, 0x010)] } } } }
/-- `s` in a hold state. -/
def heldIn (h : BitVec 2) (s : State := up) : State :=
  { s with tb := 70000000000, cast := { s.cast with held := true, ready := false, hold := h, failedStage := 8, planWait := true } }

theorem wit_CastOnStagesCo6ToEnd :
    (∀ st ∈ [(6 : BitVec 4), 7, 8, 9], (stageSt st).atStage st.toNat = true) ∧
    (∀ s, s = stageSt 7 → s.ecsAwaited = false ∧ (List.range 4).any (fun x => (s.co7Source [] x).isNone) = true) ∧
    (∀ s, s = { stageSt 7 with tb := 0, cast := { (stageSt 7).cast with ecsGone := 8, stageStart := 0 } } → s.atStage 7 = true ∧
      s.ecsAwaited = true ∧ s.passed s.cast.stageStart (stageLimit 7) = false) ∧
    (∀ s, s = stageSt 7 .full { up with ecs := (List.range 4).map (fun x => (x, { present := true })) } → s.ecsAwaited = false ∧
      (List.range 4).any (fun x => (s.co7Source (List.replicate 4 (some ⟨[], []⟩)) x).isNone) = false ∧
      (List.range 4).filter (s.gaugeValid []) = []) ∧
    (∀ s, s = stageSt 8 .full (planned up) → s.flash.owned = true ∧ s.flash.settings.plan.isSome = true ∧ s.cast.run ≠ .joining ∧
      s.coordOfDigest s.ownDigest = some 0x010) ∧
    (∀ s, s = stageSt 8 → s.coordOfDigest s.ownDigest = none ∧ s.cast.run ≠ .joining) ∧
    (∀ s, s = stageSt 9 → s.joinFlock.twin.paired = false) ∧
    (∀ s, s = stageSt 9 .full twinUp → s.joinFlock.twin.paired = true ∧ s.joinFlock.twin.handshake = false) ∧
    (∀ st ∈ [(0 : BitVec 4), 1, 2, 3, 4, 5, 6, 7], (stageSt st).passed (stageSt st).cast.stageStart (stageLimit st.toNat) = true) ∧
    (∀ h ∈ [(1 : BitVec 2), 2, 3], ∀ s, s = heldIn h → s.pwr.aux = true ∧ s.cast.held = true ∧ s.shep.hard = false ∧ s.cast.hold = h) ∧
    (∀ s, s = heldIn 3 → s.shepOn = true ∧ s.cast.planWait = true ∧ s.passed s.cast.stageStart 1000000000 = true ∧
      s.passed s.cast.lastRetry 1000000000 = true ∧ s.flash.owned = true ∧ s.passed s.cast.lastReport 6000000000 = true) ∧
    StartsEarly (cmd up 8 (blk 0x25 [])) 8 0x25 (blk 0x25 []) ∧
    (up.planOk { version := 2, pod := 5, epoch := 0 } = true ∧ up.planOk { version := 0, pod := 5, epoch := 0 } = false ∧
      up.ctlFail (ctlSigned up) = none ∧ up.flash.owned = true ∧ up.cast.hold ≠ 1) ∧
    (∀ s, s = stageSt 3 → s.cast.run.next s.cast.stage.toNat = some 4) ∧ (∀ s, s = stageSt 9 → s.cast.run.next s.cast.stage.toNat = none) ∧
    (∀ s, s = stageSt 7 .main { up with shep := { up.shep with penned := true } } → s.cast.stage = 7 ∧ s.cast.run = .main ∧
      s.padReady = true) := by
  refine ⟨fun st h => ?_, fun s h => ?_, fun s h => ?_, fun s h => ?_, fun s h => ?_, fun s h => ?_, fun s h => ?_, fun s h => ?_, fun st h => ?_,
    fun k hk s h => ?_, fun s h => ?_, early_of (by decide), ⟨by decide, by decide, ctlSigned_passes (by decide) (by decide), by decide, by decide⟩,
    fun s h => ?_, fun s h => ?_, fun s h => ?_⟩
  · fin_cases h <;> decide
  · subst h; decide
  · subst h; decide
  · subst h; decide
  · subst h; decide
  · subst h; decide
  · subst h; decide +kernel
  · subst h; decide +kernel
  · fin_cases h <;> decide
  · fin_cases hk <;> subst h <;> decide
  all_goals subst h; decide

/-- SCA_ADD and STO_ST8 go on from a state of the tests. -/
theorem wit_StageFrames :
    (stageWord (.scaAdd 7 .reg ⟨0, fr 3 1 2 0 0⟩) = some (7, wordOf 8 0 ⟨0, fr 3 1 2 0 0⟩) ∧ wMajor (wordOf 8 0 ⟨0, fr 3 1 2 0 0⟩) = 0x08 ∧
      ((at7 8 0 (fr 3 1 2 0 0)).tile 7).owner < 4 ∧ ∃ u, exec (.scaAdd 7 .reg ⟨0, fr 3 1 2 0 0⟩) (at7 8 0 (fr 3 1 2 0 0)) = .next u) ∧
    (∀ n f, (n, f) ∈ [(1, 16), (2, 17), (4, 18), (8, 19), (32, 1)] → ∃ x : Ctx, x = (at7 40 f (fi 3 2 64) win).ctx 7 0 ∧
      63 < winAddr 7 x (effAddr x 2 64 n)) ∧
    (∃ u, exec (.stoSt8 7 ⟨0, fi 3 2 64⟩) (at7 40 16 (fi 3 2 64) win) = .next u) := by
  refine ⟨⟨by decide, by decide, by decide, _, rfl⟩, fun n f h => ⟨_, rfl, ?_⟩, ⟨_, rfl⟩⟩
  fin_cases h <;> decide

theorem wit_MemoryFormKept : Memory.wf { up with pending := [.tbTick []] } = true ∧
    ∃ u, step { up with pending := [.tbTick []] } = .next u := ⟨by decide, _, rfl⟩

/-- A register of TWIN at 0x200 that is wide, a block whose domain is off, and each row of Table 16-1. -/
theorem wit_RegisterReads :
    ((12 : Nat) ≠ 4 ∧ (12 : Nat) ≠ 8 ∧ 0x204 % 8 ≠ 0 ∧ blkAt 0xFFFFFFFF = none) ∧
    (∀ b n o, (b, n, o) = (Blk.fab, 0, 4) → blkAt 0xC00004 = some (b, n, o) ∧ mainOffUp.blkOn b n = false ∧ up.blkOn b n = true ∧
      b ≠ .tally ∧ 0xC00004 % 4 = 0) ∧
    (∃ d is, regAt .gate 0 0x200 = some (d, is, false) ∧ regAt .gate 0 0x204 = some (d, is, true)) ∧
    (({ up with pwr := { up.pwr with aux := false } } : State).pwr.aux = false ∧ up.pwr.aux = true ∧
      ({ up with pwr := { up.pwr with mainBarred := true } } : State).pwr.mainBarred = true ∧ up.pwr.mainBarred = false ∧
      ({ up with shep := { up.shep with hard := true } } : State).shep.hard = true ∧ up.shep.hard = false ∧ up.cast.held = false ∧
      ({ up with shep := { up.shep with penned := true } } : State).shep.penned = true ∧ up.shep.penned = false ∧ up.shep.paddock = false ∧
      (stageSt 3).cast.running = true ∧ up.cast.running = false ∧ up.cast.ready = true) := by
  refine ⟨by decide, fun b n o h => ?_, ⟨_, _, rfl, rfl⟩, by decide⟩
  cases h; decide

theorem wit_ResetIdles : State.reset.pending = [] ∧ step State.reset = .next State.reset := ⟨rfl, rfl⟩

end Sys2Proof.Tests
end

section
/-! Beats and timebase (00, R33): a write of the beat window. -/

namespace Sys2Proof.Machine

/-- The range rule of TILEnn.BEAT_CTL.window (R32): a value outside the range is replaced by the nearer end. -/
theorem clampWindow_eq_nearer_end (w : BitVec 20) :
    clampWindow w = if w.toNat < 1000 then 1000 else if 1000000 < w.toNat then 1000000 else w := by
  unfold clampWindow
  split_ifs with hlow hhigh
  · rw [max_eq_left (by omega)]; rfl
  · rw [min_eq_left (by omega)]; rfl
  · rw [min_eq_right (by omega), max_eq_right (by omega), BitVec.ofNat_toNat, BitVec.setWidth_eq]

theorem exec_beatWindowWrite (die : Nat) (w : BitVec 20) (beats : BitVec 32) (s : State) :
    exec (.beatWindowWrite die w beats) s = execBeatWindowWrite die w beats s := rfl

theorem exec_minRearm (die : Nat) (s : State) : exec (.minRearm die) s = execMinRearm die s := rfl

/-- A window that differs from the one in force abandons the window in progress. -/
theorem execBeatWindowWrite_of_window_ne {die : Nat} {w : BitVec 20} (beats : BitVec 32) {s : State}
    (hon : s.dieOn die = true) (hne : clampWindow w ≠ (s.die die).window) :
    let d := s.die die
    let count := stickAdd d.beatCount beats.toNat
    execBeatWindowWrite die w beats s = .next
      ((s.setDie die { d with
        window := clampWindow w, windowStart := s.tb + 1, beatCount := count
        countOvf := d.countOvf || decide (count = stickMax 64) }).stuck (0x2000000 + 0x400000 * die + 0x3F0010)
          d.beatCount count) :=
  doIf_true (by rw [hon, decide_eq_true hne, Bool.and_self])

theorem execBeatWindowWrite_of_window_eq {die : Nat} {w : BitVec 20} (beats : BitVec 32) {s : State}
    (heq : clampWindow w = (s.die die).window) : execBeatWindowWrite die w beats s = .next s :=
  doIf_false (by rw [decide_eq_false (not_not_intro heq), Bool.and_false])

theorem execMinRearm_of_dieOn {die : Nat} {s : State} (hon : s.dieOn die = true) :
    execMinRearm die s = .next (s.updDie die fun d => { d with beatMin := 0xFFFFFFFF }) :=
  doIf_true hon

/-- Settles O38: a write of the beat window takes effect exactly when the value, after the range rule, differs
from the one in force (R33). -/
theorem beatWindowWrite : Obligations.BeatWindowWrite := by
  intro die w beats s hon d count inForce
  have hforce : inForce = clampWindow w := (clampWindow_eq_nearer_end w).symm
  rw [hforce, exec_beatWindowWrite, exec_minRearm]
  refine ⟨fun hne => ?abandoned, fun heq => ?unchanged, ?rearmed⟩
  case abandoned => exact execBeatWindowWrite_of_window_ne beats hon hne
  case unchanged => exact execBeatWindowWrite_of_window_eq beats heq
  case rearmed => exact execMinRearm_of_dieOn hon

end Sys2Proof.Machine
end

section
/-! Hardware loops (04, R83): what the setup of a loop makes of the context that issues it. -/

namespace Sys2Proof.Machine

/-- The context after a count of 0: level `l` is inactive, its other fields as they were. -/
def Ctx.dropLoop (x : Ctx) (l : Nat) : Ctx := x.setLoop l { x.loop l with active := false }

/-- The context after a count `n` above 0 at `pc`: a fresh loop of `len` words on level `l`. -/
def Ctx.openLoop (x : Ctx) (l pc len : Nat) (n : BitVec 32) : Ctx :=
  x.setLoop l {
    start := BitVec.ofNat 15 (pc + 1), last := BitVec.ofNat 15 (pc + len), remaining := n, index := 0, active := true }

/-- The state after a completed loop setup of count `n`: the level is dropped and the pc goes past the body, or the
level is opened and the pc goes on to the first word of the body; enclosing loops are evaluated in both cases. -/
def State.loopSet (s : State) (t c pc : Nat) (b : BitVec 47) (n : BitVec 32) : State :=
  let at_ := (s.ctx t c).pc.toNat
  if n = 0 then
    (s.updCtx t c fun x => x.dropLoop (loopLvl b)).updCtx t c fun x => x.advance pc (at_ + loopLen b + 1)
  else (s.updCtx t c fun x => x.openLoop (loopLvl b) at_ (loopLen b) n).updCtx t c fun x => x.advance pc (pc + 1)

theorem exec_ctlLoop (t : Nat) (o : Op) (s : State) : exec (.ctlLoop t o) s = execCtlLoop t o s := rfl

theorem exec_ctlLoopi (t : Nat) (o : Op) (s : State) : exec (.ctlLoopi t o) s = execCtlLoopi t o s := rfl

theorem startLoop_zero (s : State) (t c : Nat) (b : BitVec 47) :
    startLoop s t c b 0 = .skip (s.updCtx t c fun x => x.dropLoop (loopLvl b))
      ((s.ctx t c).pc.toNat + loopLen b + 1) := by
  rw [startLoop, if_pos rfl]; rfl

theorem startLoop_of_ne_zero (s : State) (t c : Nat) (b : BitVec 47) {n : BitVec 32} (hn : n ≠ 0) :
    startLoop s t c b n =
      .done (s.updCtx t c fun x => x.openLoop (loopLvl b) (s.ctx t c).pc.toNat (loopLen b) n) := if_neg hn

/-- The completion of a loop setup: a `.skip` past the body for a count of 0, a `.done` otherwise. -/
theorem settle_startLoop (s : State) (t c pc : Nat) (w : Word) (b : BitVec 47) (n : BitVec 32) :
    (startLoop s t c b n).settle t c pc w = s.loopSet t c pc b n := by
  by_cases hn : n = 0
  case pos => rw [hn, startLoop_zero, State.loopSet, if_pos rfl]; rfl
  case neg => rw [startLoop_of_ne_zero s t c b hn, State.loopSet, if_neg hn]; rfl

/-- A LOOP that issues takes its count from the low word of register `sa`. -/
theorem execCtlLoop_issues {t c : Nat} {o : Op} {s : State} (h : Issues s t c 0x00 0x04 o) :
    execCtlLoop t o s = .next ((issued s t c).loopSet t c (s.ctx t c).pc.toNat o.body
      ((((issued s t c).ctx t c).getS (fA o.body)).setWidth 32)) := by
  rw [execCtlLoop, stage_issues h, settle_startLoop]

/-- A LOOPI that issues takes its count from the word. -/
theorem execCtlLoopi_issues {t c : Nat} {o : Op} {s : State} (h : Issues s t c 0x00 0x05 o) :
    execCtlLoopi t o s = .next ((issued s t c).loopSet t c (s.ctx t c).pc.toNat o.body
      (BitVec.ofNat 32 (loopCount o.body))) := by
  rw [execCtlLoopi, stage_issues h, settle_startLoop]

/-- Settles O7: LOOP and LOOPI differ only in where the count comes from; what a count makes of the level and of the
pc is `State.loopSet` for both (R83). -/
theorem loopSetup : Obligations.LoopSetup := by
  intro t c o s n s1 x pc l len next
  have hset : next = s1.loopSet t c pc o.body n := rfl
  rw [hset]
  refine ⟨fun hissue hcount => ?loop, fun hissue hcount => ?loopi⟩
  case loop => rw [hcount, exec_ctlLoop, execCtlLoop_issues hissue]
  case loopi => rw [hcount, exec_ctlLoopi, execCtlLoopi_issues hissue]

end Sys2Proof.Machine
end

section
/-! Checks of a flock message (07, R189, R192, R193): the answer of `flockRx` at each check failed first, and the
instruction that brings each message. -/

namespace Sys2Proof.Machine

/-- The part of `exec` for the instruction that brings a flock message, by the message's body. -/
def execFlock (h : FlockHdr) : FlockBody → State → Res
  | .gossip twin es => execGossip h twin es
  | .selfReport kind code group detail => execSelfReport h kind code group detail
  | .verdict c classes => execVerdict h c classes
  | .pen c cause => execPen h c cause
  | .unpen c digest => execUnpen h c digest
  | .claim members => execClaim h members
  | .accuse c job gen tile row => execAccuse h c job gen tile row
  | .probeOrder c prober tile => execProbeOrder h c prober tile
  | .probeResult c result dies => execProbeResult h c result dies
  | .expelReq score cause ind => execExpelReq h score cause ind
  | .expelOrder c slot left => execExpelOrder h c slot left
  | .expelRefused c reasons => execExpelRefused h c reasons
  | .admission c prev digest => execAdmitMsg h c prev digest

/-- Every message but a graduate's (R282) goes through the checks of R193 with its alive counter kept under its
sender's coordinate. -/
theorem execFlock_eq_flockRx (h : FlockHdr) (s : State) {b : FlockBody} (hb : b.graduate = false) :
    ∃ f, execFlock h b s = flockRx s h b h.sender.toNat f := by
  cases b with
  | selfReport kind code group detail =>
    have hkey : (if kind = 4 then 2048 + detail.toNat else h.sender.toNat) = h.sender.toNat :=
      if_neg (of_decide_eq_false hb)
    rw [execFlock, execSelfReport, hkey]
    exact ⟨_, rfl⟩
  | _ => dsimp only [execFlock]; exact ⟨_, rfl⟩

/-- The state in which the counter of a message is kept with its sender, accepted or not (R378). -/
def State.keepAlive (s : State) (key : Nat) (n : Byte) : State :=
  { s with shep := { s.shep with senders := tabSet (fun _ => {}) s.shep.senders key ((s.sender key).hear n).1 } }

/-- The counter of drops that the alive rule adds to, where it refuses the message. -/
def Heard.dropIndex : Heard → Option Nat
  | .again => some 4
  | .jump => some 5
  | .accepted _ => none

theorem flockWhole_iff {h : FlockHdr} {b : FlockBody} :
    flockWhole h b = true ↔ h.len = 128 ∧ h.crc = flockCrc h b := decide_eq_true_iff

theorem flockTypeKnown_iff {t : Byte} : flockTypeKnown t = true ↔ 1 ≤ t.toNat ∧ t.toNat ≤ 0x0D := decide_eq_true_iff

theorem State.flockSigned_iff {s : State} {h : FlockHdr} {b : FlockBody} :
    s.flockSigned h b = true ↔ ∃ e, e ∈ s.epochs ∧ h.tag = s.flockTag e h b := by
  simp only [State.flockSigned, List.any_eq_true, decide_eq_true_eq]

section
variable {s : State} {h : FlockHdr} {b : FlockBody} {key : Nat} {f : State → State}

theorem flockRx_of_fenced (hon : s.shepOn = true) (howned : s.flash.owned = true) (hopen : s.flockOpen h = true)
    (hfenced : s.flockFenced h = true) :
    flockRx s h b key f = .next (s.countDrop (h.via.toNat - 2) dFenced) := by
  rw [flockRx, if_neg (by simp [hon, howned, hopen]), if_pos hfenced]

theorem Reaches.not_deaf (hr : Reaches s h) : ¬ (!s.shepOn || !s.flash.owned || !s.flockOpen h) = true := by
  obtain ⟨hon, howned, hopen, -⟩ := hr
  simp [hon, howned, hopen]

theorem Reaches.not_fenced (hr : Reaches s h) : ¬ s.flockFenced h = true := by
  obtain ⟨-, -, -, hfenced⟩ := hr
  simp [hfenced]

section
variable (hr : Reaches s h)
include hr

theorem flockRx_of_not_whole (hw : flockWhole h b = false) : flockRx s h b key f = .next (s.flockDrop 0) := by
  rw [flockRx, if_neg hr.not_deaf, if_neg hr.not_fenced, if_pos (by simp [hw])]

variable (hw : flockWhole h b = true)
include hw

theorem flockRx_of_bad_version (hv : h.version ≠ 1 ∨ flockTypeKnown h.type = false) :
    flockRx s h b key f = .next (s.flockDrop 1) := by
  rw [flockRx, if_neg hr.not_deaf, if_neg hr.not_fenced, if_neg (by simp [hw]), if_pos hv]

variable (hv : h.version = 1) (ht : flockTypeKnown h.type = true)
include hv ht

theorem flockRx_of_other_pod (hp : s.flash.settings.plan.map (·.pod) ≠ some h.pod) :
    flockRx s h b key f = .next (s.flockDrop 2) := by
  rw [flockRx, if_neg hr.not_deaf, if_neg hr.not_fenced, if_neg (by simp [hw]), if_neg (by simp [hv, ht]),
    if_pos hp]

variable (hp : s.flash.settings.plan.map (·.pod) = some h.pod)
include hp

theorem flockRx_of_unsigned (hs : s.flockSigned h b = false) : flockRx s h b key f = .next (s.flockDrop 3) := by
  rw [flockRx, if_neg hr.not_deaf, if_neg hr.not_fenced, if_neg (by simp [hw]), if_neg (by simp [hv, ht]),
    if_neg (not_not_intro hp), if_pos (by simp [hs])]

/-- A counter that the alive rule refuses stays with its sender (R378), the message being dropped. -/
theorem flockRx_of_alive_refused {i : Nat} (hs : s.flockSigned h b = true) (hb : h.type = b.type)
    (ha : ((s.sender key).hear h.alive).2.dropIndex = some i) :
    flockRx s h b key f = .next ((s.keepAlive key h.alive).flockDrop i) := by
  rw [flockRx, if_neg hr.not_deaf, if_neg hr.not_fenced, if_neg (by simp [hw]), if_neg (by simp [hv, ht]),
    if_neg (not_not_intro hp), if_neg (by simp [hs]), if_neg (not_not_intro hb)]
  dsimp only
  split
  next hagain => rw [hagain] at ha; cases ha; rfl
  next hjump => rw [hjump] at ha; cases ha; rfl
  next hacc => rw [hacc] at ha; cases ha
end
end

/-- Settles O49: each of the thirteen instructions runs `flockRx`, whose answer is the drop of the first check that
fails. -/
theorem flockChecksInOrder : Obligations.FlockChecksInOrder := by
  intro h s hon howned hopen ends whole verOk podOk signed heard kept
  have hends : ∀ {P : FlockBody → Prop} {u : State},
      (∀ b f, P b → flockRx s h b h.sender.toNat f = .next u) → ends P u := by
    intro P u hrx
    have hexec : ∀ b : FlockBody, b.graduate = false → P b → execFlock h b s = .next u := by
      intro b hb hP
      obtain ⟨f, hf⟩ := execFlock_eq_flockRx h s hb
      exact hf.trans (hrx b f hP)
    exact ⟨fun tw es => hexec (.gossip tw es) rfl,
      fun k cd g d hk => hexec (.selfReport k cd g d) (decide_eq_false hk),
      fun c cl => hexec (.verdict c cl) rfl,
      fun c k => hexec (.pen c k) rfl,
      fun c d => hexec (.unpen c d) rfl,
      fun m => hexec (.claim m) rfl,
      fun c j g t r => hexec (.accuse c j g t r) rfl,
      fun c p t => hexec (.probeOrder c p t) rfl,
      fun c r d => hexec (.probeResult c r d) rfl,
      fun x k l => hexec (.expelReq x k l) rfl,
      fun c x y => hexec (.expelOrder c x y) rfl,
      fun c r => hexec (.expelRefused c r) rfl,
      fun c p d => hexec (.admission c p d) rfl⟩
  clear_value ends
  have hver : verOk ↔ h.version = 1 ∧ flockTypeKnown h.type = true := and_congr_right' flockTypeKnown_iff.symm
  refine ⟨fun hvia hfence => hends fun b f _ => ?fenced, fun hfence => ?reaches⟩
  case fenced => exact flockRx_of_fenced hon howned hopen (by simp [State.flockFenced, hvia, hfence])
  case reaches =>
    have hr : Reaches s h := ⟨hon, howned, hopen, hfence⟩
    refine ⟨hends fun b f hw => ?length, fun hv => hends fun b f hw => ?version, fun hv hp => hends fun b f hw => ?pod,
      fun hv hp => hends fun b f ⟨hw, hs⟩ => ?tag, fun hv hp ha => hends fun b f ⟨hw, hs, hb⟩ => ?again,
      fun hv hp ha => hends fun b f ⟨hw, hs, hb⟩ => ?jump⟩
    case length => exact flockRx_of_not_whole hr (decide_eq_false hw)
    all_goals have hw : flockWhole h b = true := flockWhole_iff.mpr hw
    case version =>
      rw [hver, not_and_or, Bool.not_eq_true] at hv
      exact flockRx_of_bad_version hr hw hv
    all_goals obtain ⟨hv, ht⟩ := hver.mp hv
    case pod => exact flockRx_of_other_pod hr hw hv ht hp
    case tag =>
      exact flockRx_of_unsigned hr hw hv ht hp (Bool.eq_false_iff.mpr (mt State.flockSigned_iff.mp hs))
    all_goals have hs : s.flockSigned h b = true := State.flockSigned_iff.mpr hs
    case again => exact flockRx_of_alive_refused hr hw hv ht hp hs hb (congrArg Heard.dropIndex ha)
    case jump => exact flockRx_of_alive_refused hr hw hv ht hp hs hb (congrArg Heard.dropIndex ha)

end Sys2Proof.Machine
end

section
/-! Watch and the expulsion request (10, R276): what sending a flock message leaves alone, and what a write of the
score makes of the watch, of the module's own request and of what leaves the module. -/

namespace Sys2Proof.Machine

/-! ### What sending leaves alone -/

/-- A state without the parts that sending writes: fabric dies, links, events raised and outputs. -/
def State.unsent (s : State) : State := { s with fabs := [], links := [], raised := [], out := [] }

/-- A fold of operations that write no other part than sending does. -/
theorem unsent_foldl {β : Type} {f : State → β → State} (hf : ∀ s b, (f s b).unsent = s.unsent) (l : List β)
    (s : State) : (l.foldl f s).unsent = s.unsent := by
  rw [← List.foldl_hom State.unsent (g₂ := fun v _ => v) fun s b => (hf s b).symm, List.foldl_fixed]

@[simp] theorem State.emit_unsent (s : State) (o : Output) : (s.emit o).unsent = s.unsent := rfl
@[simp] theorem State.setLink_unsent (s : State) (fd k : Nat) (v : Link) : (s.setLink fd k v).unsent = s.unsent := rfl
@[simp] theorem State.updFab_unsent (s : State) (fd : Nat) (f : Fab → Fab) : (s.updFab fd f).unsent = s.unsent := rfl
@[simp] theorem State.countDrop_unsent (s : State) (fd r : Nat) : (s.countDrop fd r).unsent = s.unsent := rfl
@[simp] theorem State.queueOn_unsent (s : State) (fd k : Nat) (p : Packet) : (s.queueOn fd k p).unsent = s.unsent := rfl
@[simp] theorem State.sendFlit_unsent (s : State) (fd k : Nat) (t : BitVec 4) (q : BitVec 12) (d : Option FlitData) :
    (s.sendFlit fd k t q d).unsent = s.unsent := rfl

@[simp] theorem State.sendNotice_unsent (s : State) (fd r : Nat) (p : Packet) :
    (s.sendNotice fd r p).unsent = s.unsent := by
  unfold State.sendNotice
  extract_lets notice tile recent
  split
  next => simp
  next noted sent _ =>
    have hnoted : noted.unsent = s.unsent := s.updFab_unsent fd _
    split_ifs
    · simp [hnoted]
    · simp [hnoted]
    · split <;> simp [hnoted]

@[simp] theorem State.dropQuiet_unsent (s : State) (fd r : Nat) (p : Packet) :
    (s.dropQuiet fd r p).unsent = s.unsent := by
  unfold State.dropQuiet
  dsimp only
  split <;> simp

@[simp] theorem State.pumpOne_unsent (s : State) (fd k : Nat) : (s.pumpOne fd k).unsent = s.unsent := by
  unfold State.pumpOne
  dsimp only
  repeat' split
  all_goals simp

@[simp] theorem State.pumpOnce_unsent (s : State) (fd k : Nat) : (s.pumpOnce fd k).unsent = s.unsent := by
  unfold State.pumpOnce
  generalize 16 * (s.link fd k).txq.length = n
  induction n generalizing s with
  | zero => rfl
  | succ n ih => rw [State.pumpN, ih, State.pumpOne_unsent]

@[simp] theorem State.pumpNotices_unsent (n : Nat) (s : State) : (State.pumpNotices n s).unsent = s.unsent := by
  induction n generalizing s with
  | zero => rfl
  | succ n ih => rw [State.pumpNotices, ih, unsent_foldl fun s _ => State.pumpOnce_unsent s _ _]

@[simp] theorem State.dropPacket_unsent (s : State) (fd r : Nat) (p : Packet) :
    (s.dropPacket fd r p).unsent = s.unsent := by simp [State.dropPacket]

@[simp] theorem State.forward_unsent (s : State) (fd : Nat) (p : Packet) : (s.forward fd p).unsent = s.unsent := by
  unfold State.forward
  split_ifs
  case neg => split <;> simp [State.pump]
  all_goals simp

@[simp] theorem State.sendPacket_unsent (s : State) (fd : Nat) (p : Packet) :
    (s.sendPacket fd p).unsent = s.unsent := by
  unfold State.sendPacket
  split <;> simp

@[simp] theorem State.datagrams_unsent (s : State) (bytes : List Byte) : (s.datagrams bytes).unsent = s.unsent := by
  unfold State.datagrams
  dsimp only
  split_ifs <;> simp

@[simp] theorem State.flockPackets_unsent (s : State) (b : FlockBody) (bytes : List Byte) :
    (s.flockPackets b bytes).unsent = s.unsent := by
  unfold State.flockPackets
  split
  · exact unsent_foldl (fun s _ => State.sendPacket_unsent s _ _) _ _
  · rfl

/-! ### What R276 speaks of, under the operations of the flock -/

/-- A flock message writes two registers of the Shepherd: its alive counter and its sequence number. -/
theorem State.flock_shep (s : State) (b : FlockBody) : (s.flock b).shep =
    { s.shep with aliveTx := (s.flock b).shep.aliveTx, seqTx := (s.flock b).shep.seqTx } := by
  have hsent (u : State) (bytes : List Byte) : ((u.datagrams bytes).flockPackets b bytes).shep = u.shep :=
    congrArg (fun v => v.shep) ((State.flockPackets_unsent _ b bytes).trans (u.datagrams_unsent bytes))
  unfold State.flock
  dsimp only
  split
  · rw [hsent]
  · rfl

@[simp] theorem State.flock_standing (s : State) (b : FlockBody) :
    (s.flock b).shep.score = s.shep.score ∧ (s.flock b).shep.watch = s.shep.watch ∧
    (s.flock b).shep.expelOpen = s.shep.expelOpen ∧ (s.flock b).shep.bellwether = s.shep.bellwether := by
  rw [s.flock_shep b]
  exact ⟨rfl, rfl, rfl, rfl⟩

@[simp] theorem State.learnBell_standing (s : State) :
    s.learnBell.shep.score = s.shep.score ∧ s.learnBell.shep.watch = s.shep.watch ∧
    s.learnBell.shep.expelOpen = s.shep.expelOpen ∧ s.learnBell.out = s.out := by
  unfold State.learnBell
  split <;> exact ⟨rfl, rfl, rfl, rfl⟩

/-- A Shepherd that is not the bellwether does not become it by learning which member is. -/
theorem State.learnBell_bellwether {s : State} (h : s.shep.bellwether = false) :
    s.learnBell.shep.bellwether = false := by
  unfold State.learnBell
  split
  · exact h
  · rfl

@[simp] theorem State.dropRequest_standing (s : State) (c : Coord) :
    (s.dropRequest c).shep.score = s.shep.score ∧ (s.dropRequest c).shep.watch = s.shep.watch ∧
    (s.dropRequest c).shep.expelOpen = s.shep.expelOpen ∧ (s.dropRequest c).out = s.out := by
  unfold State.dropRequest
  split <;> exact ⟨rfl, rfl, rfl, rfl⟩

@[simp] theorem State.sendSide_standing (s : State) (type kind : Byte) :
    (s.sendSide type kind).shep.score = s.shep.score ∧ (s.sendSide type kind).shep.watch = s.shep.watch := by
  unfold State.sendSide
  split <;> exact ⟨rfl, rfl⟩

@[simp] theorem State.selfReport_standing (s : State) (kind code : Byte) :
    (s.selfReport kind code).shep.score = s.shep.score ∧ (s.selfReport kind code).shep.watch = s.shep.watch := by
  unfold State.selfReport
  dsimp only
  split <;> simp

@[simp] theorem State.enterOrder_standing (s : State) (c : Coord) (slot : Nat) :
    (s.enterOrder c slot).shep.score = s.shep.score ∧ (s.enterOrder c slot).shep.watch = s.shep.watch := by
  unfold State.enterOrder State.beginBindOff
  dsimp only
  split <;> simp [State.setBudget]

/-- An evaluation leaves the score alone and never ends the watch: a refusal of the own request begins it (R278). -/
theorem State.evaluate_standing (s : State) (r : ExpelReq) :
    (s.evaluate r).shep.score = s.shep.score ∧ (s.shep.watch = true → (s.evaluate r).shep.watch = true) := by
  unfold State.evaluate
  dsimp only
  split
  case h_1 => simp
  case h_2 => simp +contextual [apply_ite State.shep, apply_ite Shep.score]

theorem State.ownRequest_standing (s : State) (score : Byte) :
    (s.ownRequest score).shep.score = s.shep.score ∧
    (s.shep.watch = true → (s.ownRequest score).shep.watch = true) := by
  unfold State.ownRequest
  split
  · exact s.evaluate_standing _
  · exact ⟨rfl, id⟩

theorem State.ownRequest_of_not_bellwether {s : State} (score : Byte) (h : s.shep.bellwether = false) :
    s.ownRequest score = s := by
  simp [State.ownRequest, h]

/-! ### A write of the score -/

/-- A score brings an expulsion request: it is below the threshold, no request is open, and the module is a member
that does not bind off. -/
def State.asksExpulsion (s : State) (score : Byte) : Bool :=
  decide (score.toNat < s.shep.expelThr.toNat) && !s.shep.expelOpen && s.shep.member && s.twin.bindOff.isNone

/-- The watch under a score, with its hysteresis of 8. -/
def State.watchAt (s : State) (score : Byte) : Bool :=
  if score.toNat < s.shep.watchThr.toNat then true
  else if s.shep.watchThr.toNat + 8 ≤ score.toNat then false else s.shep.watch

/-- Whether the own request stands open under a score, with its hysteresis of 8. -/
def State.expelOpenAt (s : State) (score : Byte) : Bool :=
  if s.asksExpulsion score then true
  else if s.shep.expelThr.toNat + 8 ≤ score.toNat then false else s.shep.expelOpen

/-- The state with the score and what follows from it, before any message leaves. -/
def State.withScore (s : State) (score : Byte) : State :=
  let u : State := { s with shep := { s.shep with
    score := score, watch := s.watchAt score, expelOpen := s.expelOpenAt score } }
  if s.shep.expelThr.toNat + 8 ≤ score.toNat ∧ s.shep.hasCoord = true then u.dropRequest s.shep.coord else u

/-- The state once the request, if the score brings one, has left and the bellwether has evaluated its own. -/
def State.scored (s : State) (score : Byte) : State :=
  if s.asksExpulsion score then
    (((s.withScore score).flock (.expelReq score 1 s.indList)).learnBell).ownRequest score
  else (s.withScore score).learnBell

theorem exec_scoreWrite {s : State} {score : Byte} (hon : s.shepOn = true) (hhard : s.shep.hard = false)
    (hne : score ≠ 0) : exec (.scoreWrite score) s = .next (s.scored score) := by
  change execScoreWrite score s = _
  simp only [execScoreWrite, doIf, hon, hhard, hne, State.scored, State.withScore, State.expelOpenAt, State.watchAt,
    State.asksExpulsion, Bool.and_eq_true, decide_eq_true_eq, Bool.not_false, Bool.and_true, if_true, if_false,
    Bool.false_eq_true]

@[simp] theorem State.withScore_standing (s : State) (score : Byte) :
    (s.withScore score).shep.score = score ∧ (s.withScore score).shep.watch = s.watchAt score ∧
    (s.withScore score).shep.expelOpen = s.expelOpenAt score ∧ (s.withScore score).out = s.out := by
  unfold State.withScore
  dsimp only
  split <;> simp

/-- A score neither gives the role of bellwether nor takes it. -/
theorem State.withScore_bellwether (s : State) (score : Byte) :
    (s.withScore score).shep.bellwether = s.shep.bellwether := by
  unfold State.withScore State.dropRequest
  dsimp only
  split_ifs <;> rfl

theorem State.scored_of_asks {s : State} {score : Byte} (h : s.asksExpulsion score = true) : s.scored score =
    (((s.withScore score).flock (.expelReq score 1 s.indList)).learnBell).ownRequest score := if_pos h

/-- A Shepherd that is not the bellwether evaluates nothing after its request. -/
theorem State.scored_of_asks_not_bellwether {s : State} {score : Byte} (h : s.asksExpulsion score = true)
    (hb : s.shep.bellwether = false) :
    s.scored score = ((s.withScore score).flock (.expelReq score 1 s.indList)).learnBell := by
  rw [State.scored_of_asks h]
  refine State.ownRequest_of_not_bellwether _ (State.learnBell_bellwether ?_)
  simp [State.withScore_bellwether, hb]

theorem State.scored_of_not_asks {s : State} {score : Byte} (h : s.asksExpulsion score = false) :
    s.scored score = (s.withScore score).learnBell := if_neg (by simp [h])

theorem State.asksExpulsion_of_le {s : State} {score : Byte} (h : s.shep.expelThr.toNat ≤ score.toNat) :
    s.asksExpulsion score = false := by
  simp [State.asksExpulsion, Nat.not_lt.mpr h]

/-- One request: an open one brings no second (R276). -/
theorem State.asksExpulsion_of_open {s : State} (score : Byte) (h : s.shep.expelOpen = true) :
    s.asksExpulsion score = false := by
  simp [State.asksExpulsion, h]

theorem State.scored_score (s : State) (score : Byte) : (s.scored score).shep.score = score := by
  unfold State.scored
  split
  · simp [(State.ownRequest_standing _ score).1]
  · simp

theorem State.scored_watch_of_watchAt {s : State} {score : Byte} (h : s.watchAt score = true) :
    (s.scored score).shep.watch = true := by
  unfold State.scored
  split
  · exact (State.ownRequest_standing _ score).2 (by simp [h])
  · simp [h]

/-- The watch follows the score alone, unless a bellwether evaluates its own request. -/
theorem State.scored_watch {s : State} {score : Byte}
    (h : s.shep.bellwether = false ∨ s.asksExpulsion score = false) :
    (s.scored score).shep.watch = s.watchAt score := by
  cases hask : s.asksExpulsion score with
  | false => simp [State.scored_of_not_asks hask]
  | true =>
    have hb : s.shep.bellwether = false := h.resolve_right (by simp [hask])
    simp [State.scored_of_asks_not_bellwether hask hb]

/-- Settles O51: `State.scored` is the state after the write, and the watch, the request and its withdrawal are read
off its two branches. -/
theorem watchAndExpulsionRequest : Obligations.WatchAndExpulsionRequest := by
  refine ⟨⟨rfl, rfl⟩, fun score s hon hhard hne => ⟨s.scored score, exec_scoreWrite hon hhard hne,
    s.scored_score score, fun hlow => ?watched, fun hquiet => ?hysteresis,
    fun hlow hclosed hmember hbound => ?asks, fun hlow hopen => ?once, fun hhigh => ?withdrawn⟩⟩
  case watched => exact State.scored_watch_of_watchAt (if_pos hlow)
  case hysteresis =>
    rw [State.scored_watch (hquiet.imp_right State.asksExpulsion_of_le), State.watchAt]
    exact ⟨fun hleave => by rw [if_neg (by omega), if_pos hleave],
      fun hge hlt => by rw [if_neg (by omega), if_neg (by omega)]⟩
  case asks =>
    have hask : s.asksExpulsion score = true := by simp [State.asksExpulsion, hlow, hclosed, hmember, hbound]
    have hopened : s.expelOpenAt score = true := if_pos hask
    refine ⟨fun hb => ?_, s.withScore score, State.scored_of_asks hask, ?_, ?_⟩
    · simp [State.scored_of_asks_not_bellwether hask hb, hopened]
    · simp
    · simp [hopened]
  case once =>
    have hask := State.asksExpulsion_of_open score hopen
    have hstays : s.expelOpenAt score = true := by
      rw [State.expelOpenAt, hask, if_neg Bool.false_ne_true, if_neg (by omega), hopen]
    simp [State.scored_of_not_asks hask, hstays]
  case withdrawn =>
    have hask : s.asksExpulsion score = false := State.asksExpulsion_of_le (by omega)
    have hends : s.expelOpenAt score = false := by
      rw [State.expelOpenAt, hask, if_neg Bool.false_ne_true, if_pos hhigh]
    simp [State.scored_of_not_asks hask, hends]

end Sys2Proof.Machine
end

section
/-! The window of the Tally Book (14, R369): what TALLY.CURSOR and TALLY.WIN hold after a write of the cursor, after an
event and after a read of the last word, and the book that each source selects. -/

namespace Sys2Proof.Machine

/-- What a reader sees of the book: the cursor and the copy latched for it (R369). -/
def State.window (s : State) : BitVec 13 × List Byte := (s.tally.cursor, s.tally.win)

/-! ### What recording leaves alone -/

@[simp] theorem State.emit_window (s : State) (o : Output) : (s.emit o).window = s.window := rfl
@[simp] theorem State.stuck_window {w : Nat} (s : State) (off : Nat) (old new : BitVec w) :
    (s.stuck off old new).window = s.window := rfl

@[simp] theorem State.msix_window (s : State) (v : BitVec 6) : (s.msix v).window = s.window := by
  unfold State.msix
  split <;> rfl

@[simp] theorem State.misc_window (s : State) (c : Nat) : (s.misc c).window = s.window := by
  unfold State.misc State.miscSignal
  dsimp only
  split_ifs
  · exact State.msix_window _ _
  · rfl

/-- An occurrence is counted, updates its record, takes a free index, overwrites a record or is lost (R364 to R368):
none of these writes the copy. -/
@[simp] theorem State.record_window (s : State) (tb : Word) (e : Event) (refused : Bool) :
    (s.record tb e refused).window = s.window := by
  unfold State.record
  extract_lets _ _ counted _
  have hcounted : counted.window = s.window := by
    unfold counted
    split <;> rfl
  rw [← hcounted]
  split
  case h_1 known => rfl
  case h_2 new =>
    dsimp only
    split
    case h_1 free => rfl
    case h_2 full => split <;> rfl

@[simp] theorem State.ringArrive_window (s : State) (x : Entry) : (s.ringArrive x).1.window = s.window := by
  unfold State.ringArrive Tally.fatalFreeze
  dsimp only
  split_ifs <;> rfl

@[simp] theorem State.arrive_window (s : State) (e : Event) : (s.arrive e).1.window = s.window := by
  unfold State.arrive
  extract_lets _ _ refused charged x
  have hring : (({ s with tally := charged } : State).ringArrive x).1.window = s.window :=
    State.ringArrive_window _ x
  rw [← hring]
  dsimp only
  split_ifs
  · rfl
  · rfl
  · exact State.record_window _ _ e refused

@[simp] theorem State.own_window (s : State) (code : BitVec 16) (sev : BitVec 3) (v : BitVec 32) :
    (s.own code sev v).window = s.window := s.arrive_window _

@[simp] theorem State.applyStaged_window (s : State) : s.applyStaged.window = s.window :=
  List.foldlRecOn (motive := fun u : State => u.window = s.window) s.tally.staging _ rfl
    fun (u : State) hu x _ => (u.record_window x.tb x.ev x.refused).trans hu

@[simp] theorem State.endStaging_window (s : State) : s.endStaging.window = s.window := by
  unfold State.endStaging
  dsimp only
  split_ifs
  · rfl
  · exact s.applyStaged_window
  · exact (State.own_window _ _ _ _).trans s.applyStaged_window

/-! ### The stages of an event -/

/-- The event at the head of those raised is taken from them, where `e` is that event (log entry 12). -/
def State.takeRaised (s : State) (e : Event) : State :=
  match s.raised with
  | [] => s
  | r :: rs => if r.fits e then { s with raised := rs } else s

/-- A fatal event ends a freeze (R371). -/
def State.breakFreeze (s : State) (e : Event) : State :=
  if evFatal e && s.tally.freeze then
    ({ s with tally := { s.tally with freeze := false, freezeBroken := true } } : State).endStaging
  else s

/-- The event arrives, followed by RING_SKIPPED where the ring's write for it is skipped (R375). -/
def State.arriveOrSkip (s : State) (e : Event) : State :=
  let p := s.arrive e
  if p.2 then p.1.own 0xF005 3 (p.1.tally.bbSkipped.setWidth 32) else p.1

/-- A fatal event brings a mirror, the fatal cause of the misc vector and an in-band interrupt. -/
def State.signalFatal (s : State) (e : Event) : State :=
  if evFatal e then
    let u := ({ s with tally := { s.tally with mirrorDue := true } } : State).misc 3
    if u.mgmt.ibiEn && u.mgmt.dynAddr.isSome then u.emit (.ibi 2) else u
  else s

theorem execTallyEvent_eq_stages (e : Event) (s : State) : execTallyEvent e s =
    doIf (s.pwr.aux && decide (e.code ≠ 0)) s
      ((((s.takeRaised e).breakFreeze e).arriveOrSkip e).signalFatal e) := rfl

@[simp] theorem State.takeRaised_window (s : State) (e : Event) : (s.takeRaised e).window = s.window := by
  unfold State.takeRaised
  split
  · rfl
  · split <;> rfl

@[simp] theorem State.breakFreeze_window (s : State) (e : Event) : (s.breakFreeze e).window = s.window := by
  unfold State.breakFreeze
  split
  · exact State.endStaging_window _
  · rfl

@[simp] theorem State.arriveOrSkip_window (s : State) (e : Event) : (s.arriveOrSkip e).window = s.window := by
  unfold State.arriveOrSkip
  dsimp only
  split
  · rw [State.own_window, State.arrive_window]
  · exact State.arrive_window s e

@[simp] theorem State.signalFatal_window (s : State) (e : Event) : (s.signalFatal e).window = s.window := by
  unfold State.signalFatal
  extract_lets _ u
  have hu : u.window = s.window := State.misc_window _ 3
  split_ifs
  · exact hu
  · exact hu
  · rfl

/-- An event, with all that a fatal one brings (R371), leaves the copy as it was latched. -/
theorem execTallyEvent_window {e : Event} {s u : State} (h : execTallyEvent e s = .next u) : u.window = s.window := by
  rw [execTallyEvent_eq_stages] at h
  obtain ⟨-, rfl⟩ | ⟨-, rfl⟩ := doIf_next h
  · simp only [State.signalFatal_window, State.arriveOrSkip_window, State.breakFreeze_window, State.takeRaised_window]
  · rfl

/-! ### The instructions of the window -/

theorem exec_cursorWrite {s : State} (i : BitVec 13) (hon : s.pwr.aux = true) :
    exec (.cursorWrite i) s = .next (s.latch i) := doIf_true hon

theorem exec_windowAutoAdvance {s : State} (hon : s.pwr.aux = true) (hinc : s.tally.autoInc = true) :
    exec .windowAutoAdvance s = .next
      ((s.emit (.window (BitVec.ofNat 32 (fieldB s.tally.win 64 4)))).latch (s.tally.cursor + 1)) := by
  change execWindowAutoAdvance s = _
  rw [execWindowAutoAdvance, doIf_true hon, if_pos hinc]

/-! ### The book of a source -/

theorem State.bookOf_live {s : State} (h : s.tally.source = 0) : s.bookOf = s.tally.book := by
  rw [State.bookOf, h]; rfl

theorem State.bookOf_newest {s : State} {m : Mirror} (h : s.tally.source = 1) (hm : s.flash.mirrors = some m)
    (hc : m.complete = true) : s.bookOf = m.book := by
  rw [State.bookOf, h, hm, Option.filter_some_pos hc]; rfl

theorem State.bookOf_other {s : State} {m : Mirror} (h : s.tally.source = 2) (hm : s.flash.mirrors2 = some m)
    (hc : m.complete = true) : s.bookOf = m.book := by
  rw [State.bookOf, h, hm, Option.filter_some_pos hc]; rfl

/-- Settles O45: only `State.latch` writes the window, and what an event runs keeps `State.window`. -/
theorem tallyWindow : Obligations.TallyWindow := by
  intro s hon
  refine ⟨fun i => ⟨s.latch i, exec_cursorWrite i hon, rfl, rfl⟩, fun e u h => ?event,
    fun hinc => ⟨_, exec_windowAutoAdvance hon hinc, rfl, rfl⟩, State.bookOf_live,
    fun m => State.bookOf_newest, fun m => State.bookOf_other⟩
  case event =>
    obtain ⟨hcursor, hwin⟩ := Prod.mk.inj (execTallyEvent_window h)
    exact ⟨hwin, hcursor⟩

end Sys2Proof.Machine
end

section
/-! The step and the words of stage instructions (04, R77, R78): a stage instruction is its major opcode, its function
code and its operand bits, and issues through `stage`; what is read back from a word, and from which words. -/

namespace Sys2Proof.Machine

open Sys2Proof

/-- Settles O1: `step` is `exec` on the command taken off the queue, by its definition. -/
theorem stepTakesFrontCommand : Obligations.StepTakesFrontCommand := by
  refine ⟨fun c s => rfl, fun s hempty => ?idle⟩
  case idle => rw [step, hempty]

/-! ### What a stage instruction is made of -/

/-- The stage instruction of a major opcode, a function code and operand bits. -/
def stageAt (t : Nat) (o : Op) (fn : Nat) : Nat → Option Instr
  | 0x00 => stageOfCtl t o fn
  | 0x08 => stageOfSca t .reg o fn
  | 0x09 => stageOfSca t .imm o fn
  | 0x10 => stageOfVec t o fn
  | 0x20 => stageOfMat t o fn
  | 0x28 => stageOfSto t o fn
  | 0x2C => stageOfMem t o fn
  | 0x30 => stageOfStr t o fn
  | 0x34 => stageOfFab t o fn
  | 0x38 => stageOfHur t o fn
  | 0x3C => stageOfSys t o fn
  | _ => none

/-- The operand bits of a word. -/
def wOp (w : Word) : Op := { guard := wGuard w, body := wBody w }

theorem stageOf_eq_stageAt (t : Nat) (w : Word) :
    stageOf t w = if legalWord w then stageAt t (wOp w) (wFn w) (wMajor w) else none := rfl

theorem wOp_wordOf {m f : Nat} (o : Op) (hm : m < 64) (hf : f < 64) : wOp (wordOf m f o) = o := by
  rw [wOp, wGuard_wordOf m f o hm hf, wBody_wordOf m f o hm hf]

theorem stageOf_wordOf {t m f : Nat} {o : Op} (hm : m < 64) (hf : f < 64) (hlegal : legalWord (wordOf m f o) = true) :
    stageOf t (wordOf m f o) = stageAt t o f m := by
  rw [stageOf_eq_stageAt, if_pos hlegal, wOp_wordOf o hm hf, wFn_wordOf m f o hm hf, wMajor_wordOf m f o hm hf]

/-! Each shape that meanings of stage instructions share is `stage` on some effect. -/

section
variable (m fn t : Nat) (o : Op)

theorem stageReg_isStage (f : State → Ctx → Ctx) : ∃ g, ∀ s, stageReg m fn t o s f = stage m fn t o s g :=
  ⟨_, fun _ => rfl⟩

theorem sca2_isStage (op : Word → Word → Word) (f : ScaForm) :
    ∃ g, ∀ s, sca2 fn op t f o s = stage (scaMajor f) fn t o s g := stageReg_isStage _ _ _ _ _

theorem vecBin_isStage (draw : Bool) (fi : Nat → Int → Int → Int) (ff : FVal → FVal → FVal × FlagSet) :
    ∃ g, ∀ s, vecBin fn draw fi ff t o s = stage 0x10 fn t o s g := stageReg_isStage _ _ _ _ _

theorem vecBits_isStage (op : Vec → Vec → Vec) : ∃ g, ∀ s, vecBits fn op t o s = stage 0x10 fn t o s g :=
  stageReg_isStage _ _ _ _ _

theorem vecUn_isStage (fi : Int → Int) (ff : Nat → Nat → Nat) :
    ∃ g, ∀ s, vecUn fn fi ff t o s = stage 0x10 fn t o s g := stageReg_isStage _ _ _ _ _

theorem stoLoad_isStage (n : Nat) (signed : Bool) : ∃ g, ∀ s, stoLoad fn n signed t o s = stage 0x28 fn t o s g :=
  ⟨_, fun _ => rfl⟩

theorem stoStore_isStage (n : Nat) : ∃ g, ∀ s, stoStore fn n t o s = stage 0x28 fn t o s g := ⟨_, fun _ => rfl⟩

theorem chTestIn_isStage (f : InEp → Bool) : ∃ g, ∀ s, chTestIn fn t o s f = stage 0x30 fn t o s g :=
  ⟨_, fun _ => rfl⟩

variable {m fn t o} {i : Instr}

theorem exec_ctl_isStage (h : stageOfCtl t o fn = some i) :
    ∃ g, ∀ s, exec i s = stage 0x00 fn t o s g := by
  unfold stageOfCtl at h
  split at h
  all_goals cases h
  all_goals
    delta exec
    dsimp only
    first
    | exact ⟨_, fun _ => rfl⟩
    | exact stageReg_isStage ..

theorem exec_sca_isStage {f : ScaForm} (hm : m = scaMajor f) (h : stageOfSca t f o fn = some i) :
    ∃ g, ∀ s, exec i s = stage m fn t o s g := by
  subst hm
  unfold stageOfSca at h
  split at h
  case h_29 => cases h
  case h_20 | h_21 | h_22 | h_23 | h_24 | h_25 | h_26 | h_27 | h_28 =>
    cases h
    delta exec
    exact stageReg_isStage ..
  all_goals
    cases h
    delta exec
    exact sca2_isStage ..

theorem exec_vec_isStage (h : stageOfVec t o fn = some i) :
    ∃ g, ∀ s, exec i s = stage 0x10 fn t o s g := by
  unfold stageOfVec at h
  split at h
  case h_27 => cases h
  case h_1 | h_2 | h_3 | h_5 | h_6 | h_10 | h_11 =>
    cases h
    delta exec
    exact vecBin_isStage ..
  case h_7 | h_8 | h_9 =>
    cases h
    delta exec
    exact vecBits_isStage ..
  case h_25 | h_26 =>
    cases h
    delta exec
    exact vecUn_isStage ..
  all_goals
    cases h
    delta exec
    exact stageReg_isStage ..

theorem exec_mat_isStage (h : stageOfMat t o fn = some i) :
    ∃ g, ∀ s, exec i s = stage 0x20 fn t o s g := by
  unfold stageOfMat at h
  split at h
  all_goals cases h
  all_goals
    delta exec
    dsimp only
    first
    | exact ⟨_, fun _ => rfl⟩
    | exact stageReg_isStage ..

theorem exec_sto_isStage (h : stageOfSto t o fn = some i) :
    ∃ g, ∀ s, exec i s = stage 0x28 fn t o s g := by
  unfold stageOfSto at h
  split at h
  all_goals cases h
  all_goals
    delta exec
    dsimp only
    first
    | exact ⟨_, fun _ => rfl⟩
    | exact stoLoad_isStage ..
    | exact stoStore_isStage ..

theorem exec_mem_isStage (h : stageOfMem t o fn = some i) :
    ∃ g, ∀ s, exec i s = stage 0x2C fn t o s g := by
  unfold stageOfMem at h
  split at h
  all_goals cases h
  all_goals
    delta exec
    dsimp only
    first
    | exact ⟨_, fun _ => rfl⟩
    | exact stageReg_isStage ..

theorem exec_str_isStage (h : stageOfStr t o fn = some i) :
    ∃ g, ∀ s, exec i s = stage 0x30 fn t o s g := by
  unfold stageOfStr at h
  split at h
  all_goals cases h
  all_goals
    delta exec
    dsimp only
    first
    | exact ⟨_, fun _ => rfl⟩
    | exact chTestIn_isStage ..

theorem exec_fab_isStage (h : stageOfFab t o fn = some i) :
    ∃ g, ∀ s, exec i s = stage 0x34 fn t o s g := by
  unfold stageOfFab at h
  split at h
  all_goals cases h
  all_goals
    delta exec
    dsimp only
    first
    | exact ⟨_, fun _ => rfl⟩
    | exact stageReg_isStage ..

theorem exec_hur_isStage (h : stageOfHur t o fn = some i) :
    ∃ g, ∀ s, exec i s = stage 0x38 fn t o s g := by
  unfold stageOfHur at h
  split at h
  all_goals cases h
  all_goals
    delta exec
    dsimp only
    first
    | exact ⟨_, fun _ => rfl⟩
    | exact stageReg_isStage ..

theorem exec_sys_isStage (h : stageOfSys t o fn = some i) :
    ∃ g, ∀ s, exec i s = stage 0x3C fn t o s g := by
  unfold stageOfSys at h
  split at h
  all_goals cases h
  all_goals
    delta exec
    dsimp only
    first
    | exact ⟨_, fun _ => rfl⟩
    | exact stageReg_isStage ..

/-- Every stage instruction issues through `stage` under its own codes and operand bits. -/
theorem exec_isStage (h : stageAt t o fn m = some i) : ∃ g, ∀ s, exec i s = stage m fn t o s g := by
  unfold stageAt at h
  split at h
  · exact exec_ctl_isStage h
  · exact exec_sca_isStage (f := .reg) rfl h
  · exact exec_sca_isStage (f := .imm) rfl h
  · exact exec_vec_isStage h
  · exact exec_mat_isStage h
  · exact exec_sto_isStage h
  · exact exec_mem_isStage h
  · exact exec_str_isStage h
  · exact exec_fab_isStage h
  · exact exec_hur_isStage h
  · exact exec_sys_isStage h
  · cases h

end

/-- Command `i` is the stage instruction of tile `t` and word `w` = major opcode, function code and operand bits. -/
structure IsStage (i : Instr) (t : Nat) (w : Word) (m f : Nat) (o : Op) : Prop where
  major_lt : m < 64
  fn_lt : f < 64
  word : w = wordOf m f o
  at_ : stageAt t o f m = some i

/-- A command with a word is a stage instruction: of the 395 constructors those without one drop out, and the form of a
scalar instruction decides its major opcode. -/
theorem isStage_of_stageWord {i : Instr} {t : Nat} {w : Word} (h : stageWord i = some (t, w)) :
    ∃ m f o, IsStage i t w m f o := by
  cases i
  all_goals cases h
  any_goals casesm ScaForm
  all_goals exact ⟨_, _, _, by decide, by decide, rfl, rfl⟩

/-- Settles O2: the fields of the word give back the codes and the operand bits. -/
theorem stageWordReadsBack : Obligations.StageWordReadsBack := by
  intro i t w hword hlegal
  obtain ⟨m, f, o, hi⟩ := isStage_of_stageWord hword
  rw [hi.word] at hlegal ⊢
  rw [stageOf_wordOf hi.major_lt hi.fn_lt hlegal, hi.at_]

/-! ### A word is its four fields, and each class has an instruction for every legal function code -/

theorem wMajor_lt (w : Word) : wMajor w < 64 := by
  have hw := w.isLt
  rw [wMajor]; omega

theorem wFn_lt (w : Word) : wFn w < 64 := Nat.mod_lt _ (by decide)

theorem wordOf_fields (w : Word) : wordOf (wMajor w) (wFn w) (wOp w) = w := by
  apply BitVec.eq_of_toNat_eq
  rw [wordOf_toNat _ _ _ (wMajor_lt w) (wFn_lt w)]
  simp only [wOp, wGuard, wBody, wMajor, wFn, BitVec.extractLsb'_toNat, Nat.shiftRight_eq_div_pow]
  omega

/-- The instruction of a class at a function code, with the word that it is read from. -/
def Spells (t m : Nat) (o : Op) (fn : Nat) : Prop :=
  ∃ i, stageAt t o fn m = some i ∧ stageWord i = some (t, wordOf m fn o)

section
variable {t fn : Nat} {o : Op} {b : BitVec 47}

theorem spells_ctl (h : legalCtl fn b = true) : Spells t 0x00 o fn := by
  unfold legalCtl at h
  split at h
  case h_11 => cases h
  all_goals exact ⟨_, rfl, rfl⟩

theorem spells_scaReg (h : legalScaReg fn b = true) : Spells t 0x08 o fn := by
  unfold legalScaReg at h
  split at h
  · interval_cases fn <;> exact ⟨_, rfl, rfl⟩
  · split at h
    case h_8 => cases h
    all_goals exact ⟨_, rfl, rfl⟩

theorem spells_scaImm (h : legalScaImm fn b = true) : Spells t 0x09 o fn := by
  unfold legalScaImm at h
  split at h
  · next hfn =>
    simp only [List.contains_cons, List.contains_nil, Bool.or_eq_true, beq_iff_eq, Bool.or_false] at hfn
    rcases hfn with rfl | rfl | rfl | rfl | rfl | rfl | rfl | rfl <;> exact ⟨_, rfl, rfl⟩
  · split at h
    case h_5 => cases h
    all_goals exact ⟨_, rfl, rfl⟩

theorem spells_vec (h : legalVec fn b = true) : Spells t 0x10 o fn := by
  unfold legalVec at h
  dsimp only at h
  split at h
  · have hfn : fn ≤ 5 := by omega
    interval_cases fn <;> exact ⟨_, rfl, rfl⟩
  split at h
  · next hfn => exact hfn ▸ ⟨_, rfl, rfl⟩
  split at h
  · have hfn : fn ≤ 0x13 := by omega
    interval_cases fn <;> exact ⟨_, rfl, rfl⟩
  split at h
  case h_15 => cases h
  all_goals exact ⟨_, rfl, rfl⟩

theorem spells_mat (h : legalMat fn b = true) : Spells t 0x20 o fn := by
  unfold legalMat at h
  split at h
  case h_7 => cases h
  all_goals exact ⟨_, rfl, rfl⟩

theorem spells_sto (h : legalSto fn b = true) : Spells t 0x28 o fn := by
  unfold legalSto at h
  have hfn : fn ≤ 6 ∨ 8 ≤ fn ∧ fn ≤ 0x0E ∨ 0x10 ≤ fn ∧ fn ≤ 0x13 := by
    split_ifs at h <;> omega
  rcases hfn with hfn | ⟨hlo, hfn⟩ | ⟨hlo, hfn⟩
  all_goals interval_cases fn <;> exact ⟨_, rfl, rfl⟩

theorem spells_mem (h : legalMem fn b = true) : Spells t 0x2C o fn := by
  unfold legalMem at h
  split at h
  case h_8 => cases h
  all_goals exact ⟨_, rfl, rfl⟩

theorem spells_str (h : legalStr fn b = true) : Spells t 0x30 o fn := by
  unfold legalStr at h
  split at h
  case h_7 => cases h
  all_goals exact ⟨_, rfl, rfl⟩

theorem spells_fab (h : legalFab fn b = true) : Spells t 0x34 o fn := by
  unfold legalFab at h
  split at h
  case h_7 => cases h
  all_goals exact ⟨_, rfl, rfl⟩

theorem spells_hur (h : legalHur fn b = true) : Spells t 0x38 o fn := by
  unfold legalHur at h
  have hfn : fn ≤ 3 := by split_ifs at h <;> omega
  interval_cases fn <;> exact ⟨_, rfl, rfl⟩

theorem spells_sys (h : legalSys fn b = true) : Spells t 0x3C o fn := by
  unfold legalSys at h
  have hfn : fn ≤ 0x0C := by
    split at h
    case h_6 =>
      simp only [Bool.and_eq_true, decide_eq_true_eq] at h
      exact h.1.1
    all_goals omega
  interval_cases fn <;> exact ⟨_, rfl, rfl⟩

end

theorem spells_of_legalWord {t : Nat} {w : Word} (h : legalWord w = true) : Spells t (wMajor w) (wOp w) (wFn w) := by
  unfold legalWord at h
  dsimp only at h
  obtain ⟨-, hclass⟩ := (Bool.and_eq_true _ _ ▸ h : _ ∧ _)
  generalize wMajor w = m at hclass
  split at hclass
  · exact spells_ctl hclass
  · exact spells_scaReg hclass
  · exact spells_scaImm hclass
  · exact spells_vec hclass
  · exact spells_mat hclass
  · exact spells_sto hclass
  · exact spells_mem hclass
  · exact spells_str hclass
  · exact spells_fab hclass
  · exact spells_hur hclass
  · exact spells_sys hclass
  · cases hclass

/-- Settles O3: each class has an instruction at every function code that it has a legal word for. -/
theorem legalWordsAreInstructions : Obligations.LegalWordsAreInstructions := by
  intro t w
  refine ⟨fun hlegal => ?legal, fun hillegal => ?illegal⟩
  case legal =>
    obtain ⟨i, hat, hword⟩ := spells_of_legalWord (t := t) hlegal
    exact ⟨i, by rw [stageOf_eq_stageAt, if_pos hlegal, hat], by rw [hword, wordOf_fields]⟩
  case illegal => rw [stageOf_eq_stageAt, hillegal]; rfl

/-- Settles O4: the eight words are evaluated. -/
theorem sampleWordsDecode : Obligations.SampleWordsDecode := by
  unfold Obligations.SampleWordsDecode
  decide

/-! ### A word that does not have its effect (R43, R78, R81) -/

section
variable {s : State} {t m fn : Nat} {o : Op} {g : State → Nat → Fx}

theorem stage_of_unfetched (hcan : s.canIssue t = true)
    (hbad : (s.ctx t (s.tile t).owner).pcIn = false ∨
      legalWord (s.istoreWord t (s.ctx t (s.tile t).owner).pc.toNat) = false) :
    stage m fn t o s g = .next (s.faultCtx t (s.tile t).owner 1 (s.ctx t (s.tile t).owner).pc
      (s.istoreWord t (s.ctx t (s.tile t).owner).pc.toNat)) := by
  have hnot : (!(s.ctx t (s.tile t).owner).pcIn ||
      !legalWord (s.istoreWord t (s.ctx t (s.tile t).owner).pc.toNat)) = true := by
    rcases hbad with h | h <;> simp [h]
  simp only [stage, hcan, hnot, Bool.not_true, Bool.false_eq_true, if_false, if_true]

theorem stage_of_guard_false {c : Nat} (h : Fetches s t c m fn o) (hguard : (s.ctx t c).guardOk o.guard = false) :
    stage m fn t o s g = .next ((issued s t c).updCtx t c fun x =>
      x.advance (s.ctx t c).pc.toNat (guardedNext m fn (s.ctx t c).pc.toNat o.body)) := by
  obtain ⟨hcan, rfl, hin, hword, hlegal⟩ := h
  simp [stage, hcan, hin, hword, hlegal, hguard, issued]

end

theorem wordOf_inj {m f m' f' : Nat} {o o' : Op} (hm : m < 64) (hf : f < 64) (hm' : m' < 64) (hf' : f' < 64)
    (h : wordOf m f o = wordOf m' f' o') : m = m' ∧ f = f' ∧ o = o' :=
  ⟨by rw [← wMajor_wordOf m f o hm hf, h, wMajor_wordOf m' f' o' hm' hf'],
    by rw [← wFn_wordOf m f o hm hf, h, wFn_wordOf m' f' o' hm' hf'],
    by rw [← wOp_wordOf o hm hf, h, wOp_wordOf o' hm' hf']⟩

/-- Settles O5: every stage instruction issues through `stage`, which fetches before it looks at the effect. -/
theorem fetchedWordOutcomes : Obligations.FetchedWordOutcomes := by
  refine ⟨fun i t c w s hword hcan howner hbad => ?unfetched, fun i t c m fn o s hm hfn hword hfetch hguard => ?guarded⟩
  case unfetched =>
    obtain ⟨m, f, o, hi⟩ := isStage_of_stageWord hword
    obtain ⟨g, hexec⟩ := exec_isStage hi.at_
    subst howner
    rw [hexec, stage_of_unfetched hcan hbad]
  case guarded =>
    obtain ⟨m', f', o', hi⟩ := isStage_of_stageWord hword
    obtain ⟨rfl, rfl, rfl⟩ := wordOf_inj hm hfn hi.major_lt hi.fn_lt hi.word
    obtain ⟨g, hexec⟩ := exec_isStage hi.at_
    rw [hexec, stage_of_guard_false hfetch hguard]
    rfl

end Sys2Proof.Machine
end

section
/-! Control and scalar instructions (04, Tables 4-4 and 4-5): what each makes of the context that issues it. -/

namespace Sys2Proof.Machine

open Sys2Proof

/-! ### Control flow (R51, R82, R85, R103) -/

section
variable {s : State} {t c : Nat} {o : Op}

theorem execCtlBreak_active (h : Issues s t c 0x00 0x06 o)
    (hactive : (((issued s t c).ctx t c).loop (loopLvl o.body)).active = true) :
    execCtlBreak t o s = .next (((issued s t c).updCtx t c fun y => y.breakLevel (loopLvl o.body)).updCtx t c fun y =>
      y.advance (s.ctx t c).pc.toNat ((((issued s t c).ctx t c).loop (loopLvl o.body)).last.toNat + 1)) := by
  rw [execCtlBreak, stage_issues h]
  dsimp only
  rw [if_pos hactive]
  rfl

theorem execCtlBreak_inactive (h : Issues s t c 0x00 0x06 o)
    (hinactive : (((issued s t c).ctx t c).loop (loopLvl o.body)).active = false) :
    execCtlBreak t o s = .next (moveOn s (issued s t c) t c) := by
  rw [execCtlBreak, stage_issues h]
  dsimp only
  rw [hinactive, if_neg Bool.false_ne_true]
  rfl

theorem execCtlHalt_idle (h : Issues s t c 0x00 0x09 o)
    (hmem : (((issued s t c).ctx t c).mems.any fun p => p.2.xfer.isSome) = false)
    (hfab : (((issued s t c).ctx t c).fabs.any fun p => p.2.xfer.isSome) = false) :
    execCtlHalt t o s = .next (((issued s t c).updCtx t c fun y =>
      { y.advance (s.ctx t c).pc.toNat ((s.ctx t c).pc.toNat + 1) with mode := .done }).dispatch t) := by
  rw [execCtlHalt, stage_issues h]
  dsimp only
  rw [hmem, hfab, if_neg Bool.false_ne_true, if_neg Bool.false_ne_true]
  rfl

theorem execCtlHalt_mem_in_flight (h : Issues s t c 0x00 0x09 o)
    (hmem : (((issued s t c).ctx t c).mems.any fun p => p.2.xfer.isSome) = true) :
    execCtlHalt t o s = .next (starved s t c 4) := by
  rw [execCtlHalt, stage_issues h]
  dsimp only
  rw [hmem, if_pos rfl]
  rfl

/-- An instruction that only changes its context: `retire` with what it changes. -/
theorem stageReg_retires {m fn : Nat} {f : Ctx → Ctx} (h : Issues s t c m fn o) :
    stageReg m fn t o s (fun _ => f) = .next (retire s t c f) := stageReg_issues h

end

/-- Settles O6: each is `stage` with the effect of its row of Table 4-4; BREAK and HALT look at the context first. -/
theorem controlInstructions : Obligations.ControlInstructions := by
  intro t c o s s1 x pc l
  refine ⟨fun h => ?nop, fun h => ?br, fun h => ?bl, fun h => ?jr, execCtlBreak_active, execCtlBreak_inactive,
    fun h => ?lidx, fun h => ?yield, execCtlHalt_idle, execCtlHalt_mem_in_flight⟩
  case lidx => exact (stageReg_retires h : execCtlLidx t o s = _)
  case nop => exact (stage_issues h : execCtlNop t o s = _)
  case br => exact (stage_issues h : execCtlBr t o s = _)
  case bl => exact (stage_issues h : execCtlBl t o s = _)
  case jr => exact (stage_issues h : execCtlJr t o s = _)
  case yield => exact (stage_issues h : execCtlYield t o s = _)

/-! ### Scalars, predicates and addresses (R86) -/

theorem scaMajor_eq_major (f : ScaForm) : f.major = scaMajor f := by cases f <;> rfl

section
variable {s : State} {t c fn : Nat} {f : ScaForm} {o : Op}

theorem stageSca_retires {g : Ctx → Ctx} (h : Issues s t c f.major fn o) :
    stageReg (scaMajor f) fn t o s (fun _ => g) = .next (retire s t c g) :=
  stageReg_issues (scaMajor_eq_major f ▸ h)

theorem sca2_retires {op : Word → Word → Word} (h : Issues s t c f.major fn o) :
    sca2 fn op t f o s =
      .next (retire s t c fun x => x.setS (fD o.body) (op (x.getS (fA o.body)) (scaB f x o.body))) :=
  stageSca_retires h

end

/-- Settles O8: the nineteen operations differ in their function code and in what they make of two words. -/
theorem scalarArithmetic : Obligations.ScalarArithmetic := by
  intro t c f o s put
  and_intros
  all_goals
    intro h
    delta exec
    exact sca2_retires h

/-- Settles O9: each writes one register of its context. -/
theorem scalarMovesAndPredicates : Obligations.ScalarMovesAndPredicates := by
  intro t c f o s b2
  and_intros
  all_goals
    intro h
    delta exec
    exact stageSca_retires h

end Sys2Proof.Machine
end

section
/-! Vector instructions (04, Table 4-8; 05): what each makes of the context that issues it, and what packed lanes read
back as. -/

namespace Sys2Proof.Machine

open Sys2Proof

/-! ### Lane-wise arithmetic (R87, R101, R113, R114, R120) -/

/-- What a lane-wise operation on float lanes makes of a context: one rounding a lane, with draws where `draw` holds. -/
def Ctx.floatLanes (b : BitVec 47) (draw : Bool) (ff : FVal → FVal → FVal × FlagSet) (x : Ctx) : Ctx :=
  let ty := xT (fX b)
  let w := typeWidth ty
  let rd := if draw then x.rounding (xRnd (fX b)) (typeLanes ty) else (.nearest, fun _ => 0, x)
  rd.2.2.putLanes (fD b) w ((((lanesOf w (x.getV (fA b))).zip (lanesOf w (x.getV (fB b)))).zipIdx).map fun p =>
    let v := ff ((fmtOf ty).decode p.1.1) ((fmtOf ty).decode p.1.2)
    let r := (fmtOf ty).round rd.1 x.ftz (rd.2.1 p.2) v.1
    (r.1, v.2 ||| r.2))

/-- What it makes of a context on integer lanes, which wrap. -/
def Ctx.intLanes (b : BitVec 47) (fi : Int → Int → Int) (x : Ctx) : Ctx :=
  let ty := xT (fX b)
  let w := typeWidth ty
  x.putLanes (fD b) w (((lanesOf w (x.getV (fA b))).zip (lanesOf w (x.getV (fB b)))).map fun p =>
    ((fi (laneInt ty p.1) (laneInt ty p.2) % (2 ^ w : Int)).toNat, 0))

section
variable {s : State} {t c fn : Nat} {o : Op} {draw : Bool} {fi : Nat → Int → Int → Int}
  {ff : FVal → FVal → FVal × FlagSet}

/-- A lane-wise operation that issues works by the type of its lanes. -/
theorem vecBin_retires (h : Issues s t c 0x10 fn o) : vecBin fn draw fi ff t o s = .next
    (if typeFloat (xT (fX o.body)) then retire s t c (Ctx.floatLanes o.body draw ff)
      else retire s t c (Ctx.intLanes o.body (fi (typeWidth (xT (fX o.body)))))) := by
  rw [vecBin, stageReg_retires h]
  cases hfloat : typeFloat (xT (fX o.body))
  case false => simp only [hfloat, Bool.false_eq_true, if_false]; rfl
  case true => simp only [hfloat, if_true]; rfl

theorem vecBin_int_retires (h : Issues s t c 0x10 fn o) (hint : typeFloat (xT (fX o.body)) = false) :
    vecBin fn draw fi ff t o s = .next (retire s t c (Ctx.intLanes o.body (fi (typeWidth (xT (fX o.body)))))) := by
  rw [vecBin_retires h, hint, if_neg Bool.false_ne_true]

end

/-- Settles O10: all seven are `vecBin`, the shifts on integer lanes alone. -/
theorem vectorLaneArithmetic : Obligations.VectorLaneArithmetic := by
  intro t c o s b ty w ints floats
  refine ⟨fun h => ?vadd, fun h => ?vsub, fun h => ?vmul, fun h => ?vmin, fun h => ?vmax, fun h hint => ?vshl,
    fun h hint => ?vshr⟩
  case vadd => exact (vecBin_retires h : execVecVadd t o s = _)
  case vsub => exact (vecBin_retires h : execVecVsub t o s = _)
  case vmul => exact (vecBin_retires h : execVecVmul t o s = _)
  case vmin => exact (vecBin_retires h : execVecVmin t o s = _)
  case vmax => exact (vecBin_retires h : execVecVmax t o s = _)
  case vshl => exact (vecBin_int_retires h hint : execVecVshl t o s = _)
  case vshr => exact (vecBin_int_retires h hint : execVecVshr t o s = _)

/-! ### Bits and lanes (R87, R109) -/

theorem packNat_cons (w x : Nat) (l : List Nat) : packNat w (x :: l) = x % 2 ^ w + 2 ^ w * packNat w l := rfl

/-- Packed lanes fill no more bits than they have. -/
theorem packNat_lt (w : Nat) (l : List Nat) : packNat w l < 2 ^ (w * l.length) := by
  induction l with
  | nil => exact Nat.one_pos
  | cons x l ih =>
    have hx : x % 2 ^ w < 2 ^ w := Nat.mod_lt _ (Nat.two_pow_pos w)
    have hl : packNat w l + 1 ≤ 2 ^ (w * l.length) := ih
    rw [packNat_cons, List.length_cons, Nat.mul_succ, Nat.add_comm (w * _), pow_add]
    calc x % 2 ^ w + 2 ^ w * packNat w l < 2 ^ w + 2 ^ w * packNat w l := by omega
      _ = 2 ^ w * (packNat w l + 1) := by ring
      _ ≤ 2 ^ w * 2 ^ (w * l.length) := Nat.mul_le_mul_left _ hl

theorem packNat_lane (w : Nat) (l : List Nat) (i : Nat) (hi : i < l.length) :
    packNat w l / 2 ^ (w * i) % 2 ^ w = nth l i 0 % 2 ^ w := by
  induction l generalizing i with
  | nil => simp at hi
  | cons x l ih =>
    rw [packNat_cons]
    cases i with
    | zero => rw [Nat.mul_zero, pow_zero, Nat.div_one, Nat.add_mul_mod_self_left, Nat.mod_mod]; rfl
    | succ i =>
      have hx : x % 2 ^ w < 2 ^ w := Nat.mod_lt _ (Nat.two_pow_pos w)
      rw [Nat.mul_succ, Nat.add_comm (w * i), pow_add, ← Nat.div_div_eq_div_mul,
        Nat.add_mul_div_left _ _ (Nat.two_pow_pos w), Nat.div_eq_of_lt hx, Nat.zero_add,
        ih i (Nat.lt_of_succ_lt_succ hi)]
      rfl

theorem packNat_lt_of_fits {w n : Nat} {l : List Nat} (hfit : l.length * w ≤ n) : packNat w l < 2 ^ n :=
  (packNat_lt w l).trans_le (Nat.pow_le_pow_right Nat.two_pos (Nat.mul_comm w _ ▸ hfit))

/-- A lane of a register packed with lanes that fit in it is that lane modulo its width. -/
theorem laneGet_packLanes {w : Nat} {l : List Nat} {i : Nat} (hfit : l.length * w ≤ 2048) (hi : i < l.length) :
    laneGet w (packLanes w l) i = nth l i 0 % 2 ^ w := by
  rw [laneGet, packLanes, BitVec.toNat_ofNat, Nat.mod_eq_of_lt (packNat_lt_of_fits hfit), packNat_lane w l i hi]

section
variable {s : State} {t c fn : Nat} {o : Op}

theorem vecBits_retires {op : Vec → Vec → Vec} (h : Issues s t c 0x10 fn o) : vecBits fn op t o s =
    .next (retire s t c fun x => x.setV (fD o.body) (op (x.getV (fA o.body)) (x.getV (fB o.body)))) :=
  stageReg_retires h

theorem vecUn_retires {fi : Int → Int} {ff : Nat → Nat → Nat} (h : Issues s t c 0x10 fn o) :
    vecUn fn fi ff t o s = .next (retire s t c fun x =>
      let ty := xT (fX o.body)
      x.setV (fD o.body) (packLanes (typeWidth ty) ((lanesOf (typeWidth ty) (x.getV (fA o.body))).map fun n =>
        if typeFloat ty then ff (typeWidth ty) n else intLane (typeWidth ty) (fi (laneInt ty n))))) :=
  stageReg_retires h

end

/-- Settles O11: each writes one register of its context; packed lanes read back by `laneGet_packLanes`. -/
theorem vectorBitsAndLanes : Obligations.VectorBitsAndLanes := by
  refine ⟨?instructions, fun w l i hw hfit hi => laneGet_packLanes hfit hi⟩
  case instructions =>
    intro t c o s b ty w
    refine ⟨fun h => ?vand, fun h => ?vor, fun h => ?vxor, ?moves⟩
    case vand => exact (vecBits_retires h : execVecVand t o s = _)
    case vor => exact (vecBits_retires h : execVecVor t o s = _)
    case vxor => exact (vecBits_retires h : execVecVxor t o s = _)
    case moves =>
      refine ⟨?_, ?_, ?_, ?_, ?_, ?_, ?_, fun h => ?vneg, fun h => ?vabs⟩
      case vneg => exact (vecUn_retires h : execVecVneg t o s = _)
      case vabs => exact (vecUn_retires h : execVecVabs t o s = _)
      all_goals
        intro h
        delta exec
        exact stageReg_retires h

/-! ### Fused, compared, converted and reduced values (R88 to R90, R118 to R120) -/

section
variable {s : State} {t c : Nat} {o : Op}

theorem execVecVred_int (h : Issues s t c 0x10 0x0F o) (hint : typeFloat (xT (fX o.body)) = false) :
    execVecVred t o s = .next (retire s t c fun x =>
      let ty := xT (fX o.body)
      let is := (lanesOf (typeWidth ty) (x.getV (fA o.body))).map (laneInt ty)
      x.putLanes (fD o.body) (typeWidth ty) [(intLane (typeWidth ty) (if xOp (fX o.body) = 0 then is.foldl (· + ·) 0
        else if xOp (fX o.body) = 1 then is.foldl max (is.headD 0) else is.foldl min (is.headD 0)), 0)]) := by
  rw [execVecVred, stageReg_retires h]
  simp only [hint, Bool.false_eq_true, if_false]

theorem execVecVred_sum (h : Issues s t c 0x10 0x0F o) (hfloat : typeFloat (xT (fX o.body)) = true)
    (hsum : xOp (fX o.body) = 0) : execVecVred t o s = .next (retire s t c fun x =>
      let ty := xT (fX o.body)
      let rd := x.rounding (xRnd (fX o.body)) (typeLanes ty - 1)
      rd.2.2.putLanes (fD o.body) (typeWidth ty) [redSum (fmtOf ty) rd.1 x.ftz rd.2.1 (Nat.log2 (typeLanes ty)) 0
        (lanesOf (typeWidth ty) (x.getV (fA o.body)))]) := by
  rw [execVecVred, stageReg_retires h]
  simp only [hfloat, if_true, hsum]

theorem execVecVred_extreme (h : Issues s t c 0x10 0x0F o) (hfloat : typeFloat (xT (fX o.body)) = true)
    (hsum : xOp (fX o.body) ≠ 0) : execVecVred t o s = .next (retire s t c fun x =>
      x.putLanes (fD o.body) (typeWidth (xT (fX o.body))) [redMax (fmtOf (xT (fX o.body)))
        (decide (xOp (fX o.body) = 1)) x.ftz (lanesOf (typeWidth (xT (fX o.body))) (x.getV (fA o.body)))]) := by
  rw [execVecVred, stageReg_retires h]
  simp only [hfloat, if_true, if_neg hsum]

end

/-- Settles O12: each writes one register of its context; a reduction works by the type of its lanes. -/
theorem vectorFloatAndFormats : Obligations.VectorFloatAndFormats := by
  intro t c o s b ty w n f
  refine ⟨fun h => ?vfma, fun h => ?vcmp, fun h => ?vcvt, fun h => ?vfn, execVecVred_int, execVecVred_sum,
    execVecVred_extreme, fun h => ?vmxq, fun h => ?vmxd⟩
  case vfma => exact (stageReg_retires h : execVecVfma t o s = _)
  case vcmp => exact (stageReg_retires h : execVecVcmp t o s = _)
  case vcvt => exact (stageReg_retires h : execVecVcvt t o s = _)
  case vfn => exact (stageReg_retires h : execVecVfn t o s = _)
  case vmxq => exact (stageReg_retires h : execVecVmxq t o s = _)
  case vmxd => exact (stageReg_retires h : execVecVmxd t o s = _)

end Sys2Proof.Machine
end

section
/-! The store slice and the matrix unit (04, Tables 4-9 to 4-13; 06, R128): what an access of a context comes to, and the
instructions made of one. -/

namespace Sys2Proof.Machine

open Sys2Proof

/-! ### The window of a context stands under what a read corrects

A correction of a line can end in a hard fault, which stops every chain: the contexts change, their windows do not. -/

/-- Context `c` of tile `t` holds a chain whose window begins at `base`. -/
def State.WindowAt (s : State) (t c base : Nat) : Prop := (s.ctx t c).windowBase = base ∧ (s.ctx t c).mode ≠ .empty

section
variable {s u : State} {t c base : Nat}

theorem State.WindowAt.of_ctxs (h : s.WindowAt t c base) (hctxs : u.ctxs = s.ctxs) : u.WindowAt t c base := by
  unfold State.WindowAt State.ctx at *
  rwa [hctxs]

/-- A key whose new entry is not the default reads back, in any table. -/
theorem tabGet_tabSet_of_ne {α : Type} [DecidableEq α] {d : Nat → α} (l : List (Nat × α)) {k : Nat} {v : α}
    (hv : v ≠ d k) : tabGet d (tabSet d l k v) k = v := by
  induction l with
  | nil => simp [tabSet, hv, tabGet]
  | cons e l ih =>
    obtain ⟨a, w⟩ := e
    rw [tabSet, if_neg hv, if_neg hv]
    split_ifs with hlt heq
    · simp [tabGet]
    · simp [tabGet]
    · rw [tabGet, if_neg heq, ih]

theorem State.WindowAt.updCtx (h : s.WindowAt t c base) (t' c' : Nat) {f : Ctx → Ctx}
    (hbase : ∀ x, (f x).windowBase = x.windowBase) (hmode : ∀ x, x.mode ≠ .empty → (f x).mode ≠ .empty) :
    (s.updCtx t' c' f).WindowAt t c base := by
  by_cases hkey : ctxKey t c = ctxKey t' c'
  · have hctx : s.ctx t' c' = s.ctx t c := by rw [State.ctx, State.ctx, hkey]
    have hne : f (s.ctx t c) ≠ {} := fun e => hmode _ h.2 (by rw [e])
    have hread : (s.updCtx t' c' f).ctx t c = f (s.ctx t c) := by
      unfold State.ctx at *
      rw [hkey] at hctx hne ⊢
      exact tabGet_tabSet_of_ne s.ctxs hne
    rw [State.WindowAt, hread]
    exact ⟨(hbase _).trans h.1, hmode _ h.2⟩
  · have hread : (s.updCtx t' c' f).ctx t c = s.ctx t c := tabGet_tabSet_ne _ hkey
    rw [State.WindowAt, hread]
    exact h

theorem State.WindowAt.foldl {β : Type} {f : State → β → State}
    (hf : ∀ s b, s.WindowAt t c base → (f s b).WindowAt t c base) (l : List β) (h : s.WindowAt t c base) :
    (l.foldl f s).WindowAt t c base := by
  induction l generalizing s with
  | nil => exact h
  | cons b l ih => exact ih (hf s b h)

theorem State.WindowAt.dispatch (h : s.WindowAt t c base) (t' : Nat) : (s.dispatch t').WindowAt t c base := by
  unfold State.dispatch
  dsimp only
  split
  · exact h
  split
  · exact (h.of_ctxs (u := s.updTile _ _) rfl).updCtx _ _ (fun _ => rfl) fun _ _ => by simp
  · exact h

theorem State.WindowAt.stopAll (h : s.WindowAt t c base) : s.stopAll.WindowAt t c base := by
  unfold State.stopAll State.stopWhere
  refine .foldl (fun s k hs => hs.dispatch _) _ (.foldl (fun s k hs => hs.updCtx _ _ ?_ ?_) _ h)
  · intro x
    unfold Ctx.stopped
    split <;> rfl
  · intro x hx
    unfold Ctx.stopped
    split
    · simp
    · exact hx

end

theorem ctxs_foldl {β : Type} {f : State → β → State} (hf : ∀ s b, (f s b).ctxs = s.ctxs) (l : List β) (s : State) :
    (l.foldl f s).ctxs = s.ctxs := by
  induction l generalizing s with
  | nil => rfl
  | cons b l ih => exact (ih _).trans (hf s b)

theorem State.blankElems_ctxs (s : State) : s.blankElems.ctxs = s.ctxs := by
  refine ctxs_foldl (fun s e => ?_) _ s
  dsimp only
  split_ifs <;> rfl

theorem State.dropOptics_ctxs (s : State) : s.dropOptics.ctxs = s.ctxs :=
  (ctxs_foldl (f := fun (v : State) _ => v.updLink _ _ _) (fun _ _ => rfl) _ _).trans
    (ctxs_foldl (f := fun (v : State) _ => v.updOlane _ _ _) (fun _ _ => rfl) _ _)

theorem State.blankAll_ctxs (s : State) : s.blankAll.ctxs = s.ctxs := by
  unfold State.blankAll
  dsimp only
  split
  · rw [State.dropOptics_ctxs, State.blankElems_ctxs]; rfl
  · rfl

theorem State.withdrawOwn_ctxs (s : State) : s.withdrawOwn.ctxs = s.ctxs := by
  unfold State.withdrawOwn
  split
  · exact ctxs_foldl (f := fun (v : State) i => v.setBudget i 0) (fun _ _ => rfl) _ _
  · rfl

theorem State.selfReport_ctxs (s : State) (kind code : Byte) : (s.selfReport kind code).ctxs = s.ctxs := by
  have hflock (u : State) (b : FlockBody) : (u.flock b).ctxs = u.ctxs := by
    unfold State.flock
    dsimp only
    split
    · exact congrArg (fun v => v.ctxs) ((State.flockPackets_unsent _ b _).trans (State.datagrams_unsent _ _))
    · rfl
  have hside (u : State) (k k' : Byte) : (u.sendSide k k').ctxs = u.ctxs := by
    unfold State.sendSide
    split <;> rfl
  unfold State.selfReport
  dsimp only
  rw [hside, hflock]
  split <;> rfl

section
variable {s : State} {t c base : Nat}

theorem State.WindowAt.hardFault (h : s.WindowAt t c base) (code : Byte) : (s.hardFault code).WindowAt t c base := by
  have hstop : s.withdrawOwn.stopAll.WindowAt t c base := (h.of_ctxs s.withdrawOwn_ctxs).stopAll
  refine hstop.of_ctxs ?_
  unfold State.hardFault State.hardWith
  exact (State.selfReport_ctxs _ 3 code).trans (State.blankAll_ctxs _)

theorem State.WindowAt.correct (h : s.WindowAt t c base) (m k ch : Nat) : (s.correct m k ch).WindowAt t c base := by
  unfold State.correct State.eraseChan
  dsimp only
  split_ifs
  · exact h.of_ctxs rfl
  · refine State.WindowAt.hardFault ?_ 3
    exact h.of_ctxs rfl
  · exact h.of_ctxs rfl
  · exact h.of_ctxs rfl

theorem State.garble_ctxs (s : State) (l : Nat) (bs : List Nat) : (s.garble l bs).ctxs = s.ctxs := by
  unfold State.garble
  split
  · rfl
  · exact ctxs_foldl (fun u b => by rw [State.setCells_frame]) _ _

theorem State.WindowAt.fixUnit (h : s.WindowAt t c base) (u : Nat) : (s.fixUnit u).WindowAt t c base := by
  have hgarble (l : List Nat) : ((s.setFlips u []).garble u l).WindowAt t c base :=
    h.of_ctxs (State.garble_ctxs _ u l)
  unfold State.fixUnit
  dsimp only
  split
  · exact h
  split
  · exact h.of_ctxs rfl
  split
  · exact hgarble _
  split
  · exact (hgarble _).correct ..
  · exact hgarble _

theorem State.WindowAt.fixRange (h : s.WindowAt t c base) (a n : Nat) : (s.fixRange a n).WindowAt t c base :=
  .foldl (fun _ u hs => hs.fixUnit u) _ h

theorem Issues.mode_ne_empty {m fn : Nat} {o : Op} (h : Issues s t c m fn o) : (s.ctx t c).mode ≠ .empty := by
  obtain ⟨⟨hcan, rfl, -⟩, -⟩ := h
  unfold State.canIssue at hcan
  simp only [Bool.and_eq_true, decide_eq_true_eq] at hcan
  rw [hcan.2]
  simp

/-- A context that has been charged has the window that it had. -/
theorem State.WindowAt.issued (h : s.WindowAt t c base) : (issued s t c).WindowAt t c base := by
  have hfree : ({ s with free := s.free + 1 } : State).WindowAt t c base := h.of_ctxs rfl
  let n := stickAdd (s.ctx t c).beats (Config.freeBeats s.free).toNat
  have hcharged := hfree.updCtx t c
    (f := fun x => { x with beats := n, beatsOvf := x.beatsOvf || decide (n = stickMax 64) })
    (fun _ => rfl) fun _ hx => hx
  exact hcharged.of_ctxs rfl

end

/-! ### An access of a context (R73, R95, R127, R128) -/

section
variable {s : State} {t c ea n : Nat}

/-- A read in the window that meets no uncorrectable word goes on with the bytes, the errors met corrected. -/
theorem ctxRead_good {k : State → List Byte → Fx} (hwin : (s.ctx t c).winOk ea n = true)
    (hgood : s.firstBad (winAddr t (s.ctx t c) ea) n = none) :
    ctxRead s t c ea n k = k (s.fixRange (winAddr t (s.ctx t c) ea) n)
      ((s.fixRange (winAddr t (s.ctx t c) ea) n).readBytes (winAddr t (s.ctx t c) ea) n) := by
  simp only [ctxRead, hwin, Bool.not_true, Bool.false_eq_true, if_false, State.readRange, hgood]

theorem ctxRead_outside {k : State → List Byte → Fx} (hwin : (s.ctx t c).winOk ea n = false) :
    ctxRead s t c ea n k = .fault s 2 := by
  simp only [ctxRead, hwin, Bool.not_false, if_true]

variable {ws : List (Nat × List Byte)} {k : State → Fx}

/-- A fault of an instruction that has read nothing stops the context at its present word. -/
theorem settle_fault (code : BitVec 4) : (Fx.fault (issued s t c) code).settle t c (s.ctx t c).pc.toNat
    (s.istoreWord t (s.ctx t c).pc.toNat) = faulted s t c code := by
  rw [Fx.settle, BitVec.ofNat_toNat, BitVec.setWidth_eq, faulted]

/-- Writes of a context as writes of the module's memory. -/
def Ctx.placed (x : Ctx) (t : Nat) (ws : List (Nat × List Byte)) : List (Nat × List Byte) :=
  ws.map fun w => (winAddr t x w.1, w.2)

/-- The state after writes of a context, in order. -/
def State.storeAll (s : State) (ws : List (Nat × List Byte)) : State :=
  ws.foldl (fun u w => (u.writeRange w.1 w.2 0).1) s

theorem ctxWrite_good (hwin : ∀ w ∈ ws, (s.ctx t c).winOk w.1 w.2.length = true)
    (hmerge : s.mergeBad ((s.ctx t c).placed t ws) = none) :
    ctxWrite s t c ws k = k (s.storeAll ((s.ctx t c).placed t ws)) := by
  have hin : ¬ ws.any (fun w => !(s.ctx t c).winOk w.1 w.2.length) = true := by simpa using hwin
  rw [ctxWrite, if_neg hin]
  dsimp only
  rw [← Ctx.placed, hmerge]
  rfl

theorem ctxWrite_good_one {l : List Byte} (hwin : (s.ctx t c).winOk ea l.length = true)
    (hmerge : s.mergeBad [(winAddr t (s.ctx t c) ea, l)] = none) :
    ctxWrite s t c [(ea, l)] k = k (s.writeRange (winAddr t (s.ctx t c) ea) l 0).1 :=
  ctxWrite_good (ws := [(ea, l)]) (by simpa using hwin) hmerge

theorem ctxWrite_outside {l : List Byte} (hwin : (s.ctx t c).winOk ea l.length = false) :
    ctxWrite s t c [(ea, l)] k = .fault s 2 := by
  simp only [ctxWrite, List.any_cons, hwin, Bool.not_false, Bool.true_or, if_true]

end

/-! ### Loads (Table 4-13) -/

section
variable {s : State} {t c fn n : Nat} {o : Op} {signed : Bool}

/-- The effective address of a scalar access. -/
abbrev accessAddr (s : State) (t c n : Nat) (o : Op) : Nat :=
  effAddr ((issued s t c).ctx t c) (fA o.body) (fImm o.body) n

/-- The state that a load of `n` bytes at a window offset leaves. -/
abbrev loadState (s : State) (t c ea n : Nat) : State :=
  (issued s t c).fixRange (winAddr t ((issued s t c).ctx t c) ea) n

/-- The bytes that it reads, as a number. -/
abbrev loadVal (s : State) (t c ea n : Nat) : Nat :=
  leVal ((loadState s t c ea n).readBytes (winAddr t ((issued s t c).ctx t c) ea) n)

theorem stoLoad_retires (h : Issues s t c 0x28 fn o)
    (hok : ((issued s t c).ctx t c).winOk (accessAddr s t c n o) n = true ∧
      (issued s t c).firstBad (winAddr t ((issued s t c).ctx t c) (accessAddr s t c n o)) n = none) :
    stoLoad fn n signed t o s = .next (retireOn s (loadState s t c (accessAddr s t c n o) n) t c fun y =>
      let v := BitVec.ofNat (8 * n) (loadVal s t c (accessAddr s t c n o) n)
      y.setS (fD o.body) (if signed then v.signExtend 64 else v.setWidth 64)) := by
  rw [stoLoad, stage_issues h, ctxRead_good hok.1 hok.2]
  rfl

theorem stoLoad_outside (h : Issues s t c 0x28 fn o)
    (hout : ((issued s t c).ctx t c).winOk (accessAddr s t c n o) n = false) :
    stoLoad fn n signed t o s = .next (faulted s t c 2) := by
  rw [stoLoad, stage_issues h, ctxRead_outside hout, settle_fault]

theorem execStoLdv_retires (h : Issues s t c 0x28 0x00 o)
    (hok : ((issued s t c).ctx t c).winOk (accessAddr s t c 32 o) 256 = true ∧
      (issued s t c).firstBad (winAddr t ((issued s t c).ctx t c) (accessAddr s t c 32 o)) 256 = none) :
    execStoLdv t o s = .next (retireOn s (loadState s t c (accessAddr s t c 32 o) 256) t c fun y =>
      y.setV (fD o.body) (BitVec.ofNat 2048 (loadVal s t c (accessAddr s t c 32 o) 256))) := by
  rw [execStoLdv, stage_issues h, ctxRead_good hok.1 hok.2]
  rfl

theorem execStoLdvi_retires (h : Issues s t c 0x28 0x02 o)
    (hok : ((issued s t c).ctx t c).winOk (effAddr ((issued s t c).ctx t c) (fA o.body) 0 32) 256 = true ∧
      (issued s t c).firstBad
        (winAddr t ((issued s t c).ctx t c) (effAddr ((issued s t c).ctx t c) (fA o.body) 0 32)) 256 = none) :
    execStoLdvi t o s = .next
      (retireOn s (loadState s t c (effAddr ((issued s t c).ctx t c) (fA o.body) 0 32) 256) t c fun y =>
        (y.setV (fD o.body) (BitVec.ofNat 2048
          (loadVal s t c (effAddr ((issued s t c).ctx t c) (fA o.body) 0 32) 256))).bump o.body) := by
  rw [execStoLdvi, stage_issues h, ctxRead_good hok.1 hok.2]
  rfl

/-- The context that takes the lanes of a gather has the window that they were read from. -/
theorem updCtx_gather {u : State} {x : Ctx} (hbase : (u.ctx t c).windowBase = x.windowBase) (d : Nat) (as : List Nat) :
    (u.updCtx t c fun y => y.setV d (packLanes 32 (as.map fun a => leVal (u.readBytes (winAddr t y a) 4)))) =
      u.updCtx t c fun y => y.setV d (packLanes 32 (as.map fun a => leVal (u.readBytes (winAddr t x a) 4))) := by
  simp only [State.updCtx, winAddr, hbase]

/-- A gather whose 64 words lie in the window and are good corrects what it reads and packs them (R95). -/
theorem execStoGath_retires (h : Issues s t c 0x28 0x05 o)
    (hwin : ∀ i < 64, ((issued s t c).ctx t c).winOk (laneAddr ((issued s t c).ctx t c) o.body i) 4 = true)
    (hgood : ∀ i < 64, (issued s t c).unitBad
      (unitOf (winAddr t ((issued s t c).ctx t c) (laneAddr ((issued s t c).ctx t c) o.body i))) = false) :
    execStoGath t o s = .next (
      let x := (issued s t c).ctx t c
      let u := (List.range 64).foldl (fun (v : State) i => v.fixRange (winAddr t x (laneAddr x o.body i)) 4)
        (issued s t c)
      retireOn s u t c fun y => y.setV (fD o.body)
        (packLanes 32 ((List.range 64).map fun i => leVal (u.readBytes (winAddr t x (laneAddr x o.body i)) 4)))) := by
  have hin : ¬ ((List.range 64).map (laneAddr ((issued s t c).ctx t c) o.body)).any
      (fun a => !((issued s t c).ctx t c).winOk a 4) = true := by simpa using hwin
  have hfind : (((List.range 64).map (laneAddr ((issued s t c).ctx t c) o.body)).map fun a =>
      unitOf (winAddr t ((issued s t c).ctx t c) a)).find? (issued s t c).unitBad = none := by
    refine List.find?_eq_none.mpr fun u hu => ?_
    obtain ⟨a, ha, rfl⟩ := List.mem_map.mp hu
    obtain ⟨i, hi, rfl⟩ := List.mem_map.mp ha
    rw [hgood i (List.mem_range.mp hi)]
    exact Bool.false_ne_true
  have hbegun : (issued s t c).WindowAt t c (s.ctx t c).windowBase := State.WindowAt.issued ⟨rfl, h.mode_ne_empty⟩
  have hread := hbegun.foldl (f := fun v i => v.fixRange
    (winAddr t ((issued s t c).ctx t c) (laneAddr ((issued s t c).ctx t c) o.body i)) 4)
    (fun _ _ hv => hv.fixRange _ _) (List.range 64)
  rw [execStoGath, stage_issues h]
  dsimp only
  rw [if_neg hin, hfind]
  dsimp only
  rw [List.foldl_map, updCtx_gather (hread.1.trans hbegun.1.symm), List.map_map]
  generalize List.range 64 = lanes
  rfl

end

/-- Settles O14: each load is one read of its context's window, the gather 64 of them. -/
theorem storeLoads : Obligations.StoreLoads := by
  intro t c o s s1 x b ok red val vec
  refine ⟨execStoLdv_retires, execStoLdvi_retires, fun h hok => ?ld8, fun h hok => ?ld8u, fun h hok => ?ld16,
    fun h hok => ?ld16u, fun h hok => ?ld32, fun h hok => ?ld32u, fun h hok => ?ld64, ?gath, fun h hout => ?outside⟩
  case ld8 => exact (stoLoad_retires h hok : execStoLd8 t o s = _)
  case ld8u => exact (stoLoad_retires h hok : execStoLd8u t o s = _)
  case ld16 => exact (stoLoad_retires h hok : execStoLd16 t o s = _)
  case ld16u => exact (stoLoad_retires h hok : execStoLd16u t o s = _)
  case ld32 => exact (stoLoad_retires h hok : execStoLd32 t o s = _)
  case ld32u => exact (stoLoad_retires h hok : execStoLd32u t o s = _)
  case ld64 => exact (stoLoad_retires h hok : execStoLd64 t o s = _)
  case gath => exact fun h hwin hgood => execStoGath_retires h hwin hgood
  case outside => exact (stoLoad_outside h hout : execStoLd64 t o s = _)

/-! ### Stores (Table 4-13) -/

section
variable {s : State} {t c fn n : Nat} {o : Op}

/-- The bytes of a scalar register that a store of `n` bytes takes. -/
abbrev storeBytes (s : State) (t c n : Nat) (o : Op) : List Byte :=
  leBytes n (((issued s t c).ctx t c).getS (fD o.body)).toNat

theorem stoStore_retires (h : Issues s t c 0x28 fn o)
    (hok : ((issued s t c).ctx t c).winOk (accessAddr s t c n o) (storeBytes s t c n o).length = true ∧
      (issued s t c).mergeBad
        [(winAddr t ((issued s t c).ctx t c) (accessAddr s t c n o), storeBytes s t c n o)] = none) :
    stoStore fn n t o s = .next (moveOn s ((issued s t c).writeRange
      (winAddr t ((issued s t c).ctx t c) (accessAddr s t c n o)) (storeBytes s t c n o) 0).1 t c) := by
  rw [stoStore, stage_issues h]
  dsimp only
  rw [ctxWrite_good_one hok.1 hok.2]
  rfl

theorem stoStore_outside (h : Issues s t c 0x28 fn o)
    (hout : ((issued s t c).ctx t c).winOk (accessAddr s t c n o) (storeBytes s t c n o).length = false) :
    stoStore fn n t o s = .next (faulted s t c 2) := by
  rw [stoStore, stage_issues h]
  dsimp only
  rw [ctxWrite_outside hout, settle_fault]

/-- The bytes of a vector register that a vector store takes. -/
abbrev storeVec (s : State) (t c : Nat) (o : Op) : List Byte := vecBytes (((issued s t c).ctx t c).getV (fD o.body))

theorem execStoStv_retires (h : Issues s t c 0x28 0x01 o)
    (hok : ((issued s t c).ctx t c).winOk (accessAddr s t c 32 o) (storeVec s t c o).length = true ∧
      (issued s t c).mergeBad
        [(winAddr t ((issued s t c).ctx t c) (accessAddr s t c 32 o), storeVec s t c o)] = none) :
    execStoStv t o s = .next (moveOn s ((issued s t c).writeRange
      (winAddr t ((issued s t c).ctx t c) (accessAddr s t c 32 o)) (storeVec s t c o) 0).1 t c) := by
  rw [execStoStv, stage_issues h]
  dsimp only
  rw [ctxWrite_good_one hok.1 hok.2]
  rfl

theorem execStoStvi_retires (h : Issues s t c 0x28 0x03 o)
    (hok : ((issued s t c).ctx t c).winOk (effAddr ((issued s t c).ctx t c) (fA o.body) 0 32)
        (storeVec s t c o).length = true ∧
      (issued s t c).mergeBad [(winAddr t ((issued s t c).ctx t c)
        (effAddr ((issued s t c).ctx t c) (fA o.body) 0 32), storeVec s t c o)] = none) :
    execStoStvi t o s = .next (moveOn s (((issued s t c).writeRange (winAddr t ((issued s t c).ctx t c)
      (effAddr ((issued s t c).ctx t c) (fA o.body) 0 32)) (storeVec s t c o) 0).1.updCtx t c
        fun y => y.bump o.body) t c) := by
  rw [execStoStvi, stage_issues h]
  dsimp only
  rw [ctxWrite_good_one hok.1 hok.2]
  rfl

/-- The writes of a scatter, lanes in increasing order. -/
def scatterWrites (x : Ctx) (b : BitVec 47) : List (Nat × List Byte) :=
  (List.range 64).map fun i => (laneAddr x b i, leBytes 4 (laneGet 32 (x.getV (fD b)) i))

theorem leBytes_length (n v : Nat) : (leBytes n v).length = n := by
  induction n generalizing v with
  | zero => rfl
  | succ n ih => rw [leBytes, List.length_cons, ih]

theorem execStoScat_retires (h : Issues s t c 0x28 0x06 o)
    (hwin : ∀ i < 64, ((issued s t c).ctx t c).winOk (laneAddr ((issued s t c).ctx t c) o.body i) 4 = true)
    (hmerge : (issued s t c).mergeBad
      (((issued s t c).ctx t c).placed t (scatterWrites ((issued s t c).ctx t c) o.body)) = none) :
    execStoScat t o s = .next (moveOn s ((issued s t c).storeAll
      (((issued s t c).ctx t c).placed t (scatterWrites ((issued s t c).ctx t c) o.body))) t c) := by
  have hin : ∀ w ∈ scatterWrites ((issued s t c).ctx t c) o.body,
      ((issued s t c).ctx t c).winOk w.1 w.2.length = true := by
    simpa [scatterWrites, leBytes_length] using hwin
  rw [execStoScat, stage_issues h]
  dsimp only
  rw [← scatterWrites, ctxWrite_good hin hmerge]
  rfl

theorem execStoStvm_retires (h : Issues s t c 0x28 0x04 o) :
    let x := (issued s t c).ctx t c
    let ws := maskedWrites (effAddr x (fA o.body) (fX o.body) 32) (x.getV (fD o.body)) (x.getV (fB o.body))
    x.winOk (effAddr x (fA o.body) (fX o.body) 32) 256 = true → (∀ w ∈ ws, x.winOk w.1 w.2.length = true) →
    (issued s t c).mergeBad (x.placed t ws) = none →
    execStoStvm t o s = .next (moveOn s ((issued s t c).storeAll (x.placed t ws)) t c) := by
  intro x ws hall hwin hmerge
  rw [execStoStvm, stage_issues h]
  dsimp only
  rw [hall, ctxWrite_good hwin hmerge]
  rfl

end

/-- Settles O15: each store is one write of its context's window, or a list of writes in order. -/
theorem storeWrites : Obligations.StoreWrites := by
  intro t c o s s1 x b ok put low ea
  refine ⟨execStoStv_retires, execStoStvi_retires, fun h hok => ?st8, fun h hok => ?st16, fun h hok => ?st32,
    fun h hok => ?st64, fun h => ?scat, execStoStvm_retires, fun h hout => ?outside⟩
  case st8 => exact (stoStore_retires h hok : execStoSt8 t o s = _)
  case st16 => exact (stoStore_retires h hok : execStoSt16 t o s = _)
  case st32 => exact (stoStore_retires h hok : execStoSt32 t o s = _)
  case st64 => exact (stoStore_retires h hok : execStoSt64 t o s = _)
  case scat =>
    intro ws hwin hmerge
    have hws : ws = x.placed t (scatterWrites x o.body) := by
      rw [Ctx.placed, scatterWrites, List.map_map]; rfl
    rw [hws] at hmerge ⊢
    exact execStoScat_retires h hwin hmerge
  case outside =>
    have hlen : (storeBytes s t c 8 o).length = 8 := leBytes_length _ _
    exact (stoStore_outside h (hlen ▸ hout) : execStoSt64 t o s = _)

/-! ### The matrix unit (R91 to R94, R115, R116) -/

section
variable {s : State} {t c : Nat} {o : Op}

theorem execMatLdw_retires (h : Issues s t c 0x20 0x00 o) :
    let x := (issued s t c).ctx t c
    let wf := bitsAt (fImm o.body) 23 3
    let ea := effAddr x (fA o.body) (bitsAt (fImm o.body) 0 23) 32
    x.winOk ea (wbufBytes wf) = true → (issued s t c).firstBad (winAddr t x ea) (wbufBytes wf) = none →
    execMatLdw t o s = .next (retireOn s (loadState s t c ea (wbufBytes wf)) t c fun y =>
      y.setW (fD o.body) { tag := BitVec.ofNat 3 wf, data := BitVec.ofNat 32768 (loadVal s t c ea (wbufBytes wf)) }) := by
  intro x wf ea hwin hgood
  rw [execMatLdw, stage_issues h]
  dsimp only
  rw [ctxRead_good hwin hgood]
  rfl

theorem execMatAccst_retires (h : Issues s t c 0x20 0x05 o) :
    let x := (issued s t c).ctx t c
    let imm := fImm o.body
    let ea := effAddr x (fA o.body) (bitsAt imm 0 23) 32
    let r := x.accOut (fD o.body) (bitsAt imm 23 2) (bitsAt imm 25 2)
    let bytes := leBytes (4 * r.2.1) (packNat r.2.1 r.1)
    x.winOk ea bytes.length = true → (issued s t c).mergeBad [(winAddr t x ea, bytes)] = none →
    execMatAccst t o s = .next (moveOn s (((issued s t c).writeRange (winAddr t x ea) bytes 0).1.setCtx t c
      ((r.2.2.2.raise r.2.2.1).accClear (bitsAt imm 27 1) (fD o.body))) t c) := by
  intro x imm ea r bytes hwin hmerge
  rw [execMatAccst, stage_issues h]
  dsimp only
  rw [ctxWrite_good_one hwin hmerge]
  rfl

/-- What MMA makes of a context by the tag of its weight buffer: nothing but the invalid flag where the pairing is not
listed or the pair of buffers is broken, and else one or two accumulators. -/
def Ctx.mma (x : Ctx) (b : BitVec 47) : Ctx :=
  let af := bitsAt (fX b) 0 3
  let as := actElems (x.getV (fA b)) af (bitsAt (fX b) 3 3)
  let s0 := byteOf (x.getS (fB b)) (2 * bitsAt (fX b) 6 2)
  let s1 := byteOf (x.getS (fB b)) (2 * bitsAt (fX b) 6 2 + 1)
  if !mmaListed (x.getW (fC b)).tag.toNat af then x.raise flInvalid
  else if (x.getW (fC b)).tag.toNat = 4 then
    if fD b % 2 = 1 ∨ fC b % 2 = 1 ∨ (x.getW (fC b + 1)).tag ≠ 4 then x.raise flInvalid
    else (x.mmaInto (fD b) (fC b) af as s0 s1).mmaInto (fD b + 1) (fC b + 1) af as s0 s1
  else x.mmaInto (fD b) (fC b) af as s0 s1

theorem execMatMma_retires (h : Issues s t c 0x20 0x04 o) :
    execMatMma t o s = .next (moveOn s ((issued s t c).setCtx t c (((issued s t c).ctx t c).mma o.body)) t c) := by
  rw [execMatMma, stageReg_issues h]
  rfl

end

section
variable {x : Ctx} {b : BitVec 47}

theorem Ctx.mma_refused (h : mmaListed (x.getW (fC b)).tag.toNat (bitsAt (fX b) 0 3) = false ∨
    ((x.getW (fC b)).tag.toNat = 4 ∧ (fD b % 2 = 1 ∨ fC b % 2 = 1 ∨ (x.getW (fC b + 1)).tag ≠ 4))) :
    x.mma b = { x with flags := x.flags ||| 1 } := by
  rw [Ctx.mma]
  cases hlisted : mmaListed (x.getW (fC b)).tag.toNat (bitsAt (fX b) 0 3)
  case false => rfl
  case true =>
    obtain ⟨hpair, hbroken⟩ := h.resolve_left (by rw [hlisted]; exact Bool.noConfusion)
    rw [Bool.not_true, if_neg Bool.false_ne_true, if_pos hpair, if_pos hbroken]
    rfl

theorem Ctx.mma_one (hlisted : mmaListed (x.getW (fC b)).tag.toNat (bitsAt (fX b) 0 3) = true)
    (hone : (x.getW (fC b)).tag.toNat ≠ 4) : x.mma b = x.mmaInto (fD b) (fC b) (bitsAt (fX b) 0 3)
      (actElems (x.getV (fA b)) (bitsAt (fX b) 0 3) (bitsAt (fX b) 3 3))
      (byteOf (x.getS (fB b)) (2 * bitsAt (fX b) 6 2)) (byteOf (x.getS (fB b)) (2 * bitsAt (fX b) 6 2 + 1)) := by
  rw [Ctx.mma, hlisted, Bool.not_true, if_neg Bool.false_ne_true, if_neg hone]

theorem Ctx.mma_pair (hlisted : mmaListed (x.getW (fC b)).tag.toNat (bitsAt (fX b) 0 3) = true)
    (hpair : (x.getW (fC b)).tag.toNat = 4) (hd : fD b % 2 = 0) (hc : fC b % 2 = 0)
    (htag : (x.getW (fC b + 1)).tag = 4) :
    let af := bitsAt (fX b) 0 3
    let as := actElems (x.getV (fA b)) af (bitsAt (fX b) 3 3)
    let s0 := byteOf (x.getS (fB b)) (2 * bitsAt (fX b) 6 2)
    let s1 := byteOf (x.getS (fB b)) (2 * bitsAt (fX b) 6 2 + 1)
    x.mma b = (x.mmaInto (fD b) (fC b) af as s0 s1).mmaInto (fD b + 1) (fC b + 1) af as s0 s1 := by
  intro af as s0 s1
  rw [Ctx.mma, hlisted, Bool.not_true, if_neg Bool.false_ne_true, if_pos hpair, if_neg (by simp [hd, hc, htag])]

end

/-- Settles O13: loads and stores are accesses of the window, MMA is `Ctx.mma`, the others write one register. -/
theorem matrixInstructions : Obligations.MatrixInstructions := by
  intro t c o s b m s1 x imm ea
  refine ⟨execMatLdw_retires, fun h => ?zacc, fun h => ?accw, fun h => ?accr, fun h hrefused => ?refused,
    fun h => ⟨fun hlisted hone => ?one, fun hlisted hpair hd hc htag => ?pair⟩, execMatAccst_retires⟩
  case zacc => exact (stageReg_retires h : execMatZacc t o s = _)
  case accw => exact (stageReg_retires h : execMatAccw t o s = _)
  case accr => exact (stageReg_retires h : execMatAccr t o s = _)
  case refused => exact (Ctx.mma_refused hrefused) ▸ (execMatMma_retires h : execMatMma t o s = _)
  case one => exact (Ctx.mma_one hlisted hone) ▸ (execMatMma_retires h : execMatMma t o s = _)
  case pair => exact (Ctx.mma_pair hlisted hpair hd hc htag) ▸ (execMatMma_retires h : execMatMma t o s = _)

end Sys2Proof.Machine
end

section
/-! Stream channels (03, R45 to R48; 04, Table 4-15): instructions on the endpoints of a context, and the packets that
carry entries and credits. -/

namespace Sys2Proof.Machine

open Sys2Proof

/-- A read of a range that meets no uncorrectable unit gives the bytes, the errors met corrected. -/
theorem State.readRange_good {s : State} {a n : Nat} (src : Byte) (hgood : s.firstBad a n = none) :
    s.readRange a n src = (s.fixRange a n, (s.fixRange a n).readBytes a n, none) := by
  rw [State.readRange, hgood]

section
variable {s : State} {t c ep : Nat}

/-- The oldest entry of an endpoint whose words are good is read with the errors met corrected. -/
theorem chRead_good {k : State → Vec → Fx}
    (hgood : s.firstBad (((s.ctx t c).inEp ep).addr t ((s.ctx t c).inEp ep).head) 256 = none) :
    chRead s t c ep k =
      k (s.fixRange (((s.ctx t c).inEp ep).addr t ((s.ctx t c).inEp ep).head) 256)
        (vecOfBytes ((s.fixRange (((s.ctx t c).inEp ep).addr t ((s.ctx t c).inEp ep).head) 256).readBytes
          (((s.ctx t c).inEp ep).addr t ((s.ctx t c).inEp ep).head) 256)) := by
  -- the definition is unfolded as a function: applied, the kernel would evaluate the read of 256 bytes
  suffices hfun : ∀ f, f = chRead → f s t c ep k = _ from hfun _ rfl
  intro f hf
  delta chRead at hf
  subst hf
  dsimp only
  rw [State.readRange_good 0 hgood]

theorem OutEp.bad_of_open {e : OutEp} (hfar : e.far.isNone = false) (hclosed : e.closed = false) : e.bad = false := by
  rw [OutEp.bad, hfar, hclosed, Bool.or_self]

theorem OutEp.bad_of_unusable {e : OutEp} (h : e.far.isNone = true ∨ e.closed = true) : e.bad = true :=
  (Bool.or_eq_true _ _).mpr h

theorem InEp.bad_of_entries {e : InEp} (hfar : e.far.isNone = false) (hlasts : e.lasts.isEmpty = false) :
    e.bad = false := by
  rw [InEp.bad, hfar, hlasts, Bool.and_false, Bool.or_self]

theorem InEp.bad_of_not_ended {e : InEp} (hfar : e.far.isNone = false) (hended : e.ended = false) :
    e.bad = false := by
  rw [InEp.bad, hfar, hended, Bool.false_and, Bool.or_self]

theorem InEp.bad_of_ended {e : InEp} (hlasts : e.lasts = []) (hended : e.ended = true) : e.bad = true := by
  rw [InEp.bad, hlasts, hended, List.isEmpty_nil, Bool.and_self, Bool.or_true]

end

/-! ### Instructions -/

section
variable {s : State} {t c fn : Nat} {o : Op}

theorem execStrSend_retires (h : Issues s t c 0x30 0x00 o) {e : OutEp}
    (he : ((issued s t c).ctx t c).outEp (fD o.body) = e) (hfar : e.far.isNone = false) (hclosed : e.closed = false)
    (hcredits : e.credits ≠ 0) :
    execStrSend t o s = .next (moveOn s ((issued s t c).chSend t c (fD o.body)
      (((issued s t c).ctx t c).getV (fA o.body)) (decide (fX o.body % 2 = 1))) t c) := by
  rw [execStrSend, stage_issues h]
  dsimp only
  rw [he, OutEp.bad_of_open hfar hclosed, if_neg Bool.false_ne_true, if_neg hcredits]
  rfl

theorem execStrSend_starves (h : Issues s t c 0x30 0x00 o) {e : OutEp}
    (he : ((issued s t c).ctx t c).outEp (fD o.body) = e) (hfar : e.far.isNone = false) (hclosed : e.closed = false)
    (hcredits : e.credits = 0) : execStrSend t o s = .next (starved s t c 2) := by
  rw [execStrSend, stage_issues h]
  dsimp only
  rw [he, OutEp.bad_of_open hfar hclosed, if_neg Bool.false_ne_true, if_pos hcredits]
  rfl

theorem execStrSend_faults (h : Issues s t c 0x30 0x00 o)
    (hbad : (((issued s t c).ctx t c).outEp (fD o.body)).bad = true) :
    execStrSend t o s = .next (faulted s t c 3) := by
  rw [execStrSend, stage_issues h]
  dsimp only
  rw [if_pos hbad, settle_fault]

theorem execStrRecv_retires (h : Issues s t c 0x30 0x01 o) {e : InEp}
    (he : ((issued s t c).ctx t c).inEp (fA o.body) = e) (hfar : e.far.isNone = false) (hlasts : e.lasts ≠ [])
    (hgood : (issued s t c).firstBad (e.addr t e.head) 256 = none) :
    execStrRecv t o s = .next (moveOn s ((((issued s t c).fixRange (e.addr t e.head) 256).updCtx t c fun y =>
      y.setV (fD o.body) (vecOfBytes (((issued s t c).fixRange (e.addr t e.head) 256).readBytes
        (e.addr t e.head) 256))).chTake t c (fA o.body)) t c) := by
  subst he
  have hempty := List.isEmpty_eq_false_iff.mpr hlasts
  rw [execStrRecv, stage_issues h]
  dsimp only
  rw [InEp.bad_of_entries hfar hempty, hempty, if_neg Bool.false_ne_true, if_neg Bool.false_ne_true, chRead_good hgood]
  rfl

theorem execStrRecv_starves (h : Issues s t c 0x30 0x01 o) {e : InEp}
    (he : ((issued s t c).ctx t c).inEp (fA o.body) = e) (hfar : e.far.isNone = false) (hended : e.ended = false)
    (hlasts : e.lasts = []) : execStrRecv t o s = .next (starved s t c 1) := by
  rw [execStrRecv, stage_issues h]
  dsimp only
  rw [he, InEp.bad_of_not_ended hfar hended, hlasts, if_neg Bool.false_ne_true, if_pos List.isEmpty_nil]
  rfl

theorem execStrRecv_faults (h : Issues s t c 0x30 0x01 o)
    (hbad : (((issued s t c).ctx t c).inEp (fA o.body)).bad = true) :
    execStrRecv t o s = .next (faulted s t c 3) := by
  rw [execStrRecv, stage_issues h]
  dsimp only
  rw [if_pos hbad, settle_fault]

theorem execStrFwd_retires (h : Issues s t c 0x30 0x02 o) {i : InEp} {e : OutEp}
    (hi : ((issued s t c).ctx t c).inEp (fA o.body) = i) (he : ((issued s t c).ctx t c).outEp (fD o.body) = e)
    (hifar : i.far.isNone = false) (hlasts : i.lasts ≠ []) (hefar : e.far.isNone = false) (hclosed : e.closed = false)
    (hcredits : e.credits ≠ 0) (hgood : (issued s t c).firstBad (i.addr t i.head) 256 = none) :
    execStrFwd t o s = .next (moveOn s ((((issued s t c).fixRange (i.addr t i.head) 256).chTake t c (fA o.body)).chSend
      t c (fD o.body) (vecOfBytes (((issued s t c).fixRange (i.addr t i.head) 256).readBytes (i.addr t i.head) 256))
      (nth i.lasts 0 false)) t c) := by
  subst hi
  have hempty := List.isEmpty_eq_false_iff.mpr hlasts
  rw [execStrFwd, stage_issues h]
  dsimp only
  rw [he, InEp.bad_of_entries hifar hempty, OutEp.bad_of_open hefar hclosed, hempty, Bool.or_self,
    if_neg Bool.false_ne_true, if_neg Bool.false_ne_true, if_neg hcredits, chRead_good hgood]
  rfl

theorem chTestIn_retires {f : InEp → Bool} (h : Issues s t c 0x30 fn o)
    (hfar : (((issued s t c).ctx t c).inEp (fA o.body)).far.isNone = false) :
    chTestIn fn t o s f = .next (retire s t c fun y =>
      y.setP (fD o.body) (f (((issued s t c).ctx t c).inEp (fA o.body)))) := by
  rw [chTestIn, stage_issues h]
  dsimp only
  rw [hfar, if_neg Bool.false_ne_true]
  rfl

theorem execStrCred_retires (h : Issues s t c 0x30 0x05 o)
    (hfar : (((issued s t c).ctx t c).outEp (fA o.body)).far.isNone = false) :
    execStrCred t o s = .next (retire s t c fun y =>
      y.setP (fD o.body) (decide (0 < (((issued s t c).ctx t c).outEp (fA o.body)).credits))) := by
  rw [execStrCred, stage_issues h]
  dsimp only
  rw [hfar, if_neg Bool.false_ne_true]
  rfl

end

/-! ### Packets -/

section
variable {s : State} {fd : Nat} {p : Packet}

/-- The endpoint of a packet takes what is sent in the packet's name. -/
abbrev State.namedBy (s : State) (p : Packet) : Prop :=
  let x := s.ctx p.dstTile.toNat p.ctx.toNat
  x.mode ≠ .empty ∧ x.jobId = p.jobId ∧ x.jobGen = p.jobGen

theorem sameJob_of_namedBy (h : s.namedBy p) :
    (s.ctx p.dstTile.toNat p.ctx.toNat).sameJob p.jobId p.jobGen = true := decide_eq_true h

theorem sameJob_of_not_namedBy (h : ¬ s.namedBy p) :
    (s.ctx p.dstTile.toNat p.ctx.toNat).sameJob p.jobId p.jobGen = false := decide_eq_false h

theorem execChEntry_other_job (harr : Arrives s kChEntry fd p (some (partOfTile p.dstTile.toNat)))
    (hname : ¬ s.namedBy p) : execChEntry fd p s = .next (s.chDropped p.dstTile.toNat) := by
  rw [execChEntry, rxPacket_arrives harr]
  dsimp only
  rw [sameJob_of_not_namedBy hname]
  rfl

variable {e : InEp} (he : (s.ctx p.dstTile.toNat p.ctx.toNat).inEp p.ep.toNat = e)
  (harr : Arrives s kChEntry fd p (some (partOfTile p.dstTile.toNat))) (hname : s.namedBy p)
  (hfar : e.far.isNone = false) (hroom : e.lasts.length + e.early.length < e.depth)
include he harr hname hfar hroom

theorem execChEntry_in_turn (hturn : p.ident = e.nextSeq) : execChEntry fd p s = .next
    ((s.chWrite p.dstTile.toNat p.ctx.toNat p.ep.toNat (vecOfBytes p.payload) (p.arg.getLsbD 0)).chDrain
      p.dstTile.toNat p.ctx.toNat p.ep.toNat 64) := by
  rw [execChEntry, rxPacket_arrives harr]
  dsimp only
  rw [he, sameJob_of_namedBy hname, hfar, if_neg (by decide), if_neg (by omega), if_pos hturn]

theorem execChEntry_early (hturn : p.ident ≠ e.nextSeq) (hnew : e.early.any (fun a => decide (a.1 = p.ident)) = false) :
    execChEntry fd p s = .next (s.updCtx p.dstTile.toNat p.ctx.toNat fun y => y.setIn p.ep.toNat
      { e with early := e.early ++ [(p.ident, vecOfBytes p.payload, p.arg.getLsbD 0)] }) := by
  rw [execChEntry, rxPacket_arrives harr]
  dsimp only
  rw [he, sameJob_of_namedBy hname, hfar, if_neg (by decide), if_neg (by omega), if_neg hturn, hnew,
    if_neg Bool.false_ne_true]

end

section
variable {s : State} {fd : Nat} {p : Packet}

theorem execChCredit_adds (harr : Arrives s kChCredit fd p (some (partOfTile p.dstTile.toNat))) (hname : s.namedBy p)
    {e : OutEp} (he : (s.ctx p.dstTile.toNat p.ctx.toNat).outEp p.ep.toNat = e) (hfar : e.far.isNone = false) :
    execChCredit fd p s = .next (s.updCtx p.dstTile.toNat p.ctx.toNat fun y =>
      y.setOut p.ep.toNat { e with credits := e.credits + p.arg.toNat % 16 }) := by
  rw [execChCredit, rxPacket_arrives harr, State.chCredit]
  rw [he, sameJob_of_namedBy hname, hfar, if_neg (by decide)]

theorem execChCreditSend_due {t c ep t1 c1 ep1 : Nat} {co : Coord} {e : InEp} (he : (s.ctx t c).inEp ep = e)
    (hfar : e.far = some (.away co t1 c1 ep1)) (hon : s.dieOn (dieOfTile t) = true)
    (hdue : 8 ≤ e.owed.length ∨ e.owed.head?.any (fun f => s.passed f 20) = true) :
    execChCreditSend t c ep s = .next
      ((s.updCtx t c fun x => x.setIn ep { e with owed := e.owed.drop (min 8 e.owed.length) }).sendPacket (fdOfTile t) {
        dst := co, src := 0, kind := kChCredit, vc := 1, det := s.jobDet (s.ctx t c).jobId, jobId := (s.ctx t c).jobId,
        jobGen := (s.ctx t c).jobGen, dstTile := BitVec.ofNat 16 t1, srcTile := BitVec.ofNat 16 t,
        ep := BitVec.ofNat 3 ep1, ctx := BitVec.ofNat 2 c1, b23 := chB23 c ep,
        arg := BitVec.ofNat 64 (min 8 e.owed.length) }) := by
  have hgo : (s.dieOn (dieOfTile t) && (decide (8 ≤ e.owed.length) || e.owed.head?.any (fun f => s.passed f 20))) = true := by
    simpa [hon] using hdue
  rw [execChCreditSend]
  dsimp only
  rw [he, hfar]
  dsimp only
  rw [if_pos hgo]

end

/-- Settles O17: an instruction looks at its endpoints first; a packet is taken where it names the job of the context. -/
theorem streamChannels : Obligations.StreamChannels := by
  refine ⟨?instructions, ?packets⟩
  case instructions =>
    intro t c o s s1 x b out inp red entry
    refine ⟨fun h => execStrSend_retires h rfl, fun h => execStrSend_starves h rfl,
      fun h hbad => execStrSend_faults h (OutEp.bad_of_unusable hbad), fun h => execStrRecv_retires h rfl,
      fun h => execStrRecv_starves h rfl, fun h hlasts hended => execStrRecv_faults h (InEp.bad_of_ended hlasts hended),
      fun h => execStrFwd_retires h rfl rfl, fun h hfar => ?eos, fun h hfar => ?avail, execStrCred_retires⟩
    case eos => exact (chTestIn_retires h hfar : execStrEos t o s = _)
    case avail => exact (chTestIn_retires h hfar : execStrAvail t o s = _)
  case packets =>
    intro fd p s t c ep x e mine
    refine ⟨execChEntry_in_turn rfl, execChEntry_early rfl, execChEntry_other_job,
      fun harr hname => execChCredit_adds harr hname rfl, ?creditSend⟩
    case creditSend =>
      intro t' c' ep' t1 c1 ep1 co y i hfar hon hdue
      exact execChCreditSend_due rfl hfar hon hdue

end Sys2Proof.Machine
end

section
/-! FAB transfers (04, Table 4-17; 07, R173, R174, R181, R182): their issue, their packets at the destination and back at
the source, and their end. -/

namespace Sys2Proof.Machine

open Sys2Proof

/-! ### At the source (R99, R182) -/

section
variable {s u : State} {t c tag : Nat} {o : Op}

/-- The context of a descriptor whose tag is freed: the hurdle of its last reduction is waited for, its hold ended. -/
def Ctx.freeTag (x : Ctx) (tag : Nat) : Ctx :=
  (x.redWaited tag).setFab tag { (x.redWaited tag).fab tag with holdFrom := none }

theorem fabTag_free {k : State → Fx} (hidle : ((s.ctx t c).fab tag).xfer.isSome = false)
    (hheld : s.tagHeld ((s.ctx t c).fab tag) = false) :
    fabTag s t c tag k = k (s.updCtx t c fun x => x.freeTag tag) := by
  rw [fabTag]
  dsimp only
  rw [hidle, hheld, if_neg Bool.false_ne_true, if_neg Bool.false_ne_true]
  rfl

theorem State.readXfer_good {a n : Nat} (hgood : s.firstBad a n = none) :
    s.readXfer a n = (s.fixRange a n, (s.fixRange a n).readBytes a n, true) := by
  rw [State.readXfer, s.readRange_good 0 hgood]

/-- The transfer that a descriptor of context `x` describes. -/
def Ctx.fabXfer (x : Ctx) (b : BitVec 47) (kind : XferKind) (co : Coord) (bs : List Byte) : Xfer :=
  { kind := kind, aw := x.getA32 (fA b), am := x.getA32 (fB b), len := xferLen (x.getS (fC b)), peer := co, bytes := bs,
    open_ := List.range (pktCount (xferLen (x.getS (fC b)))) }

/-- The tag is in flight with a transfer; the bytes are with its packets. -/
def State.flying (s : State) (t c tag : Nat) (xf : Xfer) : State :=
  s.updCtx t c fun y => y.setFab tag { y.fab tag with xfer := some { xf with bytes := [] }, status := 0 }

/-- The length of a descriptor's transfer is legal, and its window bytes lie in the window. -/
def Ctx.fabFits (x : Ctx) (b : BitVec 47) : Prop :=
  0 < xferLen (x.getS (fC b)) ∧ xferLen (x.getS (fC b)) ≤ xferMax ∧
    x.winOk (x.getA32 (fA b)) (xferLen (x.getS (fC b))) = true

/-- A legal PUT or GET whose bytes are `bs`, read in state `v`, puts its tag in flight and its packets leave. -/
theorem fabIssue_flies {kind : XferKind} {co : Coord} {v : State} {bs : List Byte}
    (hidle : ((s.ctx t c).fab (fD o.body)).xfer.isSome = false) (hheld : s.tagHeld ((s.ctx t c).fab (fD o.body)) = false)
    (hu : (s.updCtx t c fun x => x.freeTag (fD o.body)) = u) (hfits : (u.ctx t c).fabFits o.body)
    (hpeer : u.peerOf t (u.ctx t c) (((u.ctx t c).getS (fC o.body)).toNat / 2 ^ 32 % 65536) = some co)
    (hread : (if kind = .fabPut then u.readXfer (winAddr t (u.ctx t c) ((u.ctx t c).getA32 (fA o.body)))
      (xferLen ((u.ctx t c).getS (fC o.body))) else (u, [], true)) = (v, bs, true)) :
    fabIssue kind t o s c = .done ((v.flying t c (fD o.body) ((u.ctx t c).fabXfer o.body kind co bs)).sendXfer t c
      (fD o.body) (u.ctx t c) ((u.ctx t c).fabXfer o.body kind co bs) (if kind = .fabPut then kPut else kGetReq)) := by
  obtain ⟨hpos, hmax, hwin⟩ := hfits
  rw [fabIssue]
  dsimp only
  rw [fabTag_free hidle hheld, hu, if_neg (Nat.not_lt.mpr hmax), if_neg hpos.ne', hwin, if_neg (by decide), hpeer]
  dsimp only
  rw [hread]
  rfl

theorem execFabWait_idle (h : Issues s t c 0x34 0x04 o)
    (hidle : (((issued s t c).ctx t c).fab (fD o.body)).xfer.isSome = false) :
    execFabWait t o s = .next (retire s t c fun y => y.redWaited (fD o.body)) := by
  rw [execFabWait, stage_issues h]
  rw [hidle, if_neg Bool.false_ne_true]
  rfl

theorem execFabWait_in_flight (h : Issues s t c 0x34 0x04 o)
    (hfly : (((issued s t c).ctx t c).fab (fD o.body)).xfer.isSome = true) :
    execFabWait t o s = .next (starved s t c 5) := by
  rw [execFabWait, stage_issues h]
  rw [if_pos hfly]
  rfl

theorem execFabTransferComplete_answered {z : Xfer} (hfly : ((s.ctx t c).fab tag).xfer = some z)
    (hon : s.dieOn (dieOfTile t) = true) (hc : c < 4) (hopen : z.open_ = []) (hkind : z.kind ≠ .fabRed) :
    execFabTransferComplete t c tag s = .next (s.fabDone t c tag z.worst) := by
  rw [execFabTransferComplete]
  dsimp only
  rw [hfly]
  exact doIf_true (by simp [hon, hc, hopen, hkind])

end

/-! ### At the destination, and back (R146, R173, R181) -/

section
variable {s : State} {fd : Nat} {p : Packet}

theorem execPut_in_reach (harr : Arrives s kPut fd p (s.partOfAddr (pktAddr p)))
    (hreach : s.jobReach p.jobId (pktAddr p) p.payload.length = true) :
    execPut fd p s = .next ((s.writeXfer (pktAddr p) p.payload).1.sendPacket fd
      (answerTo p kPutAck (if (s.writeXfer (pktAddr p) p.payload).2 then 0 else 2) [])) := by
  rw [execPut]
  dsimp only
  rw [rxPacket_arrives harr, hreach, if_neg (by decide)]

theorem execPut_out_of_reach (harr : Arrives s kPut fd p (s.partOfAddr (pktAddr p)))
    (hreach : s.jobReach p.jobId (pktAddr p) p.payload.length = false) :
    execPut fd p s = .next (s.sendPacket fd (answerTo p kPutAck 1 [])) := by
  rw [execPut]
  dsimp only
  rw [rxPacket_arrives harr, hreach, if_pos (by decide)]

theorem execGetReq_in_reach (harr : Arrives s kGetReq fd p (s.partOfAddr (pktAddr p)))
    (hreach : s.jobReach p.jobId (pktAddr p) p.len.toNat = true)
    (hgood : s.firstBad (pktAddr p) p.len.toNat = none) :
    execGetReq fd p s = .next ((s.fixRange (pktAddr p) p.len.toNat).sendPacket fd
      (answerTo p kGetData 0 ((s.fixRange (pktAddr p) p.len.toNat).readBytes (pktAddr p) p.len.toNat))) := by
  rw [execGetReq]
  dsimp only
  rw [rxPacket_arrives harr, hreach, if_neg (by decide), s.readRange_good 0 hgood]

theorem execGetReq_out_of_reach (harr : Arrives s kGetReq fd p (s.partOfAddr (pktAddr p)))
    (hreach : s.jobReach p.jobId (pktAddr p) p.len.toNat = false) :
    execGetReq fd p s = .next (s.sendPacket fd (answerTo p kGetData 1 [])) := by
  rw [execGetReq]
  dsimp only
  rw [rxPacket_arrives harr, hreach, if_pos (by decide)]

/-- The packet of a tag that an answer names is waited for. -/
abbrev State.awaits (s : State) (p : Packet) (kind : XferKind) : Bool :=
  s.awaited p.dstTile.toNat p.ctx.toNat (p.b23.toNat % 16) p.ident.toNat kind p.jobId p.jobGen

theorem execPutAck_awaited (harr : Arrives s kPutAck fd p (some (partOfTile p.dstTile.toNat)))
    (hwait : s.awaits p .fabPut = true) :
    execPutAck fd p s = .next (s.updCtx p.dstTile.toNat p.ctx.toNat fun x =>
      x.answered (p.b23.toNat % 16) p.ident.toNat (pktStatus p)) := by
  rw [execPutAck]
  rw [rxPacket_arrives harr, if_pos hwait]

theorem execPutAck_late (harr : Arrives s kPutAck fd p (some (partOfTile p.dstTile.toNat)))
    (hwait : s.awaits p .fabPut = false) : execPutAck fd p s = .next (s.countDrop fd dLate) := by
  rw [execPutAck]
  rw [rxPacket_arrives harr, if_neg (by simp [hwait])]

theorem execGetData_awaited {xf : Xfer} (harr : Arrives s kGetData fd p (some (partOfTile p.dstTile.toNat)))
    (hfly : ((s.ctx p.dstTile.toNat p.ctx.toNat).fab (p.b23.toNat % 16)).xfer = some xf)
    (hwait : s.awaits p .fabGet = true) (hstatus : pktStatus p = 0) :
    execGetData fd p s = .next ((s.writeRange
      (winAddr p.dstTile.toNat (s.ctx p.dstTile.toNat p.ctx.toNat) (xf.aw + p.ident.toNat * pktBytes))
      (sliceB p.payload 0 (pktLen xf.len p.ident.toNat)) 0).1.updCtx p.dstTile.toNat p.ctx.toNat fun x =>
        x.answered (p.b23.toNat % 16) p.ident.toNat 0) := by
  rw [execGetData]
  dsimp only
  rw [rxPacket_arrives harr, hfly]
  dsimp only
  rw [if_neg (by simp [hwait]), if_pos hstatus, hstatus]

end

/-- Settles O18: a descriptor whose tag is free and whose transfer is legal flies; each packet is judged by its checks
and by what waits for it. -/
theorem fabTransfers : Obligations.FabTransfers := by
  refine ⟨?source, ?packets⟩
  case source =>
    intro t c o s s1 b tag free s2 x sl len aw xf fly fits
    refine ⟨fun co h hfree hfits hpeer hgood => ?put, fun co h hfree hfits hpeer => ?get, execFabWait_idle,
      execFabWait_in_flight, fun h => ?test, fun h => ?stat, fun g z => execFabTransferComplete_answered⟩
    case put =>
      have hflies := fabIssue_flies (kind := .fabPut) hfree.1 hfree.2 rfl hfits hpeer
        ((if_pos rfl).trans (State.readXfer_good hgood))
      show execFabPut t o s = _
      rw [execFabPut, stage_issues h, hflies]
      rfl
    case get =>
      have hflies := fabIssue_flies (kind := .fabGet) hfree.1 hfree.2 rfl hfits hpeer (if_neg (by decide))
      show execFabGet t o s = _
      rw [execFabGet, stage_issues h, hflies]
      rfl
    case test => exact (stageReg_retires h : execFabTest t o s = _)
    case stat => exact (stageReg_retires h : execFabStat t o s = _)
  case packets =>
    intro fd p s a t c tag i n
    exact ⟨execPut_in_reach, execPut_out_of_reach, execGetReq_in_reach, execGetReq_out_of_reach, execPutAck_awaited,
      execPutAck_late, fun xf => execGetData_awaited⟩

end Sys2Proof.Machine
end

section
/-! System and hurdle instructions (03, R64 to R71; 04, Tables 4-18 and 4-19). -/

namespace Sys2Proof.Machine

open Sys2Proof

/-- Settles O19: SYS.EVENT posts what its context no longer holds, the others write one register of their context. -/
theorem systemInstructions : Obligations.SystemInstructions := by
  intro t c o s s1 b put
  refine ⟨fun j h hj => ?row, ?_, ?_, ?_, ?_, ?_, ?_, fun h => ?event, fun h => ?tile, ?_, fun h => ?time, ?_, ?_⟩
  case row =>
    subst hj
    exact (stageReg_issues h : execSysRow t o s = _)
  case event => exact (stage_issues h : execSysEvent t o s = _)
  case tile => exact (stage_issues h : execSysTile t o s = _)
  case time => exact (stageReg_issues h : execSysTime t o s = _)
  all_goals
    intro h
    delta exec
    exact stageReg_retires h

/-! ### Hurdles of a context (R50, R64, R66) -/

section
variable {s : State} {t c : Nat} {x : Ctx} {h : BitVec 12}

theorem State.badArrival_of_legal (hplan : (s.planOf t x h).isSome = true)
    (hnew : x.arrived.any (fun a => decide (a.1 = h.toNat)) = false) : s.badArrival t x h = false := by
  rw [State.badArrival, hnew, Bool.or_false, Option.isNone_eq_false_iff]
  exact hplan

theorem State.badArrival_of_not_legal
    (hnot : ¬ ((s.planOf t x h).isSome = true ∧ x.arrived.any (fun a => decide (a.1 = h.toNat)) = false)) :
    s.badArrival t x h = true := by
  rw [State.badArrival]
  cases hplan : s.planOf t x h
  case none => rfl
  case some r =>
    rw [hplan] at hnot
    simpa using hnot

/-- What a wait on a hurdle comes to, by the generation that the context arrived at. -/
theorem hurWaits_eq_fault (hnone : (s.ctx t c).arrivedAt h = none) : hurWaits s t c h = .fault s 4 := by
  rw [hurWaits, hnone]

theorem hurWaits_eq_starve {g : Byte} (hat : (s.ctx t c).arrivedAt h = some g) (hnow : s.genNow t (s.ctx t c) h = g) :
    hurWaits s t c h = .starve s 3 := by
  rw [hurWaits, hat]
  exact if_pos hnow

theorem hurWaits_eq_done {g : Byte} (hat : (s.ctx t c).arrivedAt h = some g) (hpast : s.genNow t (s.ctx t c) h ≠ g) :
    hurWaits s t c h = .done (s.hurPassed t c h g) := by
  rw [hurWaits, hat]
  exact if_neg hpast

end

section
variable {s : State} {t c : Nat} {o : Op}

theorem execHurArrive_retires (h : Issues s t c 0x38 0x00 o)
    (hgood : (issued s t c).badArrival t ((issued s t c).ctx t c) (hurId o) = false) :
    execHurArrive t o s = .next (moveOn s ((issued s t c).hurArrive t c (hurId o)) t c) := by
  rw [execHurArrive, stage_issues h]
  rw [hgood, if_neg Bool.false_ne_true]
  rfl

theorem execHurArrive_faults (h : Issues s t c 0x38 0x00 o)
    (hbad : (issued s t c).badArrival t ((issued s t c).ctx t c) (hurId o) = true) :
    execHurArrive t o s = .next (faulted s t c 4) := by
  rw [execHurArrive, stage_issues h]
  rw [if_pos hbad, settle_fault]

/-- A SYNC that has not arrived yet arrives, and then waits in the state `u`. -/
theorem execHurSync_arrives {u : State} (h : Issues s t c 0x38 0x02 o)
    (hfirst : ((issued s t c).ctx t c).inSync = false)
    (hgood : (issued s t c).badArrival t ((issued s t c).ctx t c) (hurId o) = false)
    (hu : (((issued s t c).hurArrive t c (hurId o)).updCtx t c fun y => { y with inSync := true }) = u) :
    execHurSync t o s = .next ((hurWaits u t c (hurId o)).settle t c (s.ctx t c).pc.toNat
      (s.istoreWord t (s.ctx t c).pc.toNat)) := by
  rw [execHurSync, stage_issues h]
  rw [hfirst, if_neg Bool.false_ne_true, hgood, if_neg Bool.false_ne_true, hu]

theorem execHurSync_again (h : Issues s t c 0x38 0x02 o) (hagain : ((issued s t c).ctx t c).inSync = true) :
    execHurSync t o s = .next ((hurWaits (issued s t c) t c (hurId o)).settle t c (s.ctx t c).pc.toNat
      (s.istoreWord t (s.ctx t c).pc.toNat)) := by
  rw [execHurSync, stage_issues h]
  rw [if_pos hagain]

end

/-- Settles O20: an arrival is judged by R66, a wait by the generation arrived at; a SYNC is one and then the other. -/
theorem hurdleInstructions : Obligations.HurdleInstructions := by
  intro t c o s s1 x h legal arrive synced sync2
  refine ⟨fun hi hlegal => ?arrive, fun hi hnot => ?arriveFault, fun g hi hat hpast => ?waitDone,
    fun g hi hat hnow => ?waitStarve, fun hi hnone => ?waitFault, fun g hi hfirst hlegal hat hnow => ?syncStarve,
    fun g hi hfirst hlegal hat hpast => ?syncDone, fun g hi hagain hat hpast => ?syncAgain, fun hi => ?gen⟩
  case arrive => exact execHurArrive_retires hi (State.badArrival_of_legal hlegal.1 hlegal.2)
  case arriveFault => exact execHurArrive_faults hi (State.badArrival_of_not_legal hnot)
  case waitDone =>
    show execHurWait t o s = _
    rw [execHurWait, stage_issues hi, (hurWaits_eq_done hat hpast : hurWaits (issued s t c) t c (hurId o) = _)]
    rfl
  case waitStarve =>
    show execHurWait t o s = _
    rw [execHurWait, stage_issues hi, (hurWaits_eq_starve hat hnow : hurWaits (issued s t c) t c (hurId o) = _)]
    rfl
  case waitFault =>
    show execHurWait t o s = _
    rw [execHurWait, stage_issues hi, (hurWaits_eq_fault hnone : hurWaits (issued s t c) t c (hurId o) = _), settle_fault]
  case syncStarve =>
    show execHurSync t o s = _
    rw [execHurSync_arrives hi hfirst (State.badArrival_of_legal hlegal.1 hlegal.2) (rfl : _ = synced),
      (hurWaits_eq_starve hat hnow : hurWaits synced t c (hurId o) = _)]
    rfl
  case syncDone =>
    show execHurSync t o s = _
    rw [execHurSync_arrives hi hfirst (State.badArrival_of_legal hlegal.1 hlegal.2) (rfl : _ = synced),
      (hurWaits_eq_done hat hpast : hurWaits synced t c (hurId o) = _)]
    rfl
  case syncAgain =>
    show execHurSync t o s = _
    rw [execHurSync_again hi hagain, (hurWaits_eq_done hat hpast : hurWaits (issued s t c) t c (hurId o) = _)]
    rfl
  case gen => exact (stageReg_issues hi : execHurGen t o s = _)

end Sys2Proof.Machine
end

section
/-! The hurdle unit and the reduction engines (03, R64 to R71; 04, R100; 07, R174, R183 to R185). -/

namespace Sys2Proof.Machine

open Sys2Proof

/-! ### Arrivals, messages, time-outs (R65, R67, R68, R71, R174) -/

section
variable {s : State}

theorem execArrivalWritesComplete_counts {t c : Nat} {h : BitVec 12} {g : Byte}
    (hheld : (s.ctx t c).heldArr.find? (fun a => decide (a.1 = h)) = some (h, g, [], []))
    (hon : s.dieOn (dieOfTile t) = true) (hc : c < 4) :
    execArrivalWritesComplete t c h s = .next ((s.updCtx t c fun x =>
      { x with heldArr := x.heldArr.filter (fun b => decide (b.1 ≠ h)) }).countArrival t (s.ctx t c) h g) := by
  rw [execArrivalWritesComplete]
  rw [hheld]
  exact doIf_true (by simp [hon, hc])

section
variable {die j : Nat} {m : ArrMsg} {ms : List ArrMsg} (hmsgs : (s.die die).arrMsgs = m :: ms)
  (hon : s.pwr.transit = true) (hdie : die < 40)
  (hslot : (s.updDie die fun d => { d with arrMsgs := ms }).slotOfJob m.jobId = some j)
  (hgen : ((s.updDie die fun d => { d with arrMsgs := ms }).job j).jobGen = m.jobGen)
include hmsgs hon hdie hslot hgen

theorem execHurdleArrival_current
    (hcur : (((s.updDie die fun d => { d with arrMsgs := ms }).job j).hur m.hur).gen = m.hurGen) :
    execHurdleArrival die s =
      .next ((s.updDie die fun d => { d with arrMsgs := ms }).hurCount j m.hur m.count none) := by
  rw [execHurdleArrival, hmsgs]
  dsimp only
  rw [if_neg (by simp [hon, hdie]), hslot]
  exact if_neg (by simp [hgen, hcur])

omit hgen in
theorem execHurdleArrival_stale
    (hcur : (((s.updDie die fun d => { d with arrMsgs := ms }).job j).hur m.hur).gen ≠ m.hurGen) :
    execHurdleArrival die s = .next ((s.updDie die fun d => { d with arrMsgs := ms }).stale_ j 1) := by
  rw [execHurdleArrival, hmsgs]
  dsimp only
  rw [if_neg (by simp [hon, hdie]), hslot]
  exact if_pos (.inr hcur)

end

section
variable {p : Packet} {j : Nat} (hslot : s.slotOfJob p.jobId = some j)
  (hgen : ((s.job j).hur (p.ident.setWidth 12)).gen = p.arg.setWidth 8)
include hslot hgen

theorem execHurArrivePacket_named (harr : Arrives s kHurArrive 0 p none)
    (hrecs : s.slotRecs j (p.ident.setWidth 12) ≠ []) :
    execHurArrivePacket p s = .next (s.hurCount j (p.ident.setWidth 12) 0 (some p.src)) := by
  rw [execHurArrivePacket, rxPacket_arrives harr, hslot]
  dsimp only
  rw [if_neg (not_not_intro hgen), if_neg (by simpa using hrecs)]

theorem execHurArrivePacket_early (harr : Arrives s kHurArrive 0 p none)
    (hrecs : s.slotRecs j (p.ident.setWidth 12) = []) :
    execHurArrivePacket p s = .next ((s.updHur j (p.ident.setWidth 12) fun x =>
      { x with early := x.early + 1 }).hurCount j (p.ident.setWidth 12) 0 (some p.src)) := by
  rw [execHurArrivePacket, rxPacket_arrives harr, hslot]
  dsimp only
  rw [if_neg (not_not_intro hgen), hrecs, if_pos List.isEmpty_nil]

theorem execHurReleasePacket_current (harr : Arrives s kHurRelease 0 p none)
    (hrecs : s.slotRecs j (p.ident.setWidth 12) ≠ []) :
    execHurReleasePacket p s = .next (s.hurRelease j (p.ident.setWidth 12)) := by
  rw [execHurReleasePacket, rxPacket_arrives harr, hslot]
  dsimp only
  rw [if_neg (by simp [hrecs, hgen])]

end

theorem execHurdleTimeout_late {j : Nat} {h : BitVec 12} {t : Word} (hon : s.pwr.transit = true) (hj : j < 8)
    (hvalid : (s.job j).valid = true) (hlimit : s.hurTimeout ≠ 0) (hnew : ((s.job j).hur h).timedOut = false)
    (hopen : ((s.job j).hur h).openSince = some t) (hpassed : s.passed t s.hurTimeout.toNat = true) :
    execHurdleTimeout j h s = .next (s.hurReport j h) := by
  have hlate : s.hurLate ((s.job j).hur h) = true := by
    simpa [State.hurLate, hnew, hopen, hpassed] using hlimit
  exact doIf_true (by simp [hon, hj, hvalid, hlate])

theorem execHurTimeoutWrite_no_job {ticks : BitVec 32} (hon : s.pwr.transit = true)
    (hnone : ∀ j < 8, (s.job j).valid = false) :
    execHurTimeoutWrite ticks s = .next { s with hurTimeout := ticks } := by
  have hset : s.setHurTimeout ticks = { s with hurTimeout := ticks } := by
    unfold State.setHurTimeout
    refine List.foldlRecOn (motive := fun u => u = { s with hurTimeout := ticks }) _ _ rfl fun u hu j hj => ?_
    have hinvalid : (u.job j).valid = false := hu ▸ hnone j (List.mem_range.mp hj)
    rw [hinvalid, if_neg Bool.false_ne_true, hu]
  rw [execHurTimeoutWrite, doIf_true hon, hset]

theorem execReleaseHoldEnd_root {j : Nat} {h : BitVec 12} (hon : s.pwr.transit = true) (hj : j < 8)
    (hvalid : (s.job j).valid = true) (hcomplete : ((s.job j).hur h).complete = true)
    (hroot : hurParent (s.slotRecs j h) = none) (hfull : hurFull (s.slotRecs j h) ((s.job j).hur h) = true)
    (hheld : s.releaseHeld ((s.job j).hur h) = false) : execReleaseHoldEnd j h s = .next (s.hurRelease j h) :=
  doIf_true (by simp [hon, hj, hvalid, hcomplete, hroot, hfull, hheld])

end

/-! ### A release (R64, R65, R69) -/

theorem jobs_foldl {β : Type} {f : State → β → State} (hf : ∀ s b, (f s b).jobs = s.jobs) (l : List β) (s : State) :
    (l.foldl f s).jobs = s.jobs := by
  induction l generalizing s with
  | nil => rfl
  | cons b l ih => exact (ih _).trans (hf s b)

theorem State.sendPacket_jobs (s : State) (fd : Nat) (p : Packet) : (s.sendPacket fd p).jobs = s.jobs :=
  congrArg (fun v => v.jobs) (s.sendPacket_unsent fd p)

theorem State.event_jobs (s : State) (r : Nat) (k : Byte) (l : List (Nat × Nat × Nat)) :
    (s.event r k l).jobs = s.jobs := by
  have hdrop (x : Ring) : (s.dropEvent r x).jobs = s.jobs := by
    unfold State.dropEvent
    rfl
  unfold State.event
  dsimp only
  split_ifs
  · rfl
  · rfl
  · exact hdrop _
  · exact hdrop _
  · exact hdrop _

theorem State.jobEvent_jobs (s : State) (j : BitVec 16) (k : Byte) (l : List (Nat × Nat × Nat)) :
    (s.jobEvent j k l).jobs = s.jobs := jobs_foldl (fun s _ => s.event_jobs _ k l) _ s

theorem State.commitReleased_jobs (s : State) (j : Nat) : (s.commitReleased j).jobs = s.jobs := by
  unfold State.commitReleased
  dsimp only
  split_ifs <;> rfl

/-- The reductions that a release of hurdle `h`, ending generation `g`, keeps. -/
def keptReds (h : BitVec 12) (g : Byte) (reds : List (Nat × Red)) : List (Nat × Red) :=
  reds.filter (fun r => decide (r.1 / 256 ≠ h.toNat ∨ r.1 % 256 = g.toNat ∨ r.1 % 256 = (g - 1).toNat))

/-- The jobs after a release: the row counter goes up where the hurdle commits, and the hurdle begins anew. -/
theorem State.hurRelease_jobs (s : State) (j : Nat) (h : BitVec 12) : ∃ u : State,
    (s.hurRelease j h).jobs = (u.updJob j fun x => { x with
      lastHur := h, lastHurGen := ((s.job j).hur h).gen, reds := keptReds h ((s.job j).hur h).gen x.reds
      hurs := tabSet (fun _ => ({} : Hur)) x.hurs h.toNat
        { gen := ((s.job j).hur h).gen + 1, lastRelease := some s.tb } }).jobs ∧
    u.jobs = if (s.slotRecs j h).any (fun r => r.2.commit) then (s.updJob j fun x => { x with row := x.row + 1 }).jobs
      else s.jobs := by
  refine ⟨if (s.slotRecs j h).any (fun r => r.2.commit)
    then (s.updJob j fun x => { x with row := x.row + 1 }).commitReleased j else s, ?jobs, ?row⟩
  case row =>
    split
    · exact State.commitReleased_jobs _ j
    · rfl
  case jobs =>
    have hsent (l : List Coord) (v : State) :
        (l.foldl (fun (s' : State) co => s'.sendRelease j h ((s.job j).hur h).gen co) v).jobs = v.jobs :=
      jobs_foldl (fun s' co => s'.sendPacket_jobs 0 _) l v
    unfold State.hurRelease
    dsimp only
    rw [apply_ite State.jobs, State.jobEvent_jobs, hsent, ite_self]
    rfl

/-- The job after a release. -/
theorem State.hurRelease_job (s : State) (j : Nat) (h : BitVec 12) (hwf : tabWf (fun _ => ({} : Job)) s.jobs = true) :
    (s.hurRelease j h).job j = { s.job j with
      row := if (s.slotRecs j h).any (fun r => r.2.commit) then (s.job j).row + 1 else (s.job j).row
      lastHur := h, lastHurGen := ((s.job j).hur h).gen, reds := keptReds h ((s.job j).hur h).gen (s.job j).reds
      hurs := tabSet (fun _ => ({} : Hur)) (s.job j).hurs h.toNat
        { gen := ((s.job j).hur h).gen + 1, lastRelease := some s.tb } } := by
  obtain ⟨u, hjobs, hu⟩ := s.hurRelease_jobs j h
  have huwf : tabWf (fun _ => ({} : Job)) u.jobs = true := by
    rw [hu]
    split
    · exact tabSet_wf _ hwf
    · exact hwf
  have hujob : u.job j = { s.job j with
      row := if (s.slotRecs j h).any (fun r => r.2.commit) then (s.job j).row + 1 else (s.job j).row } := by
    unfold State.job
    rw [hu]
    split
    · exact s.job_setJob j _ hwf
    · rfl
  have hread : (s.hurRelease j h).job j = _ := (congrArg (fun t => tabGet (fun _ => ({} : Job)) t j) hjobs).trans (u.job_setJob j _ huwf)
  rw [hread, hujob]

/-- Settles O21. -/
theorem hurdleUnit : Obligations.HurdleUnit := by
  unfold Obligations.HurdleUnit
  refine ⟨fun s => ⟨?held, ?summed, ?child, ?parent, ?timeout, ?limit, ?holdEnd⟩, ?release⟩
  case held =>
    rintro t c h g _ _ hheld hon hc rfl rfl
    exact execArrivalWritesComplete_counts hheld hon hc
  case summed =>
    intro die m ms j hmsgs hon hdie u hslot hgen
    exact ⟨execHurdleArrival_current hmsgs hon hdie hslot hgen, execHurdleArrival_stale hmsgs hon hdie hslot⟩
  case child =>
    intro p j harr hslot hgen
    exact ⟨execHurArrivePacket_named hslot hgen harr, execHurArrivePacket_early hslot hgen harr⟩
  case parent =>
    intro p j harr hslot hrecs hgen
    exact execHurReleasePacket_current hslot hgen harr hrecs
  case timeout =>
    intro j h t hon hj hvalid hlimit hnew hopen hpassed
    exact execHurdleTimeout_late hon hj hvalid hlimit hnew hopen hpassed
  case limit =>
    intro ticks hon hnone
    exact execHurTimeoutWrite_no_job hon hnone
  case holdEnd =>
    intro j h hon hj hvalid hcomplete hroot hfull hheld
    exact execReleaseHoldEnd_root hon hj hvalid hcomplete hroot hfull hheld
  case release =>
    intro s j h hjobs hhurs
    have hjob := s.hurRelease_job j h hjobs
    have hhur : ((s.hurRelease j h).job j).hur h = { gen := ((s.job j).hur h).gen + 1, lastRelease := some s.tb } := by
      rw [hjob]
      exact tabGet_tabSet_same _ hhurs
    rw [hhur, hjob]
    exact ⟨rfl, rfl, rfl, rfl⟩

/-! ### Reductions -/

section
variable {s : State}

theorem execFabRed_joins {t c : Nat} {o : Op} {j : Nat} {u : State} {x : Ctx} {h : BitVec 12} {len aw ad : Nat}
    (hiss : Issues s t c 0x34 0x02 o)
    (hidle : (((issued s t c).ctx t c).fab (fD o.body)).xfer.isSome = false)
    (hheld : (issued s t c).tagHeld (((issued s t c).ctx t c).fab (fD o.body)) = false)
    (hu : ((issued s t c).updCtx t c fun x => x.freeTag (fD o.body)) = u) (hx : u.ctx t c = x)
    (hh : BitVec.ofNat 12 (fX o.body) = h) (hlen : (x.getS (fC o.body)).toNat % 2 ^ 32 / 256 * 256 = len)
    (haw : x.getA32 (fA o.body) = aw) (had : x.getA32 (fB o.body) = ad)
    (hlegal : u.badArrival t x h = false) (hlevel : (u.planOf t x h).any (fun r => decide (r.level = 2)) = true)
    (hmax : len ≤ redLimit) (hflag : (u.imageOf t x).any (fun i => i.flags.getLsbD 0) = true)
    (hwin : x.winOk aw len = true) (hdest : x.winOk ad len = true) (hslot : u.slotOfJob x.jobId = some j)
    (hgood : u.firstBad (winAddr t x aw) len = none) :
    execFabRed t o s = .next (moveOn s (((((u.fixRange (winAddr t x aw) len).updCtx t c fun y =>
      y.setFab (fD o.body) { y.fab (fD o.body) with
        xfer := some { kind := .fabRed, aw := aw, am := ad, len := len, hur := h, gen := ((u.job j).hur h).gen,
                       open_ := List.range (chunksOf len) }
        status := 0, redHur := some h }).redJoin j h ((u.job j).hur h).gen {
      tile := t, ctx := c, child := none, op := BitVec.ofNat 2 (bitsAt (fX o.body) 12 2),
      f := BitVec.ofNat 1 (bitsAt (fX o.body) 14 1), len := len,
      data := (u.fixRange (winAddr t x aw) len).readBytes (winAddr t x aw) len })).arriveAt t c h
        (writeTags x.mems) (writeTags x.fabs)) t c) := by
  rw [execFabRed, stage_issues hiss]
  dsimp only
  rw [fabTag_free hidle hheld, hu, hx, hh, hlen, haw, had, if_neg (by simp [hlegal, hlevel]),
    if_neg (by rw [hflag]; simp [hmax]), if_neg (by simp [hwin, hdest]), hslot]
  dsimp only
  rw [State.readXfer_good hgood]
  rfl

section
variable {j : Nat} {h : BitVec 12} {chunk key : Nat} {r : Red} {x : Contrib} {xs : List Contrib}
  (hon : s.pwr.transit = true)
  (hready : (s.job j).reds.find? (fun e => decide (e.1 / 256 = h.toNat) && chunkReady (s.slotRecs j h) e.2 chunk) =
    some (key, r)) (hcontribs : r.contribs = x :: xs)
include hon hready hcontribs

theorem execReductionChunkCombine_root (hroot : hurParent (s.slotRecs j h) = none) :
    execReductionChunkCombine j h chunk s = .next
      (((s.updRed j key fun e => { e with
          chunks := tabSet (fun _ => none) e.chunks chunk
            (some (redCarry x.op x.f (chunkValue (s.slotRecs j h) r x.op x.f chunk))) }).redLand j h (BitVec.ofNat 8 key) chunk
        (redFinal x.op x.f (chunkValue (s.slotRecs j h) r x.op x.f chunk))).redDownTo j h (BitVec.ofNat 8 key) chunk x
          (redFinal x.op x.f (chunkValue (s.slotRecs j h) r x.op x.f chunk))) := by
  rw [execReductionChunkCombine]
  dsimp only
  rw [hready]
  dsimp only
  rw [hcontribs]
  dsimp only
  rw [if_neg (by simp [hon]), hroot]

theorem execReductionChunkCombine_up {co : Coord} (hparent : hurParent (s.slotRecs j h) = some co) {bs : List Byte}
    (hbs : redCarry x.op x.f (chunkValue (s.slotRecs j h) r x.op x.f chunk) = bs) :
    execReductionChunkCombine j h chunk s = .next
      ((List.range (unitsPer x.op x.f)).foldl (fun (v : State) i => v.redSend j kRedUp co h
        (redArg (BitVec.ofNat 8 key) x.op x.f (unitsPer x.op x.f * chunk + i) x.len 0)
          ((bs.drop (i * (bs.length / unitsPer x.op x.f))).take (bs.length / unitsPer x.op x.f)))
        (s.updRed j key fun e => { e with chunks := tabSet (fun _ => none) e.chunks chunk (some bs) })) := by
  rw [execReductionChunkCombine]
  dsimp only
  rw [hready]
  dsimp only
  rw [hcontribs]
  dsimp only
  rw [if_neg (by simp [hon]), hparent, hbs]

end

theorem unitsPer_eq (op : BitVec 2) (f : BitVec 1) : unitsPer op f = if op = 0 ∧ f = 1 then 2 else 1 := by
  simp [unitsPer, redWide]

theorem State.redLate_eq (j : Nat) (h : BitVec 12) (g : Byte) {α : Sort _} (a b : α) :
    (if s.redLate j h g then a else b) =
      if hurMembers (s.slotRecs j h) ≠ 0 ∧ (s.redMembers j h g).isEmpty = true then a else b := by
  simp [State.redLate]

section
variable {fd : Nat} {p : Packet} {j : Nat} (hslot : s.slotOfJob p.jobId = some j) (hstatus : redPktStatus p = 0)
include hslot hstatus

theorem execRedUp_joins (harr : Arrives s kRedUp fd p none)
    (hgen : redPktGen p = ((s.job j).hur (p.ident.setWidth 12)).gen) {c : Contrib}
    (hc : { tile := 0, ctx := 0, child := some p.src, op := BitVec.ofNat 2 (bitsAt p.arg.toNat 8 2),
            f := BitVec.ofNat 1 (bitsAt p.arg.toNat 10 1), len := bitsAt p.arg.toNat 32 21 } = c) {u : State}
    (hu : (if (s.red j (redKey (p.ident.setWidth 12) (redPktGen p))).contribs.any (fun x => decide (x.child = some p.src))
      then s else s.redJoin j (p.ident.setWidth 12) (redPktGen p) c) = u) :
    execRedUp fd p s = .next (if c.op = 3 then u else u.updRed j (redKey (p.ident.setWidth 12) (redPktGen p)) fun r =>
      { r with contribs := r.contribs.map (fun x => if x.child = some p.src then
        { x with units := tabSet (fun _ => none) x.units (bitsAt p.arg.toNat 16 16) (some p.payload) } else x) }) := by
  have hcurrent : ¬ redPktGen p ≠ (tabGet (fun _ => ({} : Hur)) (s.job j).hurs (p.ident.setWidth 12).toNat).gen :=
    not_not_intro hgen
  rw [execRedUp, rxPacket_arrives harr, hslot]
  dsimp only
  rw [if_neg (by rw [decide_eq_false hcurrent, Bool.and_false]; exact Bool.false_ne_true),
    if_neg (not_not_intro hstatus)]
  subst hc hu
  rfl

theorem execRedDown_lands (harr : Arrives s kRedDown fd p none) {u : State}
    (hu : (if s.redLate j (p.ident.setWidth 12) (redPktGen p) then s.countDrop fd dLate else s) = u) :
    execRedDown fd p s = .next ((u.redLand j (p.ident.setWidth 12) (redPktGen p) (bitsAt p.arg.toNat 16 16)
      p.payload).redDownTo j (p.ident.setWidth 12) (redPktGen p) (bitsAt p.arg.toNat 16 16) {
        tile := 0, ctx := 0, child := none, op := BitVec.ofNat 2 (bitsAt p.arg.toNat 8 2),
        f := BitVec.ofNat 1 (bitsAt p.arg.toNat 10 1), len := bitsAt p.arg.toNat 32 21 } p.payload) := by
  rw [execRedDown, rxPacket_arrives harr, hslot]
  dsimp only
  rw [if_neg (not_not_intro hstatus), hu]

end
end

/-- Settles O22. -/
theorem reductions : Obligations.Reductions := by
  unfold Obligations.Reductions
  refine fun s => ⟨?join, ?combine, ?up, ?down⟩
  case join =>
    intro t c o j s1 b tag s2 x h len aw ad g u bytes hiss hidle hheld hlegal hlevel hmax hflag hwin hdest hslot hgood
    exact (execFabRed_joins hiss hidle hheld rfl rfl rfl rfl rfl rfl hlegal hlevel hmax hflag hwin hdest hslot hgood :
      execFabRed t o s = _)
  case combine =>
    intro j h chunk key r x xs hon hready hcontribs g es u n part
    refine ⟨fun hroot => (execReductionChunkCombine_root hon hready hcontribs hroot :
      execReductionChunkCombine j h chunk s = _), fun co hparent => ?_⟩
    have hup := execReductionChunkCombine_up hon hready hcontribs hparent rfl
    rw [unitsPer_eq] at hup
    exact (hup : execReductionChunkCombine j h chunk s = _)
  case up =>
    intro fd p j harr hslot h g x hstatus hgen u
    exact (execRedUp_joins hslot hstatus harr hgen rfl rfl : execRedUp fd p s = _)
  case down =>
    intro fd p j harr hslot h g i u hstatus
    exact (execRedDown_lands hslot hstatus harr (State.redLate_eq j _ _ _ _) : execRedDown fd p s = _)

end Sys2Proof.Machine
end

section
/-! What a range write does to a store slice (06, R6, R128): the bytes written read back, every other byte stands, and a
word that was good stays good. -/

namespace Sys2Proof.Machine

open Sys2Proof

/-! ### Words of a slice -/

theorem unitSize_slice {a : Nat} (h : sliceBase ≤ a) : unitSize a = wordSize := if_pos h

theorem sliceBase_le_unitOf {a : Nat} (h : sliceBase ≤ a) : sliceBase ≤ unitOf a := by
  rw [unitOf, unitSize_slice h]
  unfold sliceBase wordSize at *
  omega

section
variable {s u : State} {w w' : Nat}

theorem State.cell_of_mem (h : u.mem = s.mem) (k : Nat) : u.cell k = s.cell k := by rw [State.cell, h, State.cell]

/-- Whether a word of a slice is good is told by the records of bad units and of bits in error. -/
theorem State.unitBad_slice (h : sliceBase ≤ w) :
    s.unitBad w = false ↔ tabGet (fun _ => false) s.bad w = false ∧ (s.flips w).length ≤ 1 := by
  have hdecoded : s.decoded w = .uncorrectable ↔ ¬ (s.flips w).length ≤ 1 := by
    rw [State.decoded, if_pos h]
    rcases s.flips w with _ | ⟨b, _ | ⟨b', l⟩⟩ <;> simp
  rw [State.unitBad, Bool.or_eq_false_iff, decide_eq_false_iff_not, hdecoded, not_not]

theorem State.fixUnit_slice (h : sliceBase ≤ w) : s.fixUnit w = s ∨ s.fixUnit w = (s.setFlips w []).correctWord w := by
  rw [State.fixUnit]
  dsimp only
  rw [if_pos h]
  split
  · exact .inl rfl
  · exact .inr rfl

theorem State.fixUnit_mem (h : sliceBase ≤ w) : (s.fixUnit w).mem = s.mem := by
  rcases State.fixUnit_slice (s := s) h with e | e <;> rw [e]
  rfl

theorem State.reportUe_mem (s : State) (w : Nat) (x : Byte) : (s.reportUe w x).mem = s.mem := by
  rw [State.reportUe_frame]; rfl

section
variable {a : Nat} {l : List Byte} {x : Byte}

theorem State.writeUnit_slice (h : sliceBase ≤ a) : s.writeUnit a l x =
    if l.length = wordSize then (((s.setCells a l).setBad (unitOf a) false).setFlips (unitOf a) [], true)
    else if s.unitBad (unitOf a) then (s.reportUe (unitOf a) x, false)
    else ((s.fixUnit (unitOf a)).setCells a l, true) := by
  have hunit : ¬ unitOf a < sliceBase := Nat.not_lt.mpr (sliceBase_le_unitOf h)
  rw [State.writeUnit]
  dsimp only
  rw [unitSize_slice h, if_neg hunit, if_neg hunit]

theorem State.cell_writeUnit_out (h : sliceBase ≤ a) {k : Nat} (hk : k < a ∨ a + l.length ≤ k) :
    (s.writeUnit a l x).1.cell k = s.cell k := by
  rw [State.writeUnit_slice h]
  split_ifs
  · exact s.cell_setCells_out l hk
  · exact State.cell_of_mem (s.reportUe_mem _ x) k
  · exact (State.cell_setCells_out _ l hk).trans (State.cell_of_mem (State.fixUnit_mem (sliceBase_le_unitOf h)) k)

theorem State.writeUnit_ok (h : sliceBase ≤ a) (hgood : s.unitBad (unitOf a) = false) : (s.writeUnit a l x).2 = true := by
  rw [State.writeUnit_slice h, hgood, if_neg Bool.false_ne_true]
  split <;> rfl

theorem State.cell_writeUnit_in (hwf : Memory.wf s = true) (h : sliceBase ≤ a) (hgood : s.unitBad (unitOf a) = false)
    {i : Nat} (hi : i < l.length) : (s.writeUnit a l x).1.cell (a + i) = l[i] := by
  rw [State.writeUnit_slice h, hgood, if_neg Bool.false_ne_true]
  split
  · exact State.cell_setCells_in l hwf hi
  · exact State.cell_setCells_in l (State.fixUnit_wf _ hwf) hi

/-- A table whose entry at `k` becomes the default reads the default where it did before. -/
theorem tabGet_tabSet_default {α : Type} [DecidableEq α] {v : α} {t : List (Nat × α)} {k j : Nat}
    (hwf : tabWf (fun _ => v) t = true) (hj : tabGet (fun _ => v) t j = v) :
    tabGet (fun _ => v) (tabSet (fun _ => v) t k v) j = v := by
  by_cases e : j = k
  · rw [e]; exact tabGet_tabSet_same v hwf
  · rwa [tabGet_tabSet_ne v e]

theorem State.flips_setFlips_nil (hwf : Memory.wf s = true) (h : (s.flips w').length ≤ 1) :
    ((s.setFlips w []).flips w').length ≤ 1 := by
  unfold Memory.wf at hwf
  simp only [Bool.and_eq_true] at hwf
  obtain ⟨-, -, hupsets⟩ := hwf
  by_cases e : w' = w
  · subst e
    rw [State.flips, show (s.setFlips w' []).upsets = tabSet (fun _ => []) s.upsets w' [] from rfl,
      tabGet_tabSet_same [] hupsets]
    exact Nat.zero_le 1
  · rwa [State.flips, show (s.setFlips w []).upsets = tabSet (fun _ => []) s.upsets w [] from rfl, tabGet_tabSet_ne [] e]

/-- A write to a word whose merge succeeds leaves the good words good. -/
theorem State.unitBad_writeUnit (hwf : Memory.wf s = true) (h : sliceBase ≤ a)
    (hgood : s.unitBad (unitOf a) = false) (hw : sliceBase ≤ w') (hw' : s.unitBad w' = false) :
    (s.writeUnit a l x).1.unitBad w' = false := by
  obtain ⟨hbad, hflips⟩ := (State.unitBad_slice hw).mp hw'
  rw [State.unitBad_slice hw, State.writeUnit_slice h, hgood, if_neg Bool.false_ne_true]
  have hbadwf : tabWf (fun _ => false) s.bad = true := by
    unfold Memory.wf at hwf
    simp only [Bool.and_eq_true] at hwf
    exact hwf.1.2
  split
  · rw [State.setCells_frame]
    exact ⟨tabGet_tabSet_default hbadwf hbad, State.flips_setFlips_nil (s := s) hwf hflips⟩
  · rw [State.setCells_frame]
    rcases State.fixUnit_slice (s := s) (sliceBase_le_unitOf h) with e | e <;> rw [e]
    · exact ⟨hbad, hflips⟩
    · exact ⟨hbad, State.flips_setFlips_nil hwf hflips⟩

end
end

/-! ### Ranges of a slice -/

section
variable {a : Nat} {l : List Byte}

/-- The part of a range in a word, from its first address, lies in the range. -/
theorem unitPart_within (w : Nat) : a ≤ (unitPart a l w).1 ∧
    ((unitPart a l w).2 = [] ∨ (unitPart a l w).1 + (unitPart a l w).2.length ≤ a + l.length) := by
  rw [unitPart]
  split
  · exact ⟨le_rfl, .inr (by simp)⟩
  · next hlt =>
    refine ⟨by dsimp only; omega, ?_⟩
    dsimp only
    by_cases hend : l.length ≤ w - a
    · left
      rw [List.drop_eq_nil_of_le hend, List.take_nil]
    · right
      rw [List.length_take, List.length_drop]
      omega

theorem State.cell_writeUnits_out {s : State} {x : Byte} (h : sliceBase ≤ a) {k : Nat} (hk : k < a ∨ a + l.length ≤ k)
    (ws : List Nat) : (s.writeUnits a l x ws).1.cell k = s.cell k := by
  induction ws generalizing s with
  | nil => rfl
  | cons w ws ih =>
    obtain ⟨hlo, hhi⟩ := unitPart_within (a := a) (l := l) w
    have hunit : (s.writeUnit (unitPart a l w).1 (unitPart a l w).2 x).1.cell k = s.cell k := by
      refine State.cell_writeUnit_out (h.trans hlo) ?_
      rcases hhi with hnil | hhi
      · rw [hnil, List.length_nil]; omega
      · omega
    rw [State.writeUnits]
    dsimp only
    split <;> rename_i heq <;> rw [heq] at hunit
    · exact ih.trans hunit
    · exact hunit

theorem State.cell_writeRange_out {s : State} {x : Byte} (h : sliceBase ≤ a) {k : Nat}
    (hk : k < a ∨ a + l.length ≤ k) : (s.writeRange a l x).1.cell k = s.cell k := by
  have hmark : (s.writeRange a l x).1.mem = (s.writeUnits a l x (unitsOf a l.length)).1.mem := by
    rw [State.writeRange]
    dsimp only
    rw [State.markDirty_frame]
  rw [State.cell_of_mem hmark, State.cell_writeUnits_out h hk]

/-- The byte at a place of a range is in the part of its word. -/
theorem unitPart_byte (h : sliceBase ≤ a) {w i : Nat} (hi : i < l.length) (hw : unitOf (a + i) = w) :
    ∃ j, ∃ hj : j < (unitPart a l w).2.length, (unitPart a l w).1 + j = a + i ∧ (unitPart a l w).2[j] = l[i] := by
  have hword : (a + i) / 32 * 32 = w := by rwa [unitOf, unitSize_slice (by omega : sliceBase ≤ a + i)] at hw
  have hsize : unitSize a = 32 := unitSize_slice h
  rw [unitPart, hsize]
  split
  · next hle =>
    exact ⟨i, by simp; omega, rfl, by simp⟩
  · next hlt =>
    exact ⟨a + i - w, by simp; omega, by dsimp only; omega, by
      simp only [List.getElem_take, List.getElem_drop]
      congr 1
      omega⟩

/-- A byte of a part is the byte of the range at its address. -/
theorem unitPart_getElem {w i j : Nat} (hj : j < (unitPart a l w).2.length) (hi : i < l.length)
    (hplace : (unitPart a l w).1 + j = a + i) : (unitPart a l w).2[j] = l[i] := by
  unfold unitPart at *
  split_ifs at *
  · have e : j = i := by dsimp only at hplace; omega
    subst e
    simp
  · have e : i = w - a + j := by dsimp only at hplace; omega
    subst e
    simp

/-- The part of a range in the word of one of its bytes begins in that word. -/
theorem unitOf_unitPart (h : sliceBase ≤ a) {w i : Nat} (hw : unitOf (a + i) = w) : unitOf (unitPart a l w).1 = w := by
  have hword : (a + i) / 32 * 32 = w := by rwa [unitOf, unitSize_slice (by omega : sliceBase ≤ a + i)] at hw
  rw [unitPart, unitSize_slice h]
  split
  · next hle =>
    rw [unitOf, unitSize_slice h]
    show a / 32 * 32 = w
    omega
  · next hlt =>
    dsimp only
    rw [unitOf, unitSize_slice (by omega : sliceBase ≤ w)]
    show w / 32 * 32 = w
    omega

/-- Each word of a list is the word of a byte of the range, and good. -/
def State.GoodWords (s : State) (a n : Nat) (ws : List Nat) : Prop :=
  ∀ w ∈ ws, (∃ i < n, unitOf (a + i) = w) ∧ s.unitBad w = false

/-- Every word written leaves its bytes of the range in memory. -/
theorem State.writeUnits_good {s : State} {x : Byte} {ws : List Nat} (hwf : Memory.wf s = true) (h : sliceBase ≤ a)
    (hgood : s.GoodWords a l.length ws) : (s.writeUnits a l x ws).2 = true ∧
    ∀ i, (hi : i < l.length) → unitOf (a + i) ∈ ws ∨ s.cell (a + i) = l[i] →
      (s.writeUnits a l x ws).1.cell (a + i) = l[i] := by
  induction ws generalizing s with
  | nil => exact ⟨rfl, fun i hi hcell => hcell.resolve_left (by simp)⟩
  | cons w ws ih =>
    obtain ⟨⟨i₀, hi₀, hw₀⟩, hw⟩ := hgood w (by simp)
    obtain ⟨hlo, -⟩ := unitPart_within (a := a) (l := l) w
    have hbase : sliceBase ≤ (unitPart a l w).1 := h.trans hlo
    have hunit : s.unitBad (unitOf (unitPart a l w).1) = false := by rwa [unitOf_unitPart h hw₀]
    generalize hs1 : (s.writeUnit (unitPart a l w).1 (unitPart a l w).2 x).1 = s1
    have hstep : s.writeUnit (unitPart a l w).1 (unitPart a l w).2 x = (s1, true) :=
      Prod.ext hs1 (State.writeUnit_ok hbase hunit)
    have hwf1 : Memory.wf s1 = true := hs1 ▸ State.writeUnit_wf _ _ x hwf
    have hgood1 : s1.GoodWords a l.length ws := by
      intro w' hw'
      obtain ⟨⟨i, hi, rfl⟩, hbad⟩ := hgood w' (by simp [hw'])
      exact ⟨⟨i, hi, rfl⟩, hs1 ▸ State.unitBad_writeUnit hwf hbase hunit (sliceBase_le_unitOf (by omega)) hbad⟩
    have hcell (i : Nat) (hi : i < l.length) (hin : unitOf (a + i) ∈ w :: ws ∨ s.cell (a + i) = l[i]) :
        unitOf (a + i) ∈ ws ∨ s1.cell (a + i) = l[i] := by
      by_cases hwi : unitOf (a + i) = w
      · obtain ⟨j, hj, hplace, hbyte⟩ := unitPart_byte h hi hwi
        right
        rw [← hplace, ← hs1, State.cell_writeUnit_in hwf hbase hunit hj, hbyte]
      · by_cases hpart : (unitPart a l w).1 ≤ a + i ∧ a + i < (unitPart a l w).1 + (unitPart a l w).2.length
        · have hplace : (unitPart a l w).1 + (a + i - (unitPart a l w).1) = a + i := by omega
          have hj : a + i - (unitPart a l w).1 < (unitPart a l w).2.length := by omega
          right
          rw [← unitPart_getElem hj hi hplace, ← State.cell_writeUnit_in hwf hbase hunit hj, hs1, hplace]
        · rw [← hs1, State.cell_writeUnit_out hbase (by omega)]
          exact hin.imp_left fun hmem => (List.mem_cons.mp hmem).resolve_left hwi
    rw [State.writeUnits]
    dsimp only
    rw [hstep]
    exact ⟨(ih hwf1 hgood1).1, fun i hi hin => (ih hwf1 hgood1).2 i hi (hcell i hi hin)⟩

theorem mem_unitsOf {n w : Nat} (h : sliceBase ≤ a) : w ∈ unitsOf a n ↔ ∃ i < n, unitOf (a + i) = w := by
  have hunit (i : Nat) : unitOf (a + i) = (a + i) / 32 * 32 := by rw [unitOf, unitSize_slice (by omega), wordSize]
  have hbase : unitOf a = a / 32 * 32 := hunit 0
  rw [unitsOf, unitSize_slice h]
  simp only [hunit, hbase, wordSize]
  split
  · next hz => simp [hz]
  · simp only [List.mem_map, List.mem_range]
    constructor
    · rintro ⟨k, hk, rfl⟩
      refine ⟨max a ((a / 32 + k) * 32) - a, by omega, by omega⟩
    · rintro ⟨i, hi, rfl⟩
      exact ⟨(a + i) / 32 - a / 32, by omega, by omega⟩

/-- A range that meets no bad word is written whole, and its bytes read back. -/
theorem State.writeRange_good {s : State} {x : Byte} (hwf : Memory.wf s = true) (h : sliceBase ≤ a)
    (hgood : ∀ w ∈ unitsOf a l.length, s.unitBad w = false) :
    (s.writeRange a l x).2 = true ∧ ∀ i, (hi : i < l.length) → (s.writeRange a l x).1.cell (a + i) = l[i] := by
  obtain ⟨hok, hcells⟩ := State.writeUnits_good (x := x) hwf h fun w hw => ⟨(mem_unitsOf h).mp hw, hgood w hw⟩
  have hmark : (s.writeRange a l x).1.mem = (s.writeUnits a l x (unitsOf a l.length)).1.mem := by
    rw [State.writeRange]
    dsimp only
    rw [State.markDirty_frame]
  exact ⟨hok, fun i hi => (State.cell_of_mem hmark _).trans (hcells i hi (.inl ((mem_unitsOf h).mpr ⟨i, hi, rfl⟩)))⟩

end

/-- Settles O26. -/
theorem memoryReadsBack : Obligations.MemoryReadsBack := by
  unfold Obligations.MemoryReadsBack
  refine ⟨fun s a b v hwf => ?cell, fun s a l source hwf ha hgood => ?range⟩
  case cell =>
    exact ⟨State.cell_setCell_same a v hwf, fun hne => s.cell_setCell_ne v hne, State.setCell_wf a v hwf⟩
  case range =>
    obtain ⟨hok, hcells⟩ := State.writeRange_good (x := source) hwf ha hgood
    refine ⟨hok, State.writeRange_wf a l source hwf, fun i hi => ?_, fun b hb => State.cell_writeRange_out ha hb⟩
    rw [hcells i hi]
    simp [nth, hi]

end Sys2Proof.Machine
end

section
/-! The frames of the stage classes (03, "Contexts and time-slicing"; 04, CTL, SCA, VEC and STO): what a step of a context
leaves as it was. -/

namespace Sys2Proof.Machine

open Sys2Proof

/-! ### What a stage instruction may change -/

/-- From `s` to `u` context `c` of tile `t` has worked: no block but the tile, the contexts, the events and the fault
records is touched, no other tile, and of the other contexts of the tile the mode alone. -/
structure State.Framed (s u : State) (t c : Nat) : Prop where
  blocks : u = { s with free := u.free, tiles := u.tiles, ctxs := u.ctxs, raised := u.raised, faultRecs := u.faultRecs }
  tile : ∀ t', t' ≠ t → u.tile t' = s.tile t'
  ctx : ∀ t', t' ≠ t → ∀ c', c' < 4 → u.ctx t' c' = s.ctx t' c'
  mate : ∀ c', c' < 4 → c' ≠ c → ∃ m, u.ctx t c' = { s.ctx t c' with mode := m }

section
variable {s u v : State} {t c : Nat}

theorem State.Framed.refl : s.Framed s t c := ⟨rfl, fun _ _ => rfl, fun _ _ _ _ => rfl, fun _ _ _ => ⟨_, rfl⟩⟩

theorem State.Framed.trans (h : s.Framed u t c) (h' : u.Framed v t c) : s.Framed v t c where
  blocks := by
    have hblocks := h'.blocks
    rw [h.blocks] at hblocks
    exact hblocks
  tile t' ht := (h'.tile t' ht).trans (h.tile t' ht)
  ctx t' ht c' hc := (h'.ctx t' ht c' hc).trans (h.ctx t' ht c' hc)
  mate c' hc hne := by
    obtain ⟨m, hm⟩ := h.mate c' hc hne
    obtain ⟨m', hm'⟩ := h'.mate c' hc hne
    exact ⟨m', by rw [hm', hm]⟩

/-- Changes of the events, the fault records and the free values alone. -/
theorem State.Framed.of_tables
    (h : u = { s with free := u.free, raised := u.raised, faultRecs := u.faultRecs }) : s.Framed u t c := by
  rw [h]
  exact ⟨rfl, fun _ _ => rfl, fun _ _ _ _ => rfl, fun _ _ _ => ⟨_, rfl⟩⟩

/-- A change of a context of the tile; of another than `c`, of its mode alone. -/
theorem State.Framed.setCtx {k : Nat} (hk : k < 4) {y : Ctx} (hy : k ≠ c → ∃ m ≠ .empty, y = { s.ctx t k with mode := m }) :
    s.Framed (s.setCtx t k y) t c where
  blocks := rfl
  tile _ _ := rfl
  ctx t' ht c' hc := s.ctx_setCtx_ne y (by unfold ctxKey; omega)
  mate c' hc hne := by
    by_cases hkc : c' = k
    · subst hkc
      obtain ⟨m, hm, rfl⟩ := hy hne
      exact ⟨m, tabGet_tabSet_of_ne _ fun e => hm (congrArg Ctx.mode e)⟩
    · exact ⟨_, s.ctx_setCtx_ne y (by unfold ctxKey; omega)⟩

theorem State.Framed.own (hc : c < 4) (y : Ctx) : s.Framed (s.setCtx t c y) t c := .setCtx hc fun h => absurd rfl h

theorem State.Framed.updTile (f : Tile → Tile) : s.Framed (s.updTile t f) t c where
  blocks := rfl
  tile _ ht := s.tile_setTile_ne _ ht
  ctx _ _ _ _ := rfl
  mate _ _ _ := ⟨_, rfl⟩

theorem mem_rotation {o c : Nat} (h : c ∈ rotation o) : c < 4 := by
  simp only [rotation, List.mem_cons, List.not_mem_nil, or_false] at h
  omega

/-- Passing the front end on: the tile's owner and that context's mode. -/
theorem State.Framed.dispatch : s.Framed (s.dispatch t) t c := by
  rw [State.dispatch]
  split
  · exact .refl
  split
  · next k hk =>
    exact (State.Framed.updTile _).trans (.setCtx (mem_rotation (List.mem_of_find?_eq_some hk)) fun _ =>
      ⟨.running, by decide, rfl⟩)
  · exact .refl

theorem State.Framed.faultCtx (hc : c < 4) (code : BitVec 4) (pc : BitVec 15) (w : Word) :
    s.Framed (s.faultCtx t c code pc w) t c :=
  ((State.Framed.of_tables rfl).trans (.own hc _)).trans .dispatch

theorem State.Framed.charge (hc : c < 4) : s.Framed (s.charge t c) t c :=
  ((State.Framed.of_tables (u := { s with free := s.free + 1 }) rfl).trans (.own hc _)).trans (.of_tables rfl)

/-! ### Outcomes -/

/-- The state that the effect of an instruction leaves, before what its outcome makes of the context. -/
def Fx.after : Fx → State
  | .done s => s
  | .skip s _ => s
  | .taken s _ => s
  | .fault s _ => s
  | .starve s _ => s
  | .yield s => s
  | .halt s => s

theorem Fx.after_framed_settle (hc : c < 4) (fx : Fx) (pc : Nat) (w : Word) :
    fx.after.Framed (fx.settle t c pc w) t c := by
  cases fx with
  | done s => exact .own hc _
  | skip s n => exact .own hc _
  | taken s n => exact .own hc _
  | fault s code => exact .faultCtx hc ..
  | starve s cause => exact (State.Framed.own hc _).trans .dispatch
  | yield s => exact (State.Framed.own hc _).trans .dispatch
  | halt s => exact (State.Framed.own hc _).trans .dispatch

/-- An effect on the context's own registers, if any. -/
def OwnEffect (t : Nat) (g : State → Nat → Fx) : Prop :=
  ∀ s c, (g s c).after = s ∨ ∃ y, (g s c).after = s.setCtx t c y

theorem OwnEffect.stage_framed {m fn : Nat} {o : Op} {g : State → Nat → Fx} (hg : OwnEffect t g)
    (howner : (s.tile t).owner < 4) (h : stage m fn t o s g = .next u) : s.Framed u t (s.tile t).owner := by
  rcases stage_next h with rfl | rfl | rfl | rfl
  · exact .refl
  · exact .faultCtx howner ..
  · exact (State.Framed.charge howner).trans (.own howner _)
  · have heffect : (s.charge t (s.tile t).owner).Framed (g (s.charge t (s.tile t).owner) (s.tile t).owner).after t
        (s.tile t).owner := by
      rcases hg (s.charge t (s.tile t).owner) (s.tile t).owner with e | ⟨y, e⟩ <;> rw [e]
      · exact .refl
      · exact .own howner y
    exact ((State.Framed.charge howner).trans heffect).trans (Fx.after_framed_settle howner ..)

end

/-! ### The classes whose effects are on the context's own registers -/

/-- A run is that of a stage instruction of tile `t` whose effect is on the context's own registers. -/
def IsOwn (t : Nat) (run : State → Res) : Prop :=
  ∃ m fn o g, OwnEffect t g ∧ ∀ s, run s = stage m fn t o s g

section
variable {t m fn : Nat} {o : Op} {i : Instr}

theorem isOwn_stageReg (f : State → Ctx → Ctx) : IsOwn t fun s => stageReg m fn t o s f :=
  ⟨m, fn, o, _, fun _ _ => .inr ⟨_, rfl⟩, fun _ => rfl⟩

theorem isOwn_sca2 {f : ScaForm} (op : Word → Word → Word) : IsOwn t fun s => sca2 fn op t f o s := isOwn_stageReg _

theorem isOwn_vecBin (draw : Bool) (fi : Nat → Int → Int → Int) (ff : FVal → FVal → FVal × FlagSet) :
    IsOwn t fun s => vecBin fn draw fi ff t o s := isOwn_stageReg _

theorem isOwn_vecBits (op : Vec → Vec → Vec) : IsOwn t fun s => vecBits fn op t o s := isOwn_stageReg _

theorem isOwn_vecUn (fi : Int → Int) (ff : Nat → Nat → Nat) : IsOwn t fun s => vecUn fn fi ff t o s := isOwn_stageReg _

theorem isOwn_sca {f : ScaForm} (h : stageOfSca t f o fn = some i) : IsOwn t fun s => exec i s := by
  unfold stageOfSca at h
  split at h
  case h_29 => cases h
  case h_20 | h_21 | h_22 | h_23 | h_24 | h_25 | h_26 | h_27 | h_28 =>
    cases h
    delta exec
    exact isOwn_stageReg _
  all_goals
    cases h
    delta exec
    exact isOwn_sca2 _

theorem isOwn_vec (h : stageOfVec t o fn = some i) : IsOwn t fun s => exec i s := by
  unfold stageOfVec at h
  split at h
  case h_27 => cases h
  case h_1 | h_2 | h_3 | h_5 | h_6 | h_10 | h_11 =>
    cases h
    delta exec
    exact isOwn_vecBin ..
  case h_7 | h_8 | h_9 =>
    cases h
    delta exec
    exact isOwn_vecBits _
  case h_25 | h_26 =>
    cases h
    delta exec
    exact isOwn_vecUn ..
  all_goals
    cases h
    delta exec
    exact isOwn_stageReg _

theorem isOwn_stage {g : State → Nat → Fx} (hg : OwnEffect t g) : IsOwn t fun s => stage m fn t o s g :=
  ⟨m, fn, o, g, hg, fun _ => rfl⟩

theorem ownEffect_startLoop (b : BitVec 47) (n : Ctx → BitVec 32) :
    OwnEffect t fun s c => startLoop s t c b (n (s.ctx t c)) := by
  intro s c
  unfold startLoop
  dsimp only
  split <;> exact .inr ⟨_, rfl⟩

theorem ownEffect_break : OwnEffect t fun s c =>
    if ((s.ctx t c).loop (loopLvl o.body)).active then
      .skip (s.updCtx t c fun x => x.breakLevel (loopLvl o.body)) (((s.ctx t c).loop (loopLvl o.body)).last.toNat + 1)
    else .done s := by
  intro s c
  dsimp only
  split
  · exact .inr ⟨_, rfl⟩
  · exact .inl rfl

theorem ownEffect_halt : OwnEffect t fun s c =>
    if (s.ctx t c).mems.any (fun p => p.2.xfer.isSome) then .starve s 4
    else if (s.ctx t c).fabs.any (fun p => p.2.xfer.isSome) then .starve s 5
    else .halt s := by
  intro s c
  left
  dsimp only
  split_ifs <;> rfl

theorem isOwn_ctl (h : stageOfCtl t o fn = some i) : IsOwn t fun s => exec i s := by
  unfold stageOfCtl at h
  split at h
  case h_11 => cases h
  all_goals
    cases h
    delta exec
  case h_1 | h_2 | h_4 | h_9 =>
    refine isOwn_stage ?_
    exact fun _ _ => .inl rfl
  case h_3 =>
    refine isOwn_stage ?_
    exact fun _ _ => .inr ⟨_, rfl⟩
  case h_5 => exact isOwn_stage (ownEffect_startLoop _ fun x => (x.getS (fA o.body)).setWidth 32)
  case h_6 => exact isOwn_stage (ownEffect_startLoop _ fun _ => BitVec.ofNat 32 (loopCount o.body))
  case h_7 => exact isOwn_stage ownEffect_break
  case h_8 => exact isOwn_stageReg _
  case h_10 => exact isOwn_stage ownEffect_halt

/-- A control, scalar or vector instruction has its effect on the context's own registers. -/
theorem isOwn_of_major (hm : m = 0x00 ∨ m = 0x08 ∨ m = 0x09 ∨ m = 0x10) (h : stageAt t o fn m = some i) :
    IsOwn t fun s => exec i s := by
  rcases hm with rfl | rfl | rfl | rfl
  · exact isOwn_ctl h
  · exact isOwn_sca h
  · exact isOwn_sca h
  · exact isOwn_vec h

end

theorem State.Framed.readByte {s u : State} {t c : Nat} (h : s.Framed u t c) (a : Nat) : u.readByte a = s.readByte a := by
  rw [h.blocks]
  rfl

/-! ### The bytes outside a store -/

section
variable {s u v : State} {t c : Nat}

theorem State.dispatch_mem (s : State) (t : Nat) : (s.dispatch t).mem = s.mem :=
  congrArg (fun v => v.1) (s.dispatch_view t)

theorem Fx.settle_mem (fx : Fx) (pc : Nat) (w : Word) : (fx.settle t c pc w).mem = fx.after.mem := by
  cases fx with
  | done s => rfl
  | skip s n => rfl
  | taken s n => rfl
  | fault s code => exact State.dispatch_mem _ t
  | starve s cause => exact State.dispatch_mem _ t
  | yield s => exact State.dispatch_mem _ t
  | halt s => exact State.dispatch_mem _ t

/-- What a stage instruction leaves of memory is what its effect leaves, if it has one. -/
theorem stage_mem {m fn : Nat} {o : Op} {g : State → Nat → Fx} (h : stage m fn t o s g = .next u) :
    u.mem = s.mem ∨ s.canIssue t = true ∧ u.mem = (g (s.charge t (s.tile t).owner) (s.tile t).owner).after.mem := by
  by_cases hcan : s.canIssue t = true
  · rcases stage_next h with rfl | rfl | rfl | rfl
    · exact .inl rfl
    · exact .inl (State.dispatch_mem _ t)
    · exact .inl rfl
    · exact .inr ⟨hcan, Fx.settle_mem ..⟩
  · rw [stage, if_pos (by simpa using hcan)] at h
    cases h
    exact .inl rfl

/-- The context whose beats are charged keeps its other registers. -/
theorem State.charge_ctx (h : s.canIssue t = true) : ∃ n ovf, (s.charge t (s.tile t).owner).ctx t (s.tile t).owner =
    { s.ctx t (s.tile t).owner with beats := n, beatsOvf := ovf } := by
  have hrunning : (s.ctx t (s.tile t).owner).mode = .running := by
    unfold State.canIssue at h
    simp only [Bool.and_eq_true, decide_eq_true_eq] at h
    exact h.2
  refine ⟨_, _, tabGet_tabSet_of_ne _ fun e => ?_⟩
  have hmode : (s.ctx t (s.tile t).owner).mode = .empty := congrArg Ctx.mode e
  rw [hrunning] at hmode
  cases hmode

theorem winAddr_charge (h : s.canIssue t = true) (a off n : Nat) :
    winAddr t ((s.charge t (s.tile t).owner).ctx t (s.tile t).owner)
      (effAddr ((s.charge t (s.tile t).owner).ctx t (s.tile t).owner) a off n) =
    winAddr t (s.ctx t (s.tile t).owner) (effAddr (s.ctx t (s.tile t).owner) a off n) := by
  obtain ⟨n', ovf, e⟩ := State.charge_ctx h
  rw [e]
  rfl

theorem sliceBase_le_winAddr (t : Nat) (x : Ctx) (ea : Nat) : sliceBase ≤ winAddr t x ea := by
  rw [winAddr, sliceAddr]
  omega

theorem cell_ctxWrite_one {ea k : Nat} {l : List Byte}
    (hk : k < winAddr t (s.ctx t c) ea ∨ winAddr t (s.ctx t c) ea + l.length ≤ k) :
    (ctxWrite s t c [(ea, l)] Fx.done).after.cell k = s.cell k := by
  rw [ctxWrite]
  dsimp only
  split
  · rfl
  split
  · exact State.cell_of_mem (s.reportUe_mem _ _) k
  · exact State.cell_writeRange_out (sliceBase_le_winAddr t _ ea) hk

/-- A store of a context writes no byte outside the bytes at its effective address. -/
theorem cell_stage_store {m fn off n z k : Nat} {o : Op} {l : Ctx → List Byte} (hl : ∀ x, (l x).length = z)
    (h : stage m fn t o s (fun s c => ctxWrite s t c [(effAddr (s.ctx t c) (fA o.body) off n, l (s.ctx t c))] Fx.done) =
      .next u)
    (hk : k < winAddr t (s.ctx t (s.tile t).owner) (effAddr (s.ctx t (s.tile t).owner) (fA o.body) off n) ∨
      winAddr t (s.ctx t (s.tile t).owner) (effAddr (s.ctx t (s.tile t).owner) (fA o.body) off n) + z ≤ k) :
    u.cell k = s.cell k := by
  rcases stage_mem h with hmem | ⟨hcan, hmem⟩
  · exact State.cell_of_mem hmem k
  · rw [State.cell_of_mem hmem k]
    rw [← winAddr_charge hcan, ← hl] at hk
    exact cell_ctxWrite_one hk

end

/-- Settles O58. -/
theorem stageFrames : Obligations.StageFrames := by
  refine ⟨fun i t w s u hword hclass howner hstep => ?own, fun t o s u b => ?stores⟩
  case own =>
    obtain ⟨m, fn, o, hi⟩ := isStage_of_stageWord hword
    rw [hi.word, wMajor_wordOf m fn o hi.major_lt hi.fn_lt] at hclass
    obtain ⟨_, _, _, g, hg, hrun⟩ := isOwn_of_major hclass hi.at_
    have hframe : s.Framed u t (s.tile t).owner := hg.stage_framed howner ((hrun s).symm.trans hstep)
    refine ⟨hframe.blocks, fun t' ht => ⟨hframe.tile t' ht, hframe.ctx t' ht⟩, fun c hc hne => ?_, hframe.readByte⟩
    obtain ⟨mode, hmode⟩ := hframe.mate c hc hne
    rw [hmode]
  case stores =>
    have hbytes (n : Nat) (x : Ctx) : (leBytes n (x.getS (fD o.body)).toNat).length = n := leBytes_length _ _
    have hvec (x : Ctx) : (vecBytes (x.getV (fD o.body))).length = 256 := leBytes_length _ _
    exact ⟨fun h hb => cell_stage_store (hbytes 1) h hb, fun h hb => cell_stage_store (hbytes 2) h hb,
      fun h hb => cell_stage_store (hbytes 4) h hb, fun h hb => cell_stage_store (hbytes 8) h hb,
      fun h hb => cell_stage_store hvec h hb⟩

end Sys2Proof.Machine
end

section
/-! The alive-counter rule (14, R378) and the state after reset (01; 12). -/

namespace Sys2Proof.Machine

open Sys2Proof

/-! ### Alive counters -/

section
variable {l n c : Byte} {cand : Option Byte}

/-- What a sender whose last accepted counter is `l` is heard to say with counter `n`. -/
abbrev hearFrom (l n : Byte) (cand : Option Byte) : Alive × Heard := ({ last := some l, cand := cand } : Alive).hear n

theorem hear_repeat (h : (n - l).toNat = 0) : hearFrom l n cand = ({ last := some l, cand := cand }, .again) := if_pos h

theorem hear_near (hpos : 1 ≤ (n - l).toNat) (hnear : (n - l).toNat ≤ 3) :
    hearFrom l n cand = ({ last := some n, cand := none }, .accepted ((n - l).toNat - 1)) :=
  (if_neg (Nat.one_le_iff_ne_zero.mp hpos)).trans (if_pos hnear)

variable (hfar : 4 ≤ (n - l).toNat)
include hfar

theorem hear_far : hearFrom l n cand = match cand with
    | none => ({ last := some l, cand := some n }, .jump)
    | some c =>
      if (n - c).toNat = 0 then ({ last := some l, cand := some c }, .again)
      else if (n - c).toNat ≤ 3 then ({ last := some n, cand := none }, .accepted ((c - l - 1).toNat + (n - c).toNat - 1))
      else ({ last := some l, cand := some n }, .jump) := by
  have hne : ¬ (n - l).toNat = 0 := by omega
  have hle : ¬ (n - l).toNat ≤ 3 := by omega
  cases cand <;> exact (if_neg hne).trans (if_neg hle)

theorem hear_candidate (hpos : 1 ≤ (n - c).toNat) (hnear : (n - c).toNat ≤ 3) :
    hearFrom l n (some c) = ({ last := some n, cand := none }, .accepted ((c - l - 1).toNat + ((n - c).toNat - 1))) := by
  rw [hear_far hfar]
  dsimp only
  rw [if_neg (by omega), if_pos hnear, Nat.add_sub_assoc hpos]

end

/-- Settles O29. -/
theorem aliveCounterRule : Obligations.AliveCounterRule := by
  intro l n c cand d e from_
  refine ⟨hear_repeat, hear_near, hear_far, fun hfar he => ?again, hear_candidate, fun hfar he => ?jump, rfl⟩
  case again => exact (hear_far hfar).trans (if_pos he)
  case jump => exact (hear_far hfar).trans ((if_neg (by omega)).trans (if_neg (by omega)))

/-! ### Reset -/

/-- Settles O57: the reset state is written out, and its tables list nothing but the rings and defaults they read. -/
theorem resetState : Obligations.ResetState := by
  refine ⟨rfl, rfl, rfl, rfl, rfl, rfl, rfl, rfl, rfl, rfl, rfl, rfl, rfl, rfl, rfl, rfl, rfl, rfl, rfl, ?dies, ?fabs, ?mds,
    ?rings, rfl, rfl, rfl, rfl, ?ctxs, ?jobs⟩
  case dies => exact fun d => ⟨rfl, rfl, rfl⟩
  case fabs => exact fun n => ⟨rfl, rfl, rfl, rfl⟩
  case mds => exact fun n => ⟨rfl, rfl, rfl⟩
  case rings => exact fun n hn => by decide +revert
  case ctxs => exact fun t c => rfl
  case jobs => exact fun j => rfl

end Sys2Proof.Machine
end

section
/-! Tiles, fault records, row maps (03, R50 to R57, R73, R74, R174) and the commands of chains (03, R58 to R63). -/

namespace Sys2Proof.Machine

open Sys2Proof

/-! ### Tiles and row maps -/

section
variable {s : State} {t c die row : Nat}

theorem State.shepOn_of (haux : s.pwr.aux = true) (hhold : s.cast.hold ≠ 1) : s.shepOn = true := by
  simpa [State.shepOn, haux] using hhold

theorem execWaitCauseClear_wakes (hon : s.dieOn (dieOfTile t) = true) (hpower : s.pwr.mode ≠ 3) (ht : t < 9600) (hc : c < 4)
    (hwaiting : (s.ctx t c).mode = .waiting) (hsound : (s.tile t).failed = false) (hgo : s.canGo t c = true) :
    execWaitCauseClear t c s = .next (s.wake t c) :=
  doIf_true (by simpa [hon, ht, hc, hwaiting, hsound, hgo] using hpower)

theorem execTileFailure_fails (hon : s.dieOn (dieOfTile t) = true) (ht : t < 9600) (hsound : (s.tile t).failed = false) :
    execTileFailure t s = .next (s.failTile t) :=
  doIf_true (by simp [hon, ht, hsound])

section
variable {live : List Nat} (hlive : [0, 1, 2, 3].filter (fun c => (s.ctx t c).live) = live)
include hlive

theorem State.failTile_live (hne : live ≠ []) : s.failTile t = live.foldl (fun (v : State) c =>
    v.faultCtx t c 7 (v.ctx t c).pc (v.istoreWord t (v.ctx t c).pc.toNat)) (s.updTile t fun x => { x with failed := true }) := by
  rw [State.failTile]
  rw [hlive, if_neg (by simpa using hne)]

theorem State.failTile_idle (hnone : live = []) {u : State} (hu : (s.updTile t fun x => { x with failed := true }) = u) :
    s.failTile t = u.outFault (u.logicalLost t) := by
  rw [State.failTile]
  rw [hlive, hnone, hu]
  rfl

end

theorem execTileFaultRecord_reports {r : FaultRec} {rs : List FaultRec} (hrec : s.faultRecs = r :: rs)
    (haux : s.pwr.aux = true) (hhold : s.cast.hold ≠ 1) (hcode : r.code ≠ 7) {hw : Bool}
    (hhw : decide (r.code = 5 ∨ r.code = 7) = hw) :
    execTileFaultRecord s = .next ((({ s with faultRecs := rs }.raise (.fault r.tile r.ctx r.code)
      (if hw then 3 else 2)).updDie (dieOfTile r.tile) fun d => { d with faultCount := stickAdd d.faultCount 1 }).event
        (partOfTile r.tile) 1 [(16, 2, r.tile), (18, 1, r.ctx), (19, 1, r.code.toNat), (20, 1, if hw then 2 else 1),
          (22, 2, r.pc.toNat), (24, 8, r.word.toNat), (32, 2, r.jobId.toNat), (34, 1, r.jobGen.toNat),
          (36, 2, r.hurId.toNat), (38, 1, r.hurGen.toNat), (40, 8, r.row.toNat), (48, 8, r.tb.toNat)]) := by
  rw [execTileFaultRecord, hrec]
  dsimp only
  rw [if_neg (by simp [State.shepOn_of haux hhold]), hhw, if_neg hcode]

theorem execTagHoldEnd_running {tag : Nat} (hhold : ((s.ctx t c).fab tag).holdFrom.isSome = true)
    (hended : s.tagHeld ((s.ctx t c).fab tag) = false) (hmode : (s.ctx t c).mode = .running)
    (hwf : tabWf (fun _ => ({} : Ctx)) s.ctxs = true) : execTagHoldEnd t c tag s = .next (s.updCtx t c fun x =>
      x.setFab tag { (s.ctx t c).fab tag with holdFrom := none }) := by
  have hctx : (s.updCtx t c fun x => x.setFab tag { (s.ctx t c).fab tag with holdFrom := none }).ctx t c =
      (s.ctx t c).setFab tag { (s.ctx t c).fab tag with holdFrom := none } := s.ctx_setCtx t c _ hwf
  have hrunning : ((s.ctx t c).setFab tag { (s.ctx t c).fab tag with holdFrom := none }).mode = .running := hmode
  rw [execTagHoldEnd]
  dsimp only
  rw [if_pos (by simp [hhold, hended]), hctx, hrunning]
  rfl

theorem execRowMapWrite_writes {col : BitVec 4} {healthy : Bool} {absent : Option (BitVec 4)} (haux : s.pwr.aux = true)
    (hhold : s.cast.hold ≠ 1) (hon : s.dieOn die = true) (hrow : row < 16) :
    execRowMapWrite die row col healthy absent s = .next (s.writeMap die row
      { spareCol := col, healthy := healthy, absent := absent.isSome, absentCol := absent.getD 0 }) :=
  doIf_true (by simp [State.shepOn_of haux hhold, hon, hrow])

theorem State.writeMap_empty {m : RowMap} (hempty : s.rowEmpty die row = true) :
    s.writeMap die row m = s.applyMap die row m := if_pos hempty

theorem State.writeMap_busy {m : RowMap} (hbusy : s.rowEmpty die row = false) :
    s.writeMap die row m = s.updDie die fun d => { d with
      mapRefused := stickAdd d.mapRefused 1, pendingMap := tabSet (fun _ => none) d.pendingMap row (some m) } :=
  if_neg (by simp [hbusy])

theorem execPendingMapApply_applies {m : RowMap} (hon : s.dieOn die = true) (hrow : row < 16)
    (hpending : s.pendingOf die row = some m) (hempty : s.rowEmpty die row = true) :
    execPendingMapApply die row s = .next (s.applyMap die row m) := by
  rw [execPendingMapApply, doIf_true (by simp [hon, hrow]), State.applyPending, hpending]
  dsimp only
  rw [if_pos hempty]

end

/-- Settles O23. -/
theorem tilesAndRowMaps : Obligations.TilesAndRowMaps := by
  refine fun s => ⟨?waiting, ?failure, ?record, ?tagHold, ?map, ?pending⟩
  case waiting =>
    intro t c hon hpower ht hc hwaiting hsound hgo
    exact (execWaitCauseClear_wakes hon hpower ht hc hwaiting hsound hgo : execWaitCauseClear t c s = _)
  case failure =>
    intro t hon ht hsound live u
    have hfails : exec (.tileFailure t) s = .next (s.failTile t) := execTileFailure_fails hon ht hsound
    rw [hfails]
    exact ⟨fun hne => congrArg Host.Outcome.next (State.failTile_live rfl hne),
      fun hnone => congrArg Host.Outcome.next (State.failTile_idle rfl hnone rfl)⟩
  case record =>
    intro r rs hrec haux hhold hcode hw
    exact (execTileFaultRecord_reports hrec haux hhold hcode rfl : execTileFaultRecord s = _)
  case tagHold =>
    intro t c tag hhold hended hmode hwf
    exact (execTagHoldEnd_running hhold hended hmode hwf : execTagHoldEnd t c tag s = _)
  case map =>
    intro die row col healthy absent haux hhold hon hrow m
    have hwrites : exec (.rowMapWrite die row col healthy absent) s = .next (s.writeMap die row m) :=
      execRowMapWrite_writes haux hhold hon hrow
    rw [hwrites]
    exact ⟨fun hempty => congrArg Host.Outcome.next (State.writeMap_empty hempty),
      fun hbusy => congrArg Host.Outcome.next (State.writeMap_busy hbusy)⟩
  case pending =>
    intro die row m hon hrow hpending hempty
    exact (execPendingMapApply_applies hon hrow hpending hempty : execPendingMapApply die row s = _)

/-! ### Chains -/

section
variable {s : State} {r : Nat} {blk : Block}

section
variable {image b : List Byte} {ps peers : List Coord} {u : State} (hstarts : Starts s r 0x01 blk)
  (hhost : (nth blk 20 0).getLsbD 0 = false) (hb : sliceB image 0 (fieldB blk 16 4) = b)
  (hpeers : ps.take (fieldB blk 40 2) ++ List.replicate (fieldB blk 40 2 - ps.length) 0 = peers)
  (hu : ((started s r).flushWhere fun _ => true).applyDue r = u)
include hstarts hhost hb hpeers hu

theorem execLoadChain_loads (hsound : u.loadFault r (BitVec.ofNat 16 (fieldB blk 24 2)) b (fieldB blk 40 2) = none) :
    execLoadChain r true image ps s = .next ((u.writeImage r (BitVec.ofNat 16 (fieldB blk 24 2))
      (BitVec.ofNat 8 (fieldB blk 26 1)) b peers).complete r (blkTag blk) stOk [(16, 8, fieldB b 8 2)]) := by
  rw [execLoadChain, hostCmd_starts hstarts]
  dsimp only
  rw [hhost, hb, hpeers, if_neg (by decide), Bool.false_and, if_neg Bool.false_ne_true, if_neg Bool.false_ne_true]
  dsimp only
  rw [hu, if_pos rfl, hsound]

theorem execLoadChain_refuses {k : Nat} {st : Status}
    (hfault : u.loadFault r (BitVec.ofNat 16 (fieldB blk 24 2)) b (fieldB blk 40 2) = some (k, st)) :
    execLoadChain r true image ps s = .next (u.complete r (blkTag blk) st [(24, 2, k)]) := by
  rw [execLoadChain, hostCmd_starts hstarts]
  dsimp only
  rw [hhost, hb, hpeers, if_neg (by decide), Bool.false_and, if_neg Bool.false_ne_true, if_neg Bool.false_ne_true]
  dsimp only
  rw [hu, if_pos rfl, hfault]

end

theorem State.takeSlot_of_slot {job : BitVec 16} {gen : Byte} {j : Nat} (h : s.slotOfJob job = some j) :
    s.takeSlot job gen = (s, some j) := by
  rw [State.takeSlot, h]

theorem execStartChain_starts {now : State} {j : Nat} {chain job : BitVec 16} {gen : Byte} {row : Word} {adaptive : Bool}
    {go : List (Nat × Nat)} (hstarts : Starts s r 0x02 blk) (hnow : ((started s r).flushWhere fun _ => true) = now)
    (hchain : BitVec.ofNat 16 (fieldB blk 8 2) = chain) (hjob : BitVec.ofNat 16 (fieldB blk 10 2) = job)
    (hgen : BitVec.ofNat 8 (fieldB blk 12 1) = gen) (hadaptive : (nth blk 13 0).getLsbD 0 = adaptive)
    (hrow : BitVec.ofNat 64 (fieldB blk 16 8) = row)
    (hgo : ((now.chainCtxs r chain).filter fun e =>
      decide ((now.ctx e.1 e.2).mode = .loaded) && (now.ctx e.1 e.2).sameJob job gen) = go)
    (hpenned : now.shep.penned = false) (hheld : now.jobHeld job gen = false) (hslot : now.slotOfJob job = some j)
    (hcurrent : (now.job j).jobGen = gen) (hne : go ≠ []) (hroutes : adaptive = true → now.adaptiveOk job = true)
    (hrestore : (now.ckptJob j).state ≠ 4) (hsame : (now.job j).hasRow = true → (now.job j).row = row) :
    execStartChain r s = .next (((now.updJob j fun x => { x with
      row := if x.hasRow then x.row else row, hasRow := true, adaptive := adaptive,
      reduction := x.reduction || now.images.any (fun i => decide (i.jobId = job) && i.flags.getLsbD 0) }).startAll
        go).complete r (blkTag blk) stOk) := by
  rw [execStartChain, hostCmd_starts hstarts]
  dsimp only
  rw [hnow, hchain, hjob, hgen, hadaptive, hrow, hgo, hpenned, hheld, hslot, State.takeSlot_of_slot hslot,
    if_neg Bool.false_ne_true, if_neg Bool.false_ne_true, if_neg (by simp [hcurrent]), if_neg (by simpa using hne),
    if_neg (by simpa using hroutes), if_neg (by simpa using hrestore), if_neg (by simpa using hsame)]

theorem execStopChain_stops (hstarts : Starts s r 0x03 blk) : execStopChain r s = .next (((started s r).stopWhere fun k x =>
    decide (partOfTile (k / 4) = r ∧ x.chainId = BitVec.ofNat 16 (fieldB blk 8 2))).complete r (blkTag blk) stOk) := by
  rw [execStopChain, hostCmd_starts hstarts]

theorem execUnloadChain_unloads {chain : BitVec 16} (hstarts : Starts s r 0x04 blk)
    (hfirst : (s.ring r).fetched.find? (fun c => c.started && decide (blkOp c.block = 0x04)) = none)
    (hchain : BitVec.ofNat 16 (fieldB blk 8 2) = chain)
    (hended : ∀ e ∈ (started s r).chainCtxs r chain, ((started s r).ctx e.1 e.2).mode = .loaded ∨
      ((started s r).ctx e.1 e.2).mode = .stopped ∨ ((started s r).ctx e.1 e.2).mode = .done)
    (hlanded : ∀ e ∈ (started s r).chainCtxs r chain, ((started s r).ctx e.1 e.2).flying = false) :
    execUnloadChain r s = .next (((started s r).unload r chain).complete r (blkTag blk) stOk) := by
  have hidle : ¬ ((started s r).chainCtxs r chain).any (fun e => decide (((started s r).ctx e.1 e.2).mode = .ready ∨
      ((started s r).ctx e.1 e.2).mode = .running ∨ ((started s r).ctx e.1 e.2).mode = .waiting)) = true := by
    rw [List.any_eq_true]
    rintro ⟨e, he, hbusy⟩
    rw [decide_eq_true_eq] at hbusy
    rcases hended e he with h | h | h <;> simp [h] at hbusy
  have hnone : ¬ ((started s r).chainCtxs r chain).any (fun e => ((started s r).ctx e.1 e.2).flying) = true := by
    rw [List.any_eq_true]
    rintro ⟨e, he, hflying⟩
    rw [hlanded e he] at hflying
    cases hflying
  rw [execUnloadChain, hfirst]
  dsimp only
  rw [hostCmd_starts hstarts, State.unloadCmd, hchain]
  rw [if_neg hidle, if_neg hnone]

end

/-- Settles O24. -/
theorem chainCommands : Obligations.ChainCommands := by
  refine fun r blk s => ⟨?load, ?start, ?stop, ?unload⟩
  case load =>
    intro image ps job n peers b hstarts hhost
    exact ⟨fun h => (execLoadChain_loads hstarts hhost rfl rfl rfl h : execLoadChain r true image ps s = _),
      fun k st h => (execLoadChain_refuses hstarts hhost rfl rfl rfl h : execLoadChain r true image ps s = _)⟩
  case start =>
    intro j chain job gen adaptive row go hstarts hpenned hheld hslot hcurrent hne hroutes hrestore hsame
    exact (execStartChain_starts hstarts rfl rfl rfl rfl rfl rfl rfl hpenned hheld hslot hcurrent hne hroutes hrestore
      hsame : execStartChain r s = _)
  case stop => exact fun hstarts => (execStopChain_stops hstarts : execStopChain r s = _)
  case unload =>
    intro chain hstarts hfirst hended hlanded
    exact (execUnloadChain_unloads hstarts hfirst rfl hended hlanded : execUnloadChain r s = _)

end Sys2Proof.Machine
end

section
/-! Lines, scrubbing and bands (06, R127 to R154). -/

namespace Sys2Proof.Machine

open Sys2Proof

/-! ### A die table that lists one die twice

The statement asks for no canonical form of the table of the tile dies. Where it lists die 0 twice, and moving the scrubber
makes the first entry the default one, that entry goes and the second, with its other row map, is what the correction reads. -/

/-- Die 0 stands twice in the table of the dies, its second row map with column 0 as the spare; word 0 of tile 0 has one bit
in error. -/
def twiceListed : State := {
  pwr := { islands := 1 }
  dies := [(0, { scrubPos := 5 }), (0, { rows := [(0, { spareCol := 0 })] })]
  upsets := [(sliceBase, [0])] }

/-- The store rows with corrected words that the scrubber has recorded of die 0. -/
def scrubbedRows (r : Res) : Tab Nat :=
  match r with
  | .next u => (u.die 0).scrubRow
  | _ => []

theorem scrubbedRows_storeScrub : scrubbedRows (exec (.storeScrub 0 0) twiceListed) = [(16384, 1)] := by decide

/-- Refutes O25: on `twiceListed` the scrubber counts the correction for the store row of physical column 1, that of the
second entry's row map, and not for that of column 0, which the row map in force before named. -/
theorem not_memoryProtection : ¬ Obligations.MemoryProtection := by
  rintro ⟨hmemory, -, -⟩
  obtain ⟨hscrub, -⟩ := hmemory twiceListed
  obtain ⟨-, hcorrects, -⟩ := hscrub 0 0 (by decide) (by decide) (by decide)
  have hrows := congrArg scrubbedRows (hcorrects 0 (by decide) (by decide))
  rw [scrubbedRows_storeScrub] at hrows
  revert hrows
  decide

end Sys2Proof.Machine
end

section
/-! Flits received and the upkeep of links (07, R155 to R165, R190, R211 to R213). -/

namespace Sys2Proof.Machine

open Sys2Proof

section
variable {s : State} {fd k : Nat} {h : FlitHdr} {d : Option FlitData}

/-! ### Flits -/

/-- The state in which a good flit acts: counted, its acknowledgement and its credits taken. -/
def State.flitTaken (s : State) (fd k : Nat) (h : FlitHdr) : State :=
  (s.countFec fd k h).updLink fd k fun l =>
    let l := if h.ackValid then l.acked h.ack s.tb else l
    (l.credited h).retrain h.retrain s.tb

section
variable {type : BitVec 4} {f : State → State} (hon : s.pwr.transit = true) (hfd : fd < 2) (hk : k < 176)
  (hlive : (s.link fd k).live = true)
include hon hfd hk hlive

theorem takeFlit_bad (hbad : h.crc ≠ flitCrc h d ∨ h.fecUncorr ≠ 0) :
    takeFlit type s fd k h d f = .next (((s.countFec fd k h).countCrc fd k).sendNak fd k) := by
  have hgood : flitGood h d = false := decide_eq_false fun hgood => hbad.elim (absurd hgood.1) (absurd hgood.2)
  rw [takeFlit]
  dsimp only
  rw [if_neg (by simp [hon, hfd, hk, hlive]), hgood]
  rfl

variable (hcrc : h.crc = flitCrc h d) (hfec : h.fecUncorr = 0)
include hcrc hfec

theorem takeFlit_other (htype : h.type ≠ type) : takeFlit type s fd k h d f = .next (s.countFec fd k h) := by
  have hgood : flitGood h d = true := decide_eq_true ⟨hcrc, hfec⟩
  rw [takeFlit]
  dsimp only
  rw [if_neg (by simp [hon, hfd, hk, hlive]), hgood, if_neg (by decide), if_pos htype]

theorem takeFlit_acts (htype : h.type = type) :
    takeFlit type s fd k h d f = .next ((f (s.flitTaken fd k h)).pump fd k) := by
  have hgood : flitGood h d = true := decide_eq_true ⟨hcrc, hfec⟩
  rw [takeFlit]
  dsimp only
  rw [if_neg (by simp [hon, hfd, hk, hlive]), hgood, if_neg (by decide), if_neg (not_not_intro htype)]
  rfl

end

section
variable {d : FlitData} (hon : s.pwr.transit = true) (hfd : fd < 2) (hk : k < 176) (hlive : (s.link fd k).live = true)
  (hcrc : h.crc = flitCrc h (some d)) (hfec : h.fecUncorr = 0) (htype : h.type = ftData) {ahead : Nat}
  (hahead : (h.seq - ((s.flitTaken fd k h).link fd k).expected).toNat = ahead)
include hon hfd hk hlive hcrc hfec htype hahead

theorem execDataFlit_acts : execDataFlit fd k h d s = .next ((if ahead = 0 then (s.flitTaken fd k h).acceptData fd k d
    else if ahead < 2048 then (s.flitTaken fd k h).nakGap fd k else s.flitTaken fd k h).pump fd k) := by
  rw [execDataFlit, takeFlit_acts hon hfd hk hlive hcrc hfec htype]
  dsimp only
  rw [hahead]

theorem execDataFlit_in_order (hnext : ahead = 0) :
    execDataFlit fd k h d s = .next (((s.flitTaken fd k h).acceptData fd k d).pump fd k) := by
  rw [execDataFlit_acts hon hfd hk hlive hcrc hfec htype hahead, if_pos hnext]

theorem execDataFlit_ahead (hpos : 0 < ahead) (hnear : ahead < 2048) :
    execDataFlit fd k h d s = .next (((s.flitTaken fd k h).nakGap fd k).pump fd k) := by
  rw [execDataFlit_acts hon hfd hk hlive hcrc hfec htype hahead, if_neg (by omega), if_pos hnear]

theorem execDataFlit_behind (hfar : 2048 ≤ ahead) :
    execDataFlit fd k h d s = .next ((s.flitTaken fd k h).pump fd k) := by
  rw [execDataFlit_acts hon hfd hk hlive hcrc hfec htype hahead, if_neg (by omega), if_neg (by omega)]

end

/-! ### Upkeep -/

variable (hon : s.pwr.transit = true)
include hon

theorem execAckTimer_sends (hlive : (s.link fd k).live = true) (hpending : 0 < (s.link fd k).unacked)
    (hpassed : s.passed (s.link fd k).unackedSince 20 = true) :
    execAckTimer fd k s = .next (s.sendFlit fd k ftAck (s.link fd k).nextSeq none) :=
  doIf_true (by simp [hon, hlive, hpending, hpassed])

section
variable (hfd : fd < 2) (hk : k < 176)
include hfd hk

theorem execLinkFail_stuck (hsingle : (s.link fd k).member = false) (hlive : (s.link fd k).live = true)
    (hreplay : (s.link fd k).replay ≠ []) (hpassed : s.passed (s.link fd k).ackProgress 1000000 = true) :
    execLinkFail fd k s = .next (s.failLink fd k) :=
  doIf_true (by simp [hon, hfd, hk, hsingle, hlive, hreplay, hpassed])

theorem execLinkFail_down {t : Word} (hsingle : (s.link fd k).member = false) (hdown : (s.link fd k).downSince = some t)
    (hpassed : s.passed t 1000000 = true)
    (hstate : (s.link fd k).state ≠ 5 ∧ (s.link fd k).state ≠ 0 ∧ (s.link fd k).state ≠ 2) :
    execLinkFail fd k s = .next (s.failLink fd k) := by
  refine doIf_true ?_
  rw [hdown, decide_eq_true hstate]
  simp [hon, hfd, hk, hsingle, hpassed]

theorem execCommandedRetrain_retrains (hstate : (s.link fd k).state = 2 ∨ (s.link fd k).state = 4)
    (hsingle : (s.link fd k).member = false) : execCommandedRetrain fd k s = .next
      (((s.announce fd k).sendOnLink fd k kDrain (drainArg 3) []).updLink fd k fun l =>
        { l with state := 3, downSince := some s.tb }) := by
  have hready : decide (fd < 2 ∧ k < 176 ∧ ((s.link fd k).state = 2 ∨ (s.link fd k).state = 4)) = true :=
    decide_eq_true ⟨hfd, hk, hstate⟩
  exact doIf_true (by rw [hon, hready, hsingle]; rfl)

section
variable {i : TrainInfo} (hcrc : h.crc = flitCrc h (some (trainData i))) (hfec : h.fecUncorr = 0) (htype : h.type = ftTrain)
include hcrc hfec htype

theorem execTrainFlit_trains : execTrainFlit fd k h i s = .next
    (if k < 48 then (s.countFec fd k h).trainElec fd k i else (s.countFec fd k h).trainOptical fd (k - 48) i) := by
  have hgood : flitGood h (some (trainData i)) = true := decide_eq_true ⟨hcrc, hfec⟩
  rw [execTrainFlit, if_neg (by simp [hon, hfd, hk])]
  dsimp only
  rw [hgood, if_neg (by decide), if_neg (not_not_intro htype), apply_ite Host.Outcome.next]

end

theorem execIdentityReportTimeout_misroutes (hoptical : 48 ≤ k)
    (hstate : (s.olane (32 * fd + (k - 48) / 4) ((k - 48) % 4)).state = 4)
    (hpassed : s.passed (s.olane (32 * fd + (k - 48) / 4) ((k - 48) % 4)).trainSince 300000 = true) :
    execIdentityReportTimeout fd k s = .next (s.misroute (32 * fd + (k - 48) / 4) ((k - 48) % 4) true) :=
  doIf_true (by simp [hon, hfd, hk, hoptical, hstate, hpassed])

end

section
variable {lane uncorr : Nat} {lost : Bool} (hfd : fd < 2)
include hfd

theorem execLaneRemove_elec (hlane : lane < 192)
    (hserved : (s.link fd (s.linkOfLane fd lane)).lanes.contains (lane % 16) = true) :
    execLaneRemove fd lane lost uncorr s =
      .next (if (lost || decide (16 ≤ uncorr)) = true then s.removeElec fd lane else s) := by
  rw [execLaneRemove]
  rw [if_pos hlane, if_pos hlane, hserved, hon, decide_eq_true (⟨hfd, by omega⟩ : fd < 2 ∧ lane < 320), doIf]
  simp only [Bool.true_and, Bool.and_true, apply_ite Host.Outcome.next]

theorem execLaneRemove_optical {i : Nat} (hi : i < 128) (hstate : (s.olane (32 * fd + i / 4) (i % 4)).state = 5) :
    execLaneRemove fd (192 + i) true 0 s = .next (s.laneOut (32 * fd + i / 4) (i % 4) 2) := by
  rw [execLaneRemove]
  rw [if_neg (by omega), if_neg (by omega), Nat.add_sub_cancel_left, hstate]
  exact doIf_true (by simp [hon, hfd]; omega)

end
end

/-- Settles O27. -/
theorem flitsAndLinks : Obligations.FlitsAndLinks := by
  refine ⟨fun fd k h d s hon hfd hk hlive => ?flits, fun fd k s hon hfd hk => ?upkeep⟩
  case flits =>
    intro l c u s1 s2 ahead bad nak
    refine ⟨fun hbad => ?badData, fun hbad => ⟨?badAck, ?badNak, ?badIdle⟩, fun hcrc hfec => ⟨?inOrder, ?ahead, ?behind, ?dropped⟩,
      fun hcrc hfec => ⟨?ack, ?idle, ?nak⟩⟩
    case badData => exact (takeFlit_bad hon hfd hk hlive hbad : execDataFlit fd k h d s = _)
    case badAck => exact (takeFlit_bad hon hfd hk hlive hbad : execAckFlit fd k h s = _)
    case badNak => exact (takeFlit_bad hon hfd hk hlive hbad : execNakFlit fd k h s = _)
    case badIdle => exact (takeFlit_bad hon hfd hk hlive hbad : execIdleFlit fd k h s = _)
    case inOrder =>
      intro htype hnext
      exact (execDataFlit_in_order hon hfd hk hlive hcrc hfec htype rfl hnext : execDataFlit fd k h d s = _)
    case ahead =>
      intro htype hpos hnear
      exact (execDataFlit_ahead hon hfd hk hlive hcrc hfec htype rfl hpos hnear : execDataFlit fd k h d s = _)
    case behind =>
      intro htype hfar
      exact (execDataFlit_behind hon hfd hk hlive hcrc hfec htype rfl hfar : execDataFlit fd k h d s = _)
    case dropped =>
      intro htype
      have hother : h.type ≠ ftData := fun e => by rw [e] at htype; exact absurd htype (by decide)
      exact (takeFlit_other hon hfd hk hlive hcrc hfec hother : execDataFlit fd k h d s = _)
    case ack => exact fun htype => (takeFlit_acts hon hfd hk hlive hcrc hfec htype : execAckFlit fd k h s = _)
    case idle => exact fun htype => (takeFlit_acts hon hfd hk hlive hcrc hfec htype : execIdleFlit fd k h s = _)
    case nak => exact fun htype => (takeFlit_acts hon hfd hk hlive hcrc hfec htype : execNakFlit fd k h s = _)
  case upkeep =>
    intro l
    refine ⟨?ackTimer, ?stuck, ?down, ?retrain, ?elec, ?optical, ?train, ?identity⟩
    case ackTimer =>
      intro hlive hpending hpassed
      exact (execAckTimer_sends hon hlive hpending hpassed : execAckTimer fd k s = _)
    case stuck =>
      intro hsingle hlive hreplay hpassed
      exact (execLinkFail_stuck hon hfd hk hsingle hlive hreplay hpassed : execLinkFail fd k s = _)
    case down =>
      intro t hsingle hdown hpassed h5 h0 h2
      exact (execLinkFail_down hon hfd hk hsingle hdown hpassed ⟨h5, h0, h2⟩ : execLinkFail fd k s = _)
    case retrain =>
      intro hstate hsingle
      exact (execCommandedRetrain_retrains hon hfd hk hstate hsingle : execCommandedRetrain fd k s = _)
    case elec =>
      intro lane hlane hserved
      have hremove (lost : Bool) (n : Nat) : exec (.laneRemove fd lane lost n) s =
          .next (if (lost || decide (16 ≤ n)) = true then s.removeElec fd lane else s) :=
        execLaneRemove_elec hon hfd hlane hserved
      exact ⟨by rw [hremove]; rfl, fun n hn => by rw [hremove]; simp [hn], fun n hn => by
        rw [hremove]; simp [Nat.not_le.mpr hn]⟩
    case optical =>
      intro i hi hstate
      exact (execLaneRemove_optical hon hfd hi hstate : execLaneRemove fd (192 + i) true 0 s = _)
    case train =>
      intro h i hcrc hfec htype
      have htrains : exec (.trainFlit fd k h i) s = .next (if k < 48 then (s.countFec fd k h).trainElec fd k i
          else (s.countFec fd k h).trainOptical fd (k - 48) i) := execTrainFlit_trains hon hfd hk hcrc hfec htype
      rw [htrains]
      exact ⟨fun hk' => by rw [if_pos hk'], fun hk' => by rw [if_neg (by omega)]⟩
    case identity =>
      intro hoptical hstate hpassed
      exact (execIdentityReportTimeout_misroutes hon hfd hk hoptical hstate hpassed : execIdentityReportTimeout fd k s = _)

end Sys2Proof.Machine
end

section
/-! Transit packets, routes, fences, notices and probes (07, R169 to R189), and the comb sources (08, R200 to R220). -/

namespace Sys2Proof.Machine

open Sys2Proof

/-! ### Transit, routes and fences -/

section
variable {s : State} {fd k : Nat} {p : Packet} (hon : s.pwr.transit = true)
include hon

section
variable {n : Nat} (hfd : fd < 2) (hk : k < 176) (hlive : (s.link fd k).live = true)
include hfd hk hlive

theorem execTransitPacket_forwards (hopen : (s.link fd k).fenced = false) :
    execTransitPacket fd k p n s = .next ((if s.forUs fd p then s else
      { s with pwr := { s.pwr with lastTransit := s.tb } }).forward fd { s.viaHere p with age := addAge p.age n }) := by
  rw [execTransitPacket]
  dsimp only
  rw [if_neg (by simp [hon, hfd, hk, hlive]), hopen, Bool.false_and, if_neg Bool.false_ne_true]

theorem execTransitPacket_fenced (hfenced : (s.link fd k).fenced = true) (hother : s.ownProbe p = false) :
    execTransitPacket fd k p n s = .next (s.dropPacket fd dFenced p) := by
  rw [execTransitPacket]
  dsimp only
  rw [if_neg (by simp [hon, hfd, hk, hlive]), hfenced, hother, if_pos (by decide)]

end

section
variable (hshep : s.shepOn = true)
include hshep

theorem execRouteEntryWrite_sets {co : Coord} {e : RouteEntry} (hfd : fd < 2) (hlen : e.choices.length ≤ 4) :
    execRouteEntryWrite fd none co e s = .next (s.setRoute fd co e) := by
  have htake : { e with choices := e.choices.take 4 } = e := by rw [List.take_of_length_le hlen]
  rw [execRouteEntryWrite]
  rw [htake]
  exact doIf_true (by simp [hshep, hon, hfd])

theorem execFenceWrite_sets {co : Coord} :
    execFenceWrite (some co) none true s = .next ((s.fenceCoord co true).endDrains co) := by
  rw [execFenceWrite, if_neg (by simp [hshep, hon])]
  rfl

theorem execFenceWrite_lift {co : Coord} (hfree : s.coordHeld co = false) :
    execFenceWrite (some co) none false s =
      .next (if (s.penTime co).isNone || s.admittedReady co then s.liftCoord co else s) := by
  rw [execFenceWrite, if_neg (by simp [hshep, hon])]
  dsimp only
  rw [hfree, if_neg (by decide), if_neg (by decide)]

theorem execFenceWrite_held {co : Coord} (hheld : s.coordHeld co = true) :
    execFenceWrite (some co) none false s = .next ((s.countHold 0 3).countHold 1 3) := by
  rw [execFenceWrite, if_neg (by simp [hshep, hon])]
  dsimp only
  rw [hheld, if_pos (by decide)]

theorem execFenceWrite_link {on : Bool} (hfd : fd < 2) (hk : k < 176)
    (hfree : on = true ∨ (s.link fd k).penFence = false) :
    execFenceWrite none (some (fd, k)) on s = .next (s.updLink fd k fun l => { l with fenced := on }) := by
  rw [execFenceWrite, if_neg (by simp [hshep, hon])]
  dsimp only
  rw [if_pos (by rcases hfree with h | h <;> simp [h, hfd, hk])]
  rfl

theorem execCoordinateHoldEnd_lifts {co : Coord} (hpen : (s.penTime co).isSome = true) (hfree : s.coordHeld co = false)
    (hready : s.admittedReady co = true) : execCoordinateHoldEnd co s = .next (s.liftCoord co) := by
  rw [execCoordinateHoldEnd, doIf_true (by simp [hshep, hon, hpen, hfree]), if_pos hready]

end
end

/-! ### Notices and probes -/

section
variable {s : State} {fd : Nat} {p : Packet}

theorem execDrop_put (harr : Arrives s kDrop fd p none) (hkind : droppedKind p = kPut)
    (hwaits : s.awaited p.srcTile.toNat p.ctx.toNat (p.b23.toNat % 16) p.ident.toNat .fabPut p.jobId p.jobGen = true) :
    execDrop fd p s = .next (s.updCtx p.srcTile.toNat p.ctx.toNat fun x =>
      x.answered (p.b23.toNat % 16) p.ident.toNat 4) := by
  rw [execDrop, rxPacket_arrives harr, State.dropped]
  dsimp only
  rw [if_pos hkind, if_pos hwaits]

theorem execProbe_answers (harr : Arrives s kProbe fd p (some (partOfTile p.dstTile.toNat)))
    (hother : s.isMine p.src = false) (htile : p.dstTile.toNat < 9600) (hdie : s.dieOn (dieOfTile p.dstTile.toNat) = true)
    (hsound : (s.tile p.dstTile.toNat).failed = false) (hpresent : s.tileAbsent p.dstTile.toNat = false) :
    execProbe fd p s = .next ((s.emit (.probeEcho p.dstTile.toNat true)).sendPacket fd {
      dst := p.src, src := 0, kind := kProbeReply, vc := 3, dstTile := p.srcTile, srcTile := p.dstTile,
      ident := p.ident }) := by
  rw [execProbe]
  rw [if_pos htile, rxPacket_arrives harr, hother, if_neg Bool.false_ne_true, if_pos (by simp [htile, hdie, hsound, hpresent])]

theorem execProbeReply_counts (harr : Arrives s kProbeReply fd p none) :
    execProbeReply fd p s = .next (s.probeAnswered p.src fun r =>
      if r.answered.contains p.srcTile.toNat then r else { r with answered := r.answered ++ [p.srcTile.toNat] }) := by
  rw [execProbeReply, rxPacket_arrives harr]

end

/-- Settles O30. -/
theorem routingAndFences : Obligations.RoutingAndFences := by
  intro fd k p s hon hfd hk
  refine ⟨?forward, ?fenced, ?route, ?fence, ?notice, ?probe, ?reply⟩
  case forward => exact fun n hlive hopen => (execTransitPacket_forwards hon hfd hk hlive hopen : execTransitPacket fd k p n s = _)
  case fenced =>
    exact fun n hlive hfenced hother =>
      (execTransitPacket_fenced hon hfd hk hlive hfenced hother : execTransitPacket fd k p n s = _)
  case route =>
    intro co e haux hhold hlen
    exact (execRouteEntryWrite_sets hon (State.shepOn_of haux hhold) hfd hlen : execRouteEntryWrite fd none co e s = _)
  case fence =>
    intro co haux hhold
    have hshep := State.shepOn_of haux hhold
    have hlift (hfree : s.coordHeld co = false) : exec (.fenceWrite (some co) none false) s =
        .next (if (s.penTime co).isNone || s.admittedReady co then s.liftCoord co else s) :=
      execFenceWrite_lift hon hshep hfree
    refine ⟨?sets, fun hfree hready => ?lifts, fun hfree hpen hnot => ?keeps, fun hheld => ?held, fun on hfree => ?link,
      fun hpen hfree hready => ?ends⟩
    case sets => exact (execFenceWrite_sets hon hshep : execFenceWrite (some co) none true s = _)
    case lifts => rw [hlift hfree, if_pos (by rcases hready with h | h <;> simp [h])]
    case keeps =>
      have hsome : (s.penTime co).isNone = false := by rw [← Option.not_isSome, hpen]; rfl
      rw [hlift hfree, hsome, hnot, Bool.false_or, if_neg Bool.false_ne_true]
    case held => exact (execFenceWrite_held hon hshep hheld : execFenceWrite (some co) none false s = _)
    case link => exact (execFenceWrite_link hon hshep hfd hk hfree : execFenceWrite none (some (fd, k)) on s = _)
    case ends => exact (execCoordinateHoldEnd_lifts hon hshep hpen hfree hready : execCoordinateHoldEnd co s = _)
  case notice => exact fun harr hkind hwaits => (execDrop_put harr hkind hwaits : execDrop fd p s = _)
  case probe =>
    intro harr hother htile hdie hsound hpresent
    exact (execProbe_answers harr hother htile hdie hsound hpresent : execProbe fd p s = _)
  case reply => exact fun harr => (execProbeReply_counts harr : execProbeReply fd p s = _)

/-! ### Comb sources -/

section
variable {s : State} {x : Nat} (haux : s.pwr.aux = true) (hx : x < 4)
include haux hx

/-- The source's registers after a poll that reports `r`. -/
def State.ecsReported (s : State) (x : Nat) (r : EcsReport) : State :=
  ((s.emit (.ecsWrite x 0x7F 1)).emit (.ecsWrite x 0x7F 0)).updEcs x fun c => { c with
    fails := 0, ready := r.ready, outputOn := r.outputOn, safe := r.safe, fault := r.fault,
    temperature := r.temperature, serial := r.serial, bias := r.bias, biasRef := r.biasRef, power := r.power }

theorem execEcsPoll_reports {r : EcsReport} (hpresent : (s.ecsOf x).present = true) {u : State}
    (hu : s.ecsReported x r = u) :
    execEcsPoll x (some r) s = .next ((if r.serial = tabGet (fun _ => (0 : BitVec 128)) u.flash.settings.ecsSerials x then u
      else State.dropRefs { u with flash := { u.flash with settings := { u.flash.settings with
        ecsSerials := tabSet (fun _ => (0 : BitVec 128)) u.flash.settings.ecsSerials x r.serial } } } x).takeRefs x) := by
  subst hu
  rw [execEcsPoll, if_neg (by simp [haux, hx, hpresent])]
  rfl

theorem execEcsPoll_fails (hpresent : (s.ecsOf x).present = true) :
    execEcsPoll x none s = .next (s.updEcs x fun c => { c with
      fails := c.fails + 1, commsFail := c.commsFail || decide (2 ≤ c.fails) }) := by
  rw [execEcsPoll, if_neg (by simp [haux, hx, hpresent])]

theorem execFeedLoss_safes {f : Nat} (hf : f < 4) (hlit : (s.ecsOf x).outputOn = true) : execFeedLoss x f s = .next
    (((s.updEcs x fun c => { c with full := false }).ecsControl x 2).loseFeeds x (1 <<< f)) :=
  doIf_true (by simp [haux, hx, hf, hlit])

theorem execEcsSafeWrite_removable {v on : Bool} (hremovable : s.removable x = true) (hon : (!v && s.fibresWhole x) = on) :
    execEcsSafeWrite x v s = .next ((s.updEcs x fun c => { c with
      ctlSafe := v, full := on, feedLost := if on then 0 else c.feedLost }).ecsControl x (if on then 1 else 2)) := by
  subst hon
  exact doIf_true (by simp [haux, hx, hremovable])

omit haux hx in
theorem execEcsSafeWrite_used {v : Bool} (hused : s.removable x = false) : execEcsSafeWrite x v s = .next s :=
  doIf_false (by simp [hused])

end

/-- Settles O31. -/
theorem combSources : Obligations.CombSources := by
  intro x s haux hx
  refine ⟨?report, ?fails, ?fibre, ?safe, ?whole, ?broken, ?used⟩
  case report =>
    intro r hpresent u st
    exact (execEcsPoll_reports haux hx hpresent rfl : execEcsPoll x (some r) s = _)
  case fails => exact fun hpresent => (execEcsPoll_fails haux hx hpresent : execEcsPoll x none s = _)
  case fibre => exact fun f hf hlit => (execFeedLoss_safes haux hx hf hlit : execFeedLoss x f s = _)
  case safe =>
    exact fun hremovable => (execEcsSafeWrite_removable haux hx hremovable rfl : execEcsSafeWrite x true s = _)
  case whole =>
    exact fun hremovable hwhole =>
      (execEcsSafeWrite_removable haux hx hremovable (by rw [hwhole]; rfl) : execEcsSafeWrite x false s = _)
  case broken =>
    exact fun hremovable hbroken =>
      (execEcsSafeWrite_removable haux hx hremovable (by rw [hbroken]; rfl) : execEcsSafeWrite x false s = _)
  case used => exact fun v hused => (execEcsSafeWrite_used hused : execEcsSafeWrite x v s = _)

end Sys2Proof.Machine
end

section
/-! Skeins: reach, quiescing, dark slots, fade levels, switches of source and blanking (08, R204 to R224). -/

namespace Sys2Proof.Machine

open Sys2Proof

section
variable {s : State} {q : Nat}

/-! ### Reach, quiescing, blanking -/

theorem execReachWrite_enters {e : ReachEntry} (hshep : s.shepOn = true) (howned : s.flash.owned = true) :
    ∃ u, execReachWrite e s = .next u ∧ u.flash.settings.reach =
      s.flash.settings.reach.filter (fun r => !(decide (r.skein = e.skein ∧ r.slot = e.slot))) ++ [e] := by
  rw [execReachWrite]
  refine ⟨_, doIf_true (by simp [hshep, howned]), ?_⟩
  split <;> rfl

theorem execQuiesceRelease_releases (hshep : s.shepOn = true) (hon : s.pwr.transit = true) (hq : q < 64)
    (hquiet : (s.skein q).quiesced = true) (hstill : (s.skein q).switching = false) (hmoves : s.movesOn q = false) :
    execQuiesceRelease q s = .next ((List.range 4).foldl (fun (u : State) j => u.releaseLane q j)
      (s.updSkein q fun y => { y with quiesced := false })) :=
  doIf_true (by simp [hshep, hon, hq, hquiet, hstill, hmoves])

theorem execDarkSlotEvent_counts (hon : s.pwr.transit = true) (hq : q < 64) {k : Skein} (hk : s.skein q = k)
    (hover : 256 ≤ k.darkOver) (harmed : k.darkArmed = true) : execDarkSlotEvent q s = .next
      (((s.setSkein q { k with darkCnt := stickAdd k.darkCnt 1, darkArmed := false, darkOver := 0, darkUnder := 0 }).raise
        (.dark q) 2).stuck (0x800108 + 0x100000 * (q / 16) + 0x40 * (q % 16)) k.darkCnt (stickAdd k.darkCnt 1)) := by
  subst hk
  exact doIf_true (by simp [hon, hq, hover, harmed])

/-- While transit has power, lifting the blank reaches every engine. -/
theorem foldl_updEngine_on {f : Engine → Engine} (l : List Nat) (hon : s.pwr.transit = true) :
    l.foldl (fun (u : State) n => if u.pwr.transit then u.updEngine n f else u) s =
      l.foldl (fun (u : State) n => u.updEngine n f) s := by
  induction l generalizing s with
  | nil => rfl
  | cons n l ih =>
    rw [List.foldl_cons, List.foldl_cons, if_pos hon]
    exact ih hon

theorem execBlankLift_lifts (hshep : s.shepOn = true) (hon : s.pwr.transit = true) (hfree : s.shep.penned = false) :
    execBlankLift s = .next ((List.range 4).foldl (fun (u : State) n =>
      u.updEngine n fun g => { g with blanked := false }) { s with gate := { s.gate with blank := false } }) := by
  rw [execBlankLift, doIf_true (by simp [hshep, hfree])]
  exact congrArg Host.Outcome.next (foldl_updEngine_on _ hon)

/-! ### Switches -/

theorem execScheduledSwitch_switches (hsched : (s.skein q).schedSince.isSome = true) (hmay : s.maySwitch q = true)
    (hmoves : s.movesOn q = false) (hcommit : s.commitHolds q = true) : execScheduledSwitch q s = .next (s.scheduled q) :=
  doIf_true (by simp [hsched, hmay, hmoves, hcommit])

theorem execScheduledSwitchTimeout_switches {t : Word} (hsched : (s.skein q).schedSince = some t)
    (hmay : s.maySwitch q = true) (hmoves : s.movesOn q = false) (hpassed : s.passed t 90000000000 = true) :
    execScheduledSwitchTimeout q s = .next (s.scheduled q) := by
  rw [execScheduledSwitchTimeout, hsched]
  exact doIf_true (by simp [hmay, hmoves, hpassed])

theorem execImmediateSwitch_switches (hfade : (s.skein q).fade = 3) (hmay : s.maySwitch q = true)
    (hfirst : (s.skein q).lastImmediate = none) (hprimary : (s.skein q).secondary = false)
    (hfit : s.feedFit q true = true) :
    execImmediateSwitch q s = .next (((s.stallLanes q).switchSource q true).updSkein q fun y =>
      { y with lastImmediate := some s.tb }) := by
  rw [execImmediateSwitch]
  dsimp only
  rw [if_neg (by simp [hfade, hmay]), hfirst, hprimary, hfit]
  rfl

theorem execImmediateSwitch_refuses {t : Word} (hfade : (s.skein q).fade = 3) (hmay : s.maySwitch q = true)
    (hlast : (s.skein q).lastImmediate = some t) (hrecent : s.passed t 60000000000 = false) :
    execImmediateSwitch q s = .next (s.raise (.switchRefused q) 2) := by
  rw [execImmediateSwitch]
  dsimp only
  rw [if_neg (by simp [hfade, hmay]), hlast]
  exact if_pos (by simp [hrecent])

theorem execPrimaryReturn_schedules {t : Word} (hshep : s.shepOn = true) (hon : s.pwr.transit = true) (hq : q < 64)
    (hfit : (s.skein q).primaryFitSince = some t) (hsecondary : (s.skein q).secondary = true)
    (hfree : (s.skein q).schedSince = none) (hpassed : s.passed t 60000000000 = true) :
    execPrimaryReturn q s = .next (s.updSkein q fun y => { y with schedSince := some s.tb }) := by
  rw [execPrimaryReturn]
  rw [hfit]
  exact doIf_true (by simp [hshep, hon, hq, hsecondary, hfree, hpassed])

/-! ### Fade levels -/

theorem execFadeEvaluation_sets {ber5 : Bool} (hshep : s.shepOn = true) (hon : s.pwr.transit = true) (hq : q < 64)
    {u v : State} (hu : s.fadeLines q = u) (hv : u.fadeSet q (u.fadeLevel q ber5) = v) :
    execFadeEvaluation q ber5 s = .next
      ((if (s.skein q).fade.toNat < u.fadeLevel q ber5 then v.raise (.fadeWatch q) 2 else v).darkBus q) := by
  rw [execFadeEvaluation, if_neg (by simp [hshep, hon, hq])]
  dsimp only
  rw [hu, hv]

theorem State.fadeLevel_lost (s : State) (q : Nat) : s.fadeLevel q true = 3 := rfl

end

section
variable {rel : Int} {soon : Bool} {bias ref : Nat}

theorem lineLevel_three (h : rel ≤ -300) : lineLevel rel soon bias ref = 3 := if_pos h

theorem lineLevel_two (h : -300 < rel) (h2 : rel ≤ -200 ∨ soon = true ∨ (ref ≠ 0 ∧ 3 * ref ≤ 2 * bias)) :
    lineLevel rel soon bias ref = 2 := by
  rw [lineLevel, if_neg (by omega), if_pos h2]

theorem lineLevel_below_two (h : -200 < rel) (hsoon : soon = false) (h2 : ref = 0 ∨ 2 * bias < 3 * ref) :
    lineLevel rel soon bias ref = if rel ≤ -100 ∨ (ref ≠ 0 ∧ 5 * ref ≤ 4 * bias) then 1 else 0 := by
  subst hsoon
  rw [lineLevel, if_neg (by omega), if_neg (by simp; omega)]

theorem lineLevel_zero (h : -100 < rel) (hsoon : soon = false) (h1 : ref = 0 ∨ 4 * bias < 5 * ref) :
    lineLevel rel soon bias ref = 0 := by
  rw [lineLevel_below_two (by omega) hsoon (by omega), if_neg (by omega)]

end

/-- Settles O32. -/
theorem skeinsAndFade : Obligations.SkeinsAndFade := by
  refine ⟨fun q s haux hhold hon hq => ?skeins, fun q ber5 s haux hhold hon hq => ?evaluation,
    fun q s => s.fadeLevel_lost q, fun rel soon bias ref => ?levels⟩
  case skeins =>
    intro k
    have hshep := State.shepOn_of haux hhold
    refine ⟨?reach, ?quiesce, ?release, ?dark, ?scheduled, ?timeout, ?immediate, ?refused, ?primary, ?blank, ?lift, ?penned⟩
    case reach => exact fun e howned => execReachWrite_enters hshep howned
    case quiesce => exact (doIf_true (by simp [hshep, hon, hq]) : execQuiesce q s = _)
    case release =>
      exact fun hquiet hstill hmoves =>
        (execQuiesceRelease_releases hshep hon hq hquiet hstill hmoves : execQuiesceRelease q s = _)
    case dark => exact fun hover harmed => (execDarkSlotEvent_counts hon hq rfl hover harmed : execDarkSlotEvent q s = _)
    case scheduled =>
      exact fun hsched hmay hmoves hcommit =>
        (execScheduledSwitch_switches hsched hmay hmoves hcommit : execScheduledSwitch q s = _)
    case timeout =>
      exact fun t hsched hmay hmoves hpassed =>
        (execScheduledSwitchTimeout_switches hsched hmay hmoves hpassed : execScheduledSwitchTimeout q s = _)
    case immediate =>
      exact fun hfade hmay hfirst hprimary hfit =>
        (execImmediateSwitch_switches hfade hmay hfirst hprimary hfit : execImmediateSwitch q s = _)
    case refused =>
      exact fun t hfade hmay hlast hrecent =>
        (execImmediateSwitch_refuses hfade hmay hlast hrecent : execImmediateSwitch q s = _)
    case primary =>
      exact fun t hfit hsecondary hfree hpassed =>
        (execPrimaryReturn_schedules hshep hon hq hfit hsecondary hfree hpassed : execPrimaryReturn q s = _)
    case blank => exact (doIf_true haux : execBlank s = _)
    case lift => exact fun hfree => (execBlankLift_lifts hshep hon hfree : execBlankLift s = _)
    case penned => exact fun hpenned => (doIf_false (by simp [hpenned]) : execBlankLift s = _)
  case evaluation =>
    exact (execFadeEvaluation_sets (State.shepOn_of haux hhold) hon hq rfl rfl : execFadeEvaluation q ber5 s = _)
  case levels =>
    exact ⟨lineLevel_three, lineLevel_two,
      fun h hsoon h2 h1 => by rw [lineLevel_below_two h hsoon h2, if_pos h1], lineLevel_zero⟩

end Sys2Proof.Machine
end

section
/-! Element commands of the Crook (09, R241 to R250). -/

namespace Sys2Proof.Machine

open Sys2Proof

/-! ### An element table that lists one element twice

The statement asks for no canonical form of the table of the elements. Where it lists the selector of skein 0 twice, and its
first entry is the default but for the command that waits, taking that command drops the entry, and the command is checked
against the second. -/

/-- The selector of skein 0 stands twice in the table of the elements: idle with a SEL that waits, and in a move. -/
def twoSelectors : State := {
  pwr := { transit := true }
  elems := [(10, { queued := some { cmd := 7, slot := 0, lane := 0 } }), (10, { run := some { phase := .parking, target := none, from_ := 0, to_ := 0 } })] }

/-- A command of the selector of skein 0 waits. -/
def selectorWaits (r : Res) : Bool :=
  match r with
  | .next u => (u.elem 0 10).queued.isSome
  | _ => false

theorem selectorWaits_queuedMoveStart : selectorWaits (exec (.queuedMoveStart 0 10) twoSelectors) = true := by decide

/-- Refutes O33: on `twoSelectors` the SEL that waited waits again, behind the move of the second entry, where the
statement has the selector set out. -/
theorem not_elementCommands : ¬ Obligations.ElementCommands := by
  intro hcommands
  obtain ⟨-, -, -, -, -, -, -, -, -, -, -, -, hqueued, -⟩ :=
    hcommands 0 10 0 0 twoSelectors (by decide) (by decide) (by decide) (by decide)
  obtain ⟨hstarts, -⟩ := hqueued { cmd := 7, slot := 0, lane := 0 } (by decide) (by decide) (by decide)
  have hwaits := congrArg selectorWaits (hstarts (by decide) (by decide))
  rw [selectorWaits_queuedMoveStart] at hwaits
  revert hwaits
  decide

end Sys2Proof.Machine
end

section
/-! Supervision by the Crook (09, R234 to R256). -/

namespace Sys2Proof.Machine

open Sys2Proof

section
variable {n e : Nat} {s : State} (hon : s.crookOn n = true)
include hon

/-! ### A period -/

/-- The state before the move ends of period `p`: commands taken, samples put, and in an outer period the ring powers. -/
def State.crookSampled (u : State) (n p : Nat) (outs : List (Nat × ElemOut)) : State :=
  if p % 4 = 0 ∧ ((u.crookPut n outs).engine n).run = true
  then (List.range 16).foldl (fun (v : State) i => v.ringPower n i) (u.crookPut n outs) else u.crookPut n outs

theorem execCrookPeriod_runs {smp : CrookSample} (hrun : (s.engine n).crookRunning = true) {u v : State} {p : Nat}
    {outs : List (Nat × ElemOut)} (hp : (s.engine n).period.toNat = p) (hu : (s.slotZero n smp).nextCmds n = u)
    (houts : u.crookA n p (s.engine n).railMv.toNat smp = outs)
    (hv : (((u.crookSampled n p outs).crookEnds n outs).crookB n).crookAdapt n p smp = v) :
    execCrookPeriod n smp s = .next { v with free := v.free + 1 } := by
  have hready : ¬ (!(s.pwr.transit && decide (n < 4) && (s.engine n).crookRunning)) = true := by
    rw [show (s.pwr.transit && decide (n < 4)) = true from hon, hrun]
    decide
  rw [execCrookPeriod, if_neg hready]
  dsimp only
  subst hp hu houts hv
  simp only [State.crookSampled, Bool.and_eq_true, decide_eq_true_eq]

/-! ### Hand-over, slips, following errors -/

theorem execHandoverEvaluation_refuses {r : Run} (he : e < 176) (hrun : (s.elem n e).run = some r)
    (hphase : r.phase = .evaluating) (hfour : 4 ≤ r.proposals.length)
    (hapart : handoverOk (r.proposals.take 4) (q15 r.to_) (s.engine n).handover.toNat = false) :
    execHandoverEvaluation n e s = .next (((s.ringOut n e 2).updElem n e fun y =>
      { y.held 2 with command := r.to_, setpoint := r.to_, refused := stickAdd y.refused 1 }).raise (.handover n e) 3) := by
  rw [execHandoverEvaluation]
  dsimp only
  rw [hrun]
  dsimp only
  rw [if_pos (by simp [hon, he, hphase, hfour]), hapart, if_neg Bool.false_ne_true]

theorem execSlip_holds (he : e < 176) (hmode : (s.elem n e).mode = .track) (hpos : 1 ≤ (s.elem n e).slipRun)
    (hslips : (s.engine n).slipUpdates.toNat ≤ (s.elem n e).slipRun) :
    execSlip n e s = .next (((s.ringOut n e 2).updElem n e fun y => { y.held 4 with
      slips := stickAdd y.slips 1, queued := some { cmd := 2, slot := y.slot.setWidth 3, lane := y.lane } }).raise
        (.slip n e) 3) :=
  doIf_true (by rw [hon, decide_eq_true ⟨he, hmode, max_le hpos hslips⟩]; rfl)

theorem execFollowingErrorExpiry_selector (he : e < 176) (hsel : elemIsSel e = true) (hmode : (s.elem n e).mode = .move)
    (hpos : 1 ≤ (s.elem n e).feTimer.toNat) (hexpired : (s.elem n e).fePeriods.toNat ≤ (s.elem n e).feTimer.toNat) :
    execFollowingErrorExpiry n e s = .next (((s.ringOut n e 7).updElem n e fun y =>
      { y.held 3 with expiries := stickAdd y.expiries 1 }).raise (.expiry n e) 3) := by
  rw [execFollowingErrorExpiry]
  dsimp only
  rw [hon, decide_eq_true ⟨he, .inr (.inl hmode), max_le hpos hexpired⟩, if_pos (by decide), if_pos hsel]

theorem execNotchRecoveryEnd_ends (he : e < 176) (hnotch : (s.elem n e).notch = 1) :
    execNotchRecoveryEnd n e s = .next (s.updElem n e fun y => { y with notch := 0 }) :=
  doIf_true (by rw [hon, decide_eq_true ⟨he, hnotch⟩]; rfl)

/-! ### Engines -/

theorem execSlotMiss_first (hrun : (s.engine n).run = true) (hfirst : (s.engine n).lastMiss = none) :
    execSlotMiss n s = .next (((s.holdEngine n 6 true).updEngine n fun y => { y with
      slotMiss := true, run := false, slotMissCnt := stickAdd y.slotMissCnt 1, lastMiss := some s.tb }).raise
        (.slotMiss n) 3) := by
  rw [execSlotMiss]
  dsimp only
  rw [hon, hrun, if_pos (by decide), hfirst]

theorem execRailFault_holds (hout : 16 ≤ (s.engine n).railOut) (hnew : (s.engine n).railActed = false) :
    execRailFault n s = .next (((s.holdEngine n 7 true).updEngine n fun y => { y with
      railFault := true, railActed := true, railHeld := true }).raise (.rail n) 3) :=
  doIf_true (by simp [hon, hout, hnew])

theorem execLiveValuesUpdate_updates (hrun : (s.engine n).crookRunning = true) (hgauge : (s.engine n).gaugeOk = true)
    (hperiod : (s.engine n).period.toNat % 256 = 0) :
    execLiveValuesUpdate n s = .next ((List.range 176).foldl (fun (u : State) i =>
      u.updElem n i fun y => y.liveAt (elemIsSel i) (clampTemp (s.engine n).temp)) s) :=
  doIf_true (by simp [hon, hrun, hgauge, hperiod])

theorem execCoefficientWrite_queues {i w : Nat} {word : BitVec 32} (hw : w < 32) (hi : i < 176) :
    execCoefficientWrite n false i w word s = .next (s.updEngine n fun y =>
      if y.coefQ.length < 16 then { y with coefQ := y.coefQ ++ [(false, i, w, word)] }
      else { y with coefWait := y.coefWait ++ [(false, i, w, word)] }) :=
  doIf_true (by simp [hon, hw, hi])

theorem execProgMemWrite_stopped {w : BitVec 10} {word : BitVec 32} (hrun : (s.engine n).run = false) :
    execProgMemWrite n w word s =
      .next (s.updEngine n fun y => { y with prog := tabSet (fun _ => (0 : BitVec 32)) y.prog w.toNat word }) :=
  doIf_true (by simp [hon, hrun])

end

/-- Settles O34. -/
theorem crookSupervision : Obligations.CrookSupervision := by
  intro n e s htransit hn he
  have hon : s.crookOn n = true := by simp [State.crookOn, htransit, hn]
  refine ⟨?period, ?handover, ?slip, ?following, ?notch, ?miss, ?rail, ?live, ?coefficient, ?stopped, ?running, ?start, ?stop⟩
  case period => exact fun smp hrun => (execCrookPeriod_runs hon hrun rfl rfl rfl rfl : execCrookPeriod n smp s = _)
  case handover =>
    exact fun r hrun hphase hfour hapart =>
      (execHandoverEvaluation_refuses hon he hrun hphase hfour hapart : execHandoverEvaluation n e s = _)
  case slip => exact fun hmode hpos hslips => (execSlip_holds hon he hmode hpos hslips : execSlip n e s = _)
  case following =>
    exact fun hsel hmode hpos hexpired =>
      (execFollowingErrorExpiry_selector hon he hsel hmode hpos hexpired : execFollowingErrorExpiry n e s = _)
  case notch => exact fun hnotch => (execNotchRecoveryEnd_ends hon he hnotch : execNotchRecoveryEnd n e s = _)
  case miss => exact fun hrun hfirst => (execSlotMiss_first hon hrun hfirst : execSlotMiss n s = _)
  case rail => exact fun hout hnew => (execRailFault_holds hon hout hnew : execRailFault n s = _)
  case live =>
    exact fun hrun hgauge hperiod => (execLiveValuesUpdate_updates hon hrun hgauge hperiod : execLiveValuesUpdate n s = _)
  case coefficient =>
    exact fun i w word hw hi _ => (execCoefficientWrite_queues hon hw hi : execCoefficientWrite n false i w word s = _)
  case stopped => exact fun w word hrun => (execProgMemWrite_stopped hon hrun : execProgMemWrite n w word s = _)
  case running => exact fun w word hrun => (doIf_false (by simp [hrun]) : execProgMemWrite n w word s = _)
  case start => exact (doIf_true hon : execProgRun n s = _)
  case stop => exact (doIf_true hon : execProgStop n s = _)

end Sys2Proof.Machine
end

section
/-! Resets and islands (01, R12 to R16; 06, R140, R145; 15, R394). -/

namespace Sys2Proof.Machine

open Sys2Proof

section
variable {s : State} {r : Nat} {blk : Block}

/-! ### Resets -/

/-- The state in which MAIN_RESET begins its drain. -/
def State.mainDrain (s : State) : State := ((s.cutStage.abortPartitions).selfReport 2 0).drainSend 1

theorem execMainReset_drains (hstarts : StartsEarly s r 0x23 blk) (hidle : s.pwr.drain = none)
    (hfree : s.pwr.mainBarred = false) (hcast : s.cast.running = false ∨ 2 ≤ s.cast.stage.toNat) :
    execMainReset r s = .next { (started s r).mainDrain with
      pwr := { (started s r).mainDrain.pwr with drain := some (.mainReset r (blkTag blk), s.tb) } } := by
  have hbarred : ¬ ((started s r).pwr.drain.isSome || (started s r).pwr.mainBarred) = true := by
    rw [show (started s r).pwr = s.pwr from rfl, hidle, hfree]
    decide
  have hstage : ¬ ((started s r).cast.running && decide ((started s r).cast.stage.toNat < 2)) = true := by
    rw [show (started s r).cast = s.cast from rfl]
    rcases hcast with h | h
    · simp [h]
    · simp [Nat.not_lt.mpr h]
  rw [execMainReset, hostCmd_startsEarly hstarts, if_neg hbarred, if_neg hstage]
  rfl

theorem execMainReset_busy (hstarts : StartsEarly s r 0x23 blk) (hdrain : s.pwr.drain.isSome = true) :
    execMainReset r s = .next ((started s r).complete r (blkTag blk) stBusy) := by
  have hbarred : ((started s r).pwr.drain.isSome || (started s r).pwr.mainBarred) = true := by
    rw [show (started s r).pwr = s.pwr from rfl, hdrain]
    rfl
  rw [execMainReset, hostCmd_startsEarly hstarts, if_pos hbarred]

theorem execPartitionReset_resets (hstarts : Starts s r 0x0A blk) : execPartitionReset r s = .next
    (if s.flash.settings.islands.getLsbD r then
      (((started s r).abortRing r (some (blkTag blk))).resetPart r).queueIsland r (some (r, blkTag blk))
    else (((started s r).abortRing r (some (blkTag blk))).resetPart r).complete r (blkTag blk) stOk) := by
  rw [execPartitionReset, hostCmd_starts hstarts]
  rfl

theorem execAllPartitionReset_resets (hstarts : Starts s r 0x22 blk) : execAllPartitionReset r s = .next
    (((List.range 8).foldl State.resetPart (started s r).abortPartitions).queueIslands r (blkTag blk)
      ((List.range 8).filter (fun p => s.flash.settings.islands.getLsbD p))) := by
  rw [execAllPartitionReset, hostCmd_starts hstarts]
  rfl

/-! ### Islands -/

section
variable {mask : Byte} {gone new : List Nat} (hstarts : Starts s r 0x21 blk) (hmask : BitVec.ofNat 8 (fieldB blk 8 1) = mask)
  (hgone : (List.range 8).filter (fun p => s.flash.settings.islands.getLsbD p && !mask.getLsbD p) = gone)
  (hnew : (List.range 8).filter (fun p => mask.getLsbD p && !s.flash.settings.islands.getLsbD p) = new)
include hstarts hmask hgone hnew

theorem execIslandAssign_starts : execIslandAssign r s = .next
    (if gone.any s.partInUse then (started s r).complete r (blkTag blk) stBusy
    else if !new.isEmpty && !(s.pwr.transit && s.pwr.memory) then (started s r).complete r (blkTag blk) stSequence
    else
      let v := gone.foldl State.unassign
        { started s r with flash := { s.flash with settings := { s.flash.settings with islands := mask } } }
      (if s.cast.running && !v.cast.running then v.nextIsland else v).queueIslands r (blkTag blk) new) := by
  subst hmask hgone hnew
  rw [execIslandAssign, hostCmd_starts hstarts]
  rfl

theorem execIslandAssign_busy (hused : gone.any s.partInUse = true) :
    execIslandAssign r s = .next ((started s r).complete r (blkTag blk) stBusy) := by
  rw [execIslandAssign_starts hstarts hmask hgone hnew, if_pos hused]

variable (hfree : gone.any s.partInUse = false)
include hfree

theorem execIslandAssign_unpowered (hne : new.isEmpty = false) (hoff : (s.pwr.transit && s.pwr.memory) = false) :
    execIslandAssign r s = .next ((started s r).complete r (blkTag blk) stSequence) := by
  rw [execIslandAssign_starts hstarts hmask hgone hnew, if_neg (by simp [hfree]), hne, hoff]
  rfl

theorem execIslandAssign_assigns (hon : (s.pwr.transit && s.pwr.memory) = true) {v : State}
    (hv : gone.foldl State.unassign
      { started s r with flash := { s.flash with settings := { s.flash.settings with islands := mask } } } = v) :
    execIslandAssign r s = .next
      ((if s.cast.running && !v.cast.running then v.nextIsland else v).queueIslands r (blkTag blk) new) := by
  rw [execIslandAssign_starts hstarts hmask hgone hnew, if_neg (by simp [hfree]), hon, Bool.not_true, Bool.and_false,
    if_neg Bool.false_ne_true]
  dsimp only
  rw [hv]

end

/-- An island that nothing brings up goes off. -/
theorem State.unassign_idle {p : Nat} (hqueue : s.cast.islandQ.all (fun e => decide (e.1 ≠ p)) = true)
    (hrun : s.cast.running = false ∨ s.cast.run ≠ .island p) : s.unassign p = s.islandOff p := by
  have hothers : ∀ e ∈ s.cast.islandQ, e.1 ≠ p := by simpa using hqueue
  have hkeep : s.cast.islandQ.filter (fun e => decide (e.1 ≠ p)) = s.cast.islandQ := by
    rw [List.filter_eq_self]
    exact fun e he => decide_eq_true (hothers e he)
  have hnone : s.cast.islandQ.filter (fun e => decide (e.1 = p)) = [] := by
    rw [List.filter_eq_nil_iff]
    exact fun e he => by simpa using hothers e he
  have hidle : ¬ (s.cast.running && decide (s.cast.run = .island p)) = true := by
    rcases hrun with h | h <;> simp [h]
  rw [State.unassign, hkeep, hnone]
  exact if_neg hidle

end

/-- Settles O36. -/
theorem resetsAndIslands : Obligations.ResetsAndIslands := by
  intro r blk s u tag mask old gone new
  refine ⟨?drains, ?busy, ?partition, ?partitionOff, ?all, ?used, ?unpowered, ?assigns, ?idle, ?nop⟩
  case drains =>
    exact fun hstarts hidle hfree hcast =>
      ⟨_, rfl, (execMainReset_drains hstarts hidle hfree hcast : execMainReset r s = _)⟩
  case busy => exact fun hstarts hdrain => (execMainReset_busy hstarts hdrain : execMainReset r s = _)
  case partition =>
    exact fun hstarts hisland =>
      ((execPartitionReset_resets hstarts).trans (by rw [if_pos hisland]) : execPartitionReset r s = _)
  case partitionOff =>
    exact fun hstarts hisland =>
      ((execPartitionReset_resets hstarts).trans (by rw [if_neg (by simpa using hisland)]) : execPartitionReset r s = _)
  case all => exact fun hstarts => (execAllPartitionReset_resets hstarts : execAllPartitionReset r s = _)
  case used => exact fun hstarts hused => (execIslandAssign_busy hstarts rfl rfl rfl hused : execIslandAssign r s = _)
  case unpowered =>
    exact fun hstarts hfree hne hoff =>
      (execIslandAssign_unpowered hstarts rfl rfl rfl hfree hne hoff : execIslandAssign r s = _)
  case assigns =>
    exact fun hstarts hfree hon =>
      ⟨_, rfl, (execIslandAssign_assigns hstarts rfl rfl rfl hfree hon rfl : execIslandAssign r s = _)⟩
  case idle => exact fun p v hqueue hrun => State.unassign_idle hqueue hrun
  case nop =>
    intro hstarts
    exact (hostCmd_starts hstarts : execNop r s = _)

end Sys2Proof.Machine
end

section
/-! The power envelope, the timebase and the beat windows (01, R20 to R24; 02, R30 to R36). -/

namespace Sys2Proof.Machine

open Sys2Proof

/-! ### The envelope -/

section
variable {s : State} {watts : Nat} {hot : Int}

theorem State.stepDue_of (h : s.pwr.lastStep = none ∨ ∃ t, s.pwr.lastStep = some t ∧ s.passed t 10000 = true) :
    s.stepDue = true := by
  unfold State.stepDue
  rcases h with h | ⟨t, h, hpassed⟩ <;> rw [h]
  exact hpassed

theorem execEnvelopeStep_due (haux : s.pwr.aux = true) (hdue : s.stepDue = true) : execEnvelopeStep watts hot s = .next
    (if s.pwr.islands = 0 ∨ s.pwr.mode = 3 then s.measurePower watts hot
     else { s.measurePower watts hot with pwr := { (s.measurePower watts hot).pwr with
       vcore := s.vcoreStep (meanNat ((watts :: s.pwr.inputs).take 100)) hot } }) :=
  doIf_true (by simp [haux, hdue])

theorem execEnvelopeStep_early {t : Word} (hlast : s.pwr.lastStep = some t) (hearly : s.passed t 10000 = false) :
    execEnvelopeStep watts hot s = .next s := by
  have hnot : s.stepDue = false := by rw [State.stepDue, hlast]; exact hearly
  exact doIf_false (by simp [hnot])

theorem State.vcoreStep_down {mean : Nat} (h : s.powerLimit < mean ∨ 380 < hot) :
    s.vcoreStep mean hot = max 600 (s.pwr.vcore - 5) := if_pos h

theorem State.vcoreStep_up {mean : Nat} (hmean : mean < s.powerLimit) (hcool : hot ≤ 380)
    (htop : s.pwr.vcore ≤ s.vcoreTop mean) : s.vcoreStep mean hot = min (s.vcoreTop mean) (s.pwr.vcore + 5) := by
  rw [State.vcoreStep]
  rw [if_neg (by omega), if_neg (by omega), if_pos hmean]

theorem execAdmissionPause_pauses {ticks : BitVec 32} (hshep : s.shepOn = true)
    (hlow : s.pwr.islands ≠ 0 ∧ s.pwr.mode ≠ 3 ∧ s.pwr.vcore ≤ 600)
    (hwhy : (∃ t, s.pwr.overSince = some t ∧ s.passed t 1000000 = true) ∨ s.tooHot = true) :
    execAdmissionPause watts ticks s = .next (({ s with
      gate := { s.gate with pin := BitVec.ofNat 16 (min watts 65535) }
      pwr := { s.pwr with overSince := if s.powerLimit < watts then s.pwr.overSince else none } } : State).raise
        (.admissionPause ticks) 1) := by
  have hreason : (s.overLong || s.tooHot) = true := by
    rcases hwhy with ⟨t, hover, hpassed⟩ | hhot
    · have hlong : s.overLong = true := by rw [State.overLong, hover]; exact hpassed
      rw [hlong, Bool.true_or]
    · rw [hhot, Bool.or_true]
  exact doIf_true (by rw [hshep, hreason, decide_eq_true hlow]; rfl)

theorem not_stopped_of {m : BitVec 2} (hfit : m ≠ 3 ∨ s.atHurdles = true) : ¬ (decide (m = 3) && !s.atHurdles) = true := by
  rcases hfit with h | h
  · rw [decide_eq_false h]; exact Bool.false_ne_true
  · simp [h]

section
variable {r : Nat} {blk : Block} (hstarts : StartsEarly s r 0x20 blk)
include hstarts

theorem execEnvelopeSet_starts {m : BitVec 2} (hm : BitVec.ofNat 2 (fieldB blk 8 1) = m) : execEnvelopeSet r s = .next
    (if 3 < fieldB blk 8 1 then (started s r).complete r (blkTag blk) stMalformed
     else if m = 3 && !s.atHurdles then (started s r).complete r (blkTag blk) stBusy
     else
       let s1 := if m = s.pwr.mode then started s r else (started s r).setMode m
       (if (nth blk 9 0).getLsbD 0 then { s1 with flash := { s1.flash with
          settings := { s1.flash.settings with mode := some m } } } else s1).complete r (blkTag blk) stOk) := by
  subst hm
  rw [execEnvelopeSet, hostCmd_startsEarly hstarts]
  rfl

variable (hshort : fieldB blk 8 1 ≤ 3) {m : BitVec 2} (hm : BitVec.ofNat 2 (fieldB blk 8 1) = m)
include hshort hm

theorem execEnvelopeSet_busy (hstop : m = 3) (hfar : s.atHurdles = false) :
    execEnvelopeSet r s = .next ((started s r).complete r (blkTag blk) stBusy) := by
  rw [execEnvelopeSet_starts hstarts hm, if_neg (Nat.not_lt.mpr hshort), if_pos (by simp [hstop, hfar])]

variable (hfit : m ≠ 3 ∨ s.atHurdles = true)
include hfit

theorem execEnvelopeSet_sets (hnew : m ≠ s.pwr.mode) (honce : (nth blk 9 0).getLsbD 0 = false) :
    execEnvelopeSet r s = .next (((started s r).setMode m).complete r (blkTag blk) stOk) := by
  have hnot := not_stopped_of hfit
  rw [execEnvelopeSet_starts hstarts hm, if_neg (Nat.not_lt.mpr hshort), if_neg hnot, honce, if_neg hnew]
  rfl

theorem execEnvelopeSet_stores (hsame : m = s.pwr.mode) (hkeep : (nth blk 9 0).getLsbD 0 = true) :
    execEnvelopeSet r s = .next (({ started s r with flash := { (started s r).flash with
      settings := { (started s r).flash.settings with mode := some m } } } : State).complete r (blkTag blk) stOk) := by
  have hnot := not_stopped_of hfit
  rw [execEnvelopeSet_starts hstarts hm, if_neg (Nat.not_lt.mpr hshort), if_neg hnot, hkeep, if_pos hsame]
  rfl

end
end

/-! ### REFCLK -/

section
variable {s : State}

theorem execHoldoverEntry_hardFault {ppm : BitVec 16} (haux : s.pwr.aux = true) (hlocked : s.gate.holdover = false)
    (hshep : s.shepOn = true) (hidle : s.cast.running = false) : execHoldoverEntry ppm s = .next
      ((({ s with gate := { s.gate with
        holdover := true, refclkFault := true, ppm := ppm, holdoverAt := s.tb } } : State).loseLock).hardFault 2) := by
  rw [execHoldoverEntry, doIf_true (by simp [haux, hlocked]), hshep, hidle]
  rfl

/-- Writing memory dies puts each in self-refresh and leaves those already in it. -/
theorem foldl_updMd_selfRefresh {f : MemDie → MemDie} (hf : ∀ x, (f x).selfRefresh = true) (l : List Nat) {b : Nat}
    (h : b ∈ l ∨ (s.md b).selfRefresh = true) : ((l.foldl (fun (u : State) n => u.updMd n f) s).md b).selfRefresh = true := by
  induction l generalizing s with
  | nil => exact h.resolve_left (by simp)
  | cons n l ih =>
    refine ih ?_
    by_cases hb : b = n
    · right
      have hread : (s.updMd n f).md b = f (s.md b) := by
        subst hb
        exact tabGet_tabSet_of_ne _ fun e => by
          have hnew := hf (s.md b)
          rw [e] at hnew
          exact absurd hnew (by decide)
      rw [hread]
      exact hf _
    · have hread : (s.updMd n f).md b = s.md b := tabGet_tabSet_ne _ hb
      rw [hread]
      exact h.imp_left fun hmem => (List.mem_cons.mp hmem).resolve_left hb

theorem State.loseLock_selfRefresh (hon : s.pwr.memory = true) {b : Nat} (hb : b < 8) :
    (s.loseLock.md b).selfRefresh = true := by
  have hmds : s.loseLock.mds = ((List.range 8).foldl (fun (u : State) n =>
      u.updMd n fun x => { x with selfRefresh := true, twinTraffic := none }) s).mds := by
    rw [State.loseLock, if_pos hon]
  rw [State.md, hmds]
  exact foldl_updMd_selfRefresh (fun _ => rfl) _ (.inl (List.mem_range.mpr hb))

section
variable {ppm : BitVec 16} {v : State}

/-- The state as the timebase locks again, before what cast-on makes of it. -/
def State.relocked (s : State) (ppm : BitVec 16) : State :=
  let u := ({ s with gate := { s.gate with holdover := false, ppm := ppm } } : State).pcieUp
  (if u.gate.pcieWidth = 0 then u else { u with gate := { u.gate with
    pcieRetrains := stickAdd u.gate.pcieRetrains 1 } }).clearRefclk

theorem State.clearRefclk_paddock (s : State) : s.clearRefclk.shep.paddock = s.shep.paddock := by
  rw [State.clearRefclk]
  dsimp only
  split <;> rfl

theorem State.relocked_paddock (s : State) (ppm : BitVec 16) : (s.relocked ppm).shep.paddock = s.shep.paddock := by
  have hpcie (u : State) : u.pcieUp.shep = u.shep := by
    rw [State.pcieUp]
    dsimp only
    split <;> rfl
  rw [State.relocked]
  dsimp only
  rw [State.clearRefclk_paddock]
  split
  · rw [hpcie]
  · rw [hpcie]

theorem State.refclkBack_of (hlow : -300 ≤ ppm.toInt) (hhigh : ppm.toInt ≤ 300)
    (hpassed : s.passed s.gate.holdoverAt 1000000 = true) : s.refclkBack ppm = true := by
  rw [State.refclkBack, decide_eq_true ⟨hlow, hhigh⟩, Bool.true_and]
  exact hpassed

variable (haux : s.pwr.aux = true) (hshep : s.shepOn = true) (hholdover : s.gate.holdover = true)
  (hback : s.refclkBack ppm = true) (hv : s.relocked ppm = v)
include haux hshep hholdover hback hv

theorem execHoldoverExit_locks : execHoldoverExit ppm s = .next
    (let w := if v.padReady && !s.cast.refclkRestart then v.enterPaddock else v
     if s.cast.refclkRestart then (if v.shep.hard then v else v.rampAgain)
     else if w.shep.paddock && !s.shep.paddock then w
     else if s.pwr.transit && s.pwr.memory && !s.cast.running then w.startRun .refclk
     else w) := by
  subst hv
  rw [execHoldoverExit]
  dsimp only
  rw [doIf_true (by simp [haux, hholdover, hback]), hshep]
  rfl

theorem execHoldoverExit_starts (hrestart : s.cast.refclkRestart = false) (hpad : v.padReady = false)
    (htransit : s.pwr.transit = true) (hmemory : s.pwr.memory = true) (hidle : s.cast.running = false) :
    execHoldoverExit ppm s = .next (v.startRun .refclk) := by
  have hpaddock : v.shep.paddock = s.shep.paddock := hv ▸ s.relocked_paddock ppm
  rw [execHoldoverExit_locks haux hshep hholdover hback hv, hrestart, hpad, htransit, hmemory, hidle, Bool.false_and]
  dsimp only
  rw [if_neg Bool.false_ne_true, if_neg Bool.false_ne_true, hpaddock, Bool.and_not_self, if_neg Bool.false_ne_true]
  rfl

theorem execHoldoverExit_ramps (hrestart : s.cast.refclkRestart = true) (hhard : v.shep.hard = false) :
    execHoldoverExit ppm s = .next v.rampAgain := by
  rw [execHoldoverExit_locks haux hshep hholdover hback hv, hrestart, hhard]
  rfl

end
end

/-! ### Beat windows -/

section
variable {s : State} {die : Nat} (hon : s.dieOn die = true)
include hon

theorem execBeatWindowEnd_ends {beats : BitVec 32} {mv tj : BitVec 12} {d d1 : TileDie} (hd : s.die die = d)
    (hd1 : d.endWindow s.tb beats mv tj = d1) (hpassed : s.passed d.windowStart d.window.toNat = true) :
    execBeatWindowEnd die beats mv tj s = .next
      ((s.setDie die d1).stuck (0x2000000 + 0x400000 * die + 0x3F0010) d.beatCount d1.beatCount) := by
  subst hd hd1
  exact doIf_true (by simp [hon, hpassed])

end

theorem TileDie.endWindow_beatMin (d : TileDie) (tb : Word) (beats : BitVec 32) (mv tj : BitVec 12) :
    (d.endWindow tb beats mv tj).beatMin.toNat = min beats.toNat d.beatMin.toNat := by
  show (if beats.toNat < d.beatMin.toNat then beats else d.beatMin).toNat = _
  split <;> omega

theorem clampWindow_toNat (w : BitVec 20) : (clampWindow w).toNat = max 1000 (min 1000000 w.toNat) := by
  rw [clampWindow, BitVec.toNat_ofNat]
  omega

/-- Settles O37. -/
theorem envelopeAndBeats : Obligations.EnvelopeAndBeats := by
  refine ⟨⟨fun watts hot s haux => ?envelope, fun r blk s hstarts => ?set, fun s haux => ?refclk⟩,
    fun die beats mv tj s hon hpassed => ?window, fun die w beats s hon => ?write, fun w => ?clamp, rfl, rfl, rfl⟩
  case envelope =>
    intro s1 mean due
    refine ⟨fun hdue hislands hmode => ?step, fun hdue hoff => ?off, fun t hlast hearly => ?early,
      State.vcoreStep_down, State.vcoreStep_up, fun ticks hhold hislands hmode hlow hwhy => ?pause⟩
    case step =>
      exact ((execEnvelopeStep_due haux (State.stepDue_of hdue)).trans (by rw [if_neg (not_or_intro hislands hmode)]) :
        execEnvelopeStep watts hot s = _)
    case off =>
      exact ((execEnvelopeStep_due haux (State.stepDue_of hdue)).trans (by rw [if_pos hoff]) : execEnvelopeStep watts hot s = _)
    case early => exact (execEnvelopeStep_early hlast hearly : execEnvelopeStep watts hot s = _)
    case pause =>
      exact (execAdmissionPause_pauses (State.shepOn_of haux hhold) ⟨hislands, hmode, hlow⟩ hwhy :
        execAdmissionPause watts ticks s = _)
  case set =>
    intro u m
    refine ⟨fun hlong => ?malformed, fun hstop hshort hfar => ?busy, fun hshort hfit hnew honce => ?sets,
      fun hshort hfit hsame hkeep => ?stores⟩
    case malformed =>
      exact ((execEnvelopeSet_starts hstarts rfl).trans (by rw [if_pos hlong]) : execEnvelopeSet r s = _)
    case busy => exact (execEnvelopeSet_busy hstarts hshort rfl hstop hfar : execEnvelopeSet r s = _)
    case sets => exact (execEnvelopeSet_sets hstarts hshort rfl hfit hnew honce : execEnvelopeSet r s = _)
    case stores => exact (execEnvelopeSet_stores hstarts hshort rfl hfit hsame hkeep : execEnvelopeSet r s = _)
  case refclk =>
    refine ⟨?tick, fun l => ?upsets, fun ppm hlocked hhold hidle => ?entry, ⟨rfl, fun hon b hb => ?refresh⟩,
      fun ppm hholdover hhold hlow hhigh hpassed => ?exit, fun ppm hearly => ?early⟩
    case tick => exact (doIf_true haux : execTbTick [] s = _)
    case upsets => exact (doIf_true haux : execTbTick l s = _)
    case entry =>
      exact (execHoldoverEntry_hardFault haux hlocked (State.shepOn_of haux hhold) hidle : execHoldoverEntry ppm s = _)
    case refresh => exact State.loseLock_selfRefresh hon hb
    case exit =>
      have hshep := State.shepOn_of haux hhold
      have hback := State.refclkBack_of hlow hhigh hpassed
      exact ⟨fun hrestart hpad htransit hmemory hidle =>
          (execHoldoverExit_starts haux hshep hholdover hback rfl hrestart hpad htransit hmemory hidle :
            execHoldoverExit ppm s = _),
        fun hrestart hhard =>
          (execHoldoverExit_ramps haux hshep hholdover hback rfl hrestart hhard : execHoldoverExit ppm s = _)⟩
    case early =>
      have hnot : s.refclkBack ppm = false := by
        rw [State.refclkBack, show s.passed s.gate.holdoverAt ticks10ms = false from hearly, Bool.and_false]
      exact (doIf_false (by simp [hnot]) : execHoldoverExit ppm s = _)
  case window =>
    exact ⟨execBeatWindowEnd_ends hon rfl rfl hpassed, rfl, rfl, rfl, rfl, rfl, rfl, TileDie.endWindow_beatMin .., rfl⟩
  case write =>
    exact ⟨fun hsame => (doIf_false (by simp [hsame]) : execBeatWindowWrite die w beats s = _),
      (doIf_true hon : execMinRearm die s = _)⟩
  case clamp =>
    rw [clampWindow_toNat]
    refine ⟨by omega, by omega, fun hlow hhigh => BitVec.eq_of_toNat_eq ?_⟩
    rw [clampWindow_toNat]
    omega

end Sys2Proof.Machine
end

section
/-! Rings, the PCIe resets and the DOE (15, R384 to R398, R413). -/

namespace Sys2Proof.Machine

open Sys2Proof

section
variable {s : State} {r : Nat} {x : Ring} (hx : s.ring r = x)
include hx

/-! ### Commands -/

section
variable {prod cons : BitVec 32} {blocks : List (List Byte)} (haux : s.pwr.aux = true) (hr : r < 9)
  (henable : x.enable = true) (hrun : x.stopped = false) (hopen : s.ideBlocked = false) (hhold : s.cast.hold ≠ 1)
  (hlink : s.gate.sig.perstN = true)
  (hdue : x.polledAt = none ∨ ∃ t, x.polledAt = some t ∧ s.passed t (100 * x.pollUs.toNat) = true)
include haux hr henable hrun hopen hhold hlink hdue

theorem execRingPoll_polls {dmaOk : Bool} : execRingPoll r prod cons blocks dmaOk s = .next
    (if !dmaOk then s.ringError r 2
     else if x.cmdN < (prod - x.cmdCons).toNat then s.ringError r 1
     else
       let ring1 := if x.free < 8 then { x with cplCons := cons } else x
       let n := min (ring1.mayFetch prod) blocks.length
       let s2 := (blocks.take n).foldl (fun (u : State) b => u.fetch r (blkOf b))
         (s.setRing r { ring1 with
           cmdCons := ring1.cmdCons + BitVec.ofNat 32 n, polledAt := if prod = x.cmdCons then some s.tb else none })
       if n = 0 then s2 else s2.emit (.cmdCons r (ring1.cmdCons + BitVec.ofNat 32 n))) := by
  have hready : decide (s.cast.hold = 1) = false := decide_eq_false hhold
  rw [execRingPoll, hx]
  dsimp only
  rw [if_neg (by
    rw [hready]
    rcases hdue with h | ⟨t, h, hpassed⟩
    · simp [haux, Nat.le_of_lt_succ hr, henable, hrun, hopen, hlink, h]
    · simp [haux, Nat.le_of_lt_succ hr, henable, hrun, hopen, hlink, h, hpassed])]
  simp only [apply_ite Host.Outcome.next]

theorem execRingPoll_fetches {n : Nat} (hroom : (prod - x.cmdCons).toNat ≤ x.cmdN) (hfree : 8 ≤ x.free)
    (hn : min (x.mayFetch prod) blocks.length = n) (hpos : 0 < n) : execRingPoll r prod cons blocks true s = .next
      (((blocks.take n).foldl (fun (u : State) b => u.fetch r (blkOf b)) (s.setRing r { x with
        cmdCons := x.cmdCons + BitVec.ofNat 32 n, polledAt := if prod = x.cmdCons then some s.tb else none })).emit
        (.cmdCons r (x.cmdCons + BitVec.ofNat 32 n))) := by
  rw [execRingPoll_polls hx haux hr henable hrun hopen hhold hlink hdue, if_neg (by decide),
    if_neg (Nat.not_lt.mpr hroom), if_neg (Nat.not_lt.mpr hfree)]
  dsimp only
  rw [hn, if_neg hpos.ne']

end

theorem State.fetch_sound {b : Block} (hsound : blkFault r b = none) :
    s.fetch r b = s.setRing r { x with fetched := x.fetched ++ [{ block := b }] } := by
  subst hx
  rw [State.fetch, hsound]

section
variable {prod cc cp ck : BitVec 32} (haux : s.pwr.aux = true) (hr : r < 9) (hoff : x.enable = false)
  (hlink : s.gate.sig.perstN = true) (hopen : s.ideBlocked = false) {u : State}
  (hu : s.setRing r { x with
    enable := true, stopped := false, parked := false, polledAt := none, phase := true, cause := 0,
    cmdCons := cc, cplProd := cp, cplCons := ck, unsignalled := none } = u)
include haux hr hoff hlink hopen hu

theorem execRingEnable_enables {dmaOk : Bool} : execRingEnable r dmaOk prod cc cp ck s = .next
    (if !dmaOk then u.ringError r 2 else if (u.ring r).cmdN < (prod - cc).toNat then u.ringError r 1 else u) := by
  subst hu
  rw [execRingEnable, hx]
  dsimp only
  rw [if_neg (by simp [haux, Nat.le_of_lt_succ hr, hoff, hlink, hopen])]
  simp only [apply_ite Host.Outcome.next]

end

/-! ### Completions -/

section
variable {cons : BitVec 32} (haux : s.pwr.aux = true) (hr : r < 9) (hrun : x.parked = false)
  (hlink : s.gate.sig.perstN = true) (hfree : 8 ≤ x.free)
include haux hr hrun hlink hfree

theorem execCompletionWrite_writes : execCompletionWrite r cons s =
    (match x.due with
     | c :: cs => if x.used < x.cplN then .next ((s.setRing r { x with due := cs }).writeEntry r c) else .next s
     | [] =>
       if !x.enable || decide (x.free = 0) then .next s
       else if x.lostSince ≠ 0 then .next
         ((s.setRing r { x with lostSince := 0, eventSeq := x.eventSeq + 1 }).writeEntry r
           { kind := 0x0C, tag := x.eventSeq, tbTime := s.tb, detail := [(16, 4, x.lostSince.toNat)] })
       else match x.held with
         | c :: cs => .next ((s.setRing r { x with held := cs }).writeEntry r c)
         | [] => .next s) := by
  rw [execCompletionWrite, hx]
  dsimp only
  rw [if_neg (Nat.not_lt.mpr hfree)]
  exact if_neg (by simp [haux, Nat.le_of_lt_succ hr, hrun, hlink])

theorem execCompletionWrite_due {c : Cpl} {cs : List Cpl} (hdue : x.due = c :: cs) (hroom : x.used < x.cplN) :
    execCompletionWrite r cons s = .next ((s.setRing r { x with due := cs }).writeEntry r c) := by
  rw [execCompletionWrite_writes hx haux hr hrun hlink hfree, hdue]
  exact if_pos hroom

variable (hdue : x.due = []) (henable : x.enable = true)
include hdue henable

theorem execCompletionWrite_lost (hlost : x.lostSince ≠ 0) : execCompletionWrite r cons s = .next
    ((s.setRing r { x with lostSince := 0, eventSeq := x.eventSeq + 1 }).writeEntry r
      { kind := 0x0C, tag := x.eventSeq, tbTime := s.tb, detail := [(16, 4, x.lostSince.toNat)] }) := by
  have hroom : decide (x.free = 0) = false := decide_eq_false (by omega)
  rw [execCompletionWrite_writes hx haux hr hrun hlink hfree, hdue]
  dsimp only
  rw [henable, hroom, if_neg (by decide), if_pos hlost]

theorem execCompletionWrite_held {c : Cpl} {cs : List Cpl} (hkept : x.lostSince = 0) (hheld : x.held = c :: cs) :
    execCompletionWrite r cons s = .next ((s.setRing r { x with held := cs }).writeEntry r c) := by
  have hroom : decide (x.free = 0) = false := decide_eq_false (by omega)
  rw [execCompletionWrite_writes hx haux hr hrun hlink hfree, hdue]
  dsimp only
  rw [henable, hroom, if_neg (by decide), if_neg (not_not_intro hkept), hheld]

end

theorem execCoalesceTimer_signals {t : Word} (haux : s.pwr.aux = true) (hr : r < 9) (hwaits : x.unsignalled = some t)
    (hpassed : s.passed t (100 * x.coalesceUs.toNat) = true) :
    execCoalesceTimer r s = .next ((s.setRing r { x with unsignalled := none }).msix x.vector) := by
  subst hx
  rw [execCoalesceTimer]
  rw [hwaits]
  exact doIf_true (by simp [haux, hr, hpassed])

end

/-! ### PERST_N and the DOE -/

section
variable {s : State} (haux : s.pwr.aux = true)
include haux

theorem execPerst_turns {low : Bool} (hlevel : s.gate.sig.perstN = low) {u : State}
    (hu : { s with gate := { s.gate with sig := { s.gate.sig with perstN := !low } } } = u) :
    execPerst low s = .next (if low then u.flr else u.pcieUp) := by
  subst hu hlevel
  rw [execPerst]
  dsimp only
  rw [if_neg (by simp [haux])]

theorem execDoeRequest_takes {proto : Byte} {req : List Byte} (hlink : s.gate.sig.perstN = true)
    (hidle : s.mgmt.doeBusy = false) (hlen : req.length ≤ 16384) (hproto : proto = 1 ∨ proto = 2) (hhold : s.cast.hold ≠ 1) :
    execDoeRequest proto req s = .next { s with mgmt := { s.mgmt with doeBusy := true } } := by
  have hne : proto ≠ 0 := by rcases hproto with rfl | rfl <;> decide
  rw [execDoeRequest, if_neg (by simp [haux, hlink, hidle, hlen]), if_neg hne, if_pos hproto]
  exact doIf_true (decide_eq_true hhold)

end

/-- Settles O39. -/
theorem hostRings : Obligations.HostRings := by
  intro r s haux hr x
  refine ⟨?poll, fun b hsound => State.fetch_sound rfl hsound, ?enable, ?disable, ?due, ?events, ?timer, ?reset, ?low, ?high,
    ?request, ?abort⟩
  case poll =>
    intro prod cons blocks henable hrun hopen hhold hlink hdue
    have hpolls (dmaOk : Bool) : exec (.ringPoll r prod cons blocks dmaOk) s = _ :=
      execRingPoll_polls rfl haux hr henable hrun hopen hhold hlink hdue
    refine ⟨hpolls false, fun hlong => ?beyond, fun hroom hfree n hn hpos => ?fetches⟩
    case beyond => rw [hpolls, if_neg (by decide), if_pos hlong]
    case fetches =>
      exact (execRingPoll_fetches rfl haux hr henable hrun hopen hhold hlink hdue hroom hfree hn.symm hpos :
        execRingPoll r prod cons blocks true s = _)
  case enable =>
    intro prod cc cp ck hoff hlink hopen
    have henables (dmaOk : Bool) : exec (.ringEnable r dmaOk prod cc cp ck) s = _ :=
      execRingEnable_enables rfl haux hr hoff hlink hopen rfl
    refine ⟨_, rfl, henables false, fun hlong => ?beyond, fun hroom => ?fits⟩
    case beyond => rw [henables, if_neg (by decide), if_pos hlong]
    case fits => rw [henables, if_neg (by decide), if_neg (Nat.not_lt.mpr hroom)]
  case disable =>
    intro henable
    exact (doIf_true (by rw [haux, decide_eq_true hr]; exact henable) : execRingDisable r s = _)
  case due =>
    exact fun c cs cons hrun hlink hfree hdue hroom =>
      (execCompletionWrite_due rfl haux hr hrun hlink hfree hdue hroom : execCompletionWrite r cons s = _)
  case events =>
    intro cons hrun hlink hfree hdue henable
    exact ⟨fun hlost =>
        (execCompletionWrite_lost rfl haux hr hrun hlink hfree hdue henable hlost : execCompletionWrite r cons s = _),
      fun c cs hkept hheld =>
        (execCompletionWrite_held rfl haux hr hrun hlink hfree hdue henable hkept hheld : execCompletionWrite r cons s = _)⟩
  case timer =>
    exact fun t hwaits hpassed => (execCoalesceTimer_signals rfl haux hr hwaits hpassed : execCoalesceTimer r s = _)
  case reset => exact (doIf_true haux : execFunctionLevelReset s = _)
  case low => exact fun hlevel => (execPerst_turns haux hlevel rfl : execPerst true s = _)
  case high => exact fun hlevel => (execPerst_turns haux hlevel rfl : execPerst false s = _)
  case request =>
    exact fun proto req hlink hidle hlen hproto hhold =>
      (execDoeRequest_takes haux hlink hidle hlen hproto hhold : execDoeRequest proto req s = _)
  case abort => exact fun hlink => (doIf_true (by simp [haux, hlink]) : execDoeAbort s = _)

end Sys2Proof.Machine
end

section
/-! The mailbox (15, R400), the management bus and its messages (R401, R402), and SPDM (13, R351 to R360; 15, R399). -/

namespace Sys2Proof.Machine

open Sys2Proof

/-! ### The mailbox -/

section
variable {s : State} {op : Byte} {rom fw : Bool} {f : List Byte → State → State × Byte × List Byte}

/-- The request that stands in the mailbox. -/
def State.mboxReq (s : State) : List Byte := sliceB s.gate.mbox.data 0 s.gate.mbox.length.toNat

/-- A mailbox operation ends with a status and an answer. -/
def State.mboxEnds (u : State) (op st : Byte) (l : List Byte) : State :=
  ({ u with gate := { u.gate with mbox := u.gate.mbox.reply op st l } } : State).misc 0

variable (haux : s.pwr.aux = true)
include haux

theorem mboxOp_busy (hbusy : s.gate.mbox.busy = true) : mboxOp s op rom fw f =
    .next { s with gate := { s.gate with badAccess := stickAdd s.gate.badAccess 1 } } := by
  rw [mboxOp, if_neg (by simp [haux]), if_pos hbusy]

variable (hidle : s.gate.mbox.busy = false)
include hidle

/-- An operation that this state serves runs. -/
theorem mboxOp_runs (hserved : (if s.cast.hold = 1 then rom else fw) = true) {u : State} {st : Byte} {l : List Byte}
    (hf : f s.mboxReq s = (u, st, l)) : mboxOp s op rom fw f = .next (u.mboxEnds op st l) := by
  rw [mboxOp, if_neg (by simp [haux]), hidle, if_neg Bool.false_ne_true]
  dsimp only
  rw [hserved, if_pos rfl, ← State.mboxReq, hf]
  rfl

theorem mboxOp_unserved (hserved : (if s.cast.hold = 1 then rom else fw) = false) :
    mboxOp s op rom fw f = .next (s.mboxEnds op 2 []) := by
  rw [mboxOp, if_neg (by simp [haux]), hidle, if_neg Bool.false_ne_true]
  dsimp only
  rw [hserved, if_neg Bool.false_ne_true]
  rfl

section
variable (hhold : s.cast.hold ≠ 1) {req : List Byte} (hreq : s.mboxReq = req)
include hhold hreq

theorem execMboxGetMeasurements_signed (hlen : req.length = 36) {i : Word} {u : State} (hsign : s.sign = some (i, u))
    {mask : BitVec 32} (hmask : BitVec.ofNat 32 (fieldB req 32 4) = mask) : execMboxGetMeasurements s = .next
      ((u.emit (.measurements 9 mask (u.measVals mask) (some i))).mboxEnds 2 0 ((u.measVals mask).flatMap digBytes)) := by
  refine mboxOp_runs haux hidle (if_neg hhold) ?_
  dsimp only
  rw [hreq, if_neg (not_not_intro hlen), hsign]
  dsimp only
  rw [hmask]

theorem execMboxGetMeasurements_unsigned (hlen : req.length = 36) (hsign : s.sign = none) :
    execMboxGetMeasurements s = .next (s.signRefused.mboxEnds 2 4 []) := by
  refine mboxOp_runs haux hidle (if_neg hhold) ?_
  dsimp only
  rw [hreq, if_neg (not_not_intro hlen), hsign]

theorem execGetLog_answers (hpos : 0 < fieldB req 4 4) (hmax : fieldB req 4 4 ≤ 256) (hlen : req.length = 8) :
    execGetLog s = .next
      (s.mboxEnds 3 0 (((s.sec.log.drop (fieldB req 0 4)).take (fieldB req 4 4)).flatMap logBytes)) := by
  refine mboxOp_runs haux hidle (if_neg hhold) ?_
  dsimp only
  rw [hreq, if_neg (by omega)]

end

section
variable (hhold : s.cast.hold = 1) {req : List Byte} (hreq : s.mboxReq = req)
include hhold hreq

theorem execRecoveryWrite_writes (hslot : fieldB req 0 8 < 2) (hmin : 16 ≤ req.length) (hmax : req.length ≤ 16384)
    (hopen : slotWritable (s.slotOf (fieldB req 0 8)) = true) : execRecoveryWrite s = .next
      ((s.slotWrite (fieldB req 0 8) (fieldB req 8 8) (req.drop 16)).mboxEnds 0x10 0 []) := by
  refine mboxOp_runs haux hidle (if_pos hhold) ?_
  dsimp only
  rw [hreq, if_neg (by omega), if_pos hopen]

theorem execRecoveryCheck_judges {info : Bool} (hslot : fieldB req 0 4 < 2)
    (hwriting : (s.slotOf (fieldB req 0 4)).state = slotWriting) : execRecoveryCheck info s = .next
      ((s.judgeSlot (fieldB req 0 4) info).mboxEnds 0x11 0
        [((s.judgeSlot (fieldB req 0 4) info).slotOf (fieldB req 0 4)).reason.setWidth 8]) := by
  refine mboxOp_runs haux hidle (if_pos hhold) ?_
  dsimp only
  rw [hreq, if_neg (not_or_intro (Nat.not_le.mpr hslot) (not_not_intro hwriting))]

end

theorem execMboxOwnerEnroll_answers {req : List Byte} (hreq : s.mboxReq = req) (hlen : 33 ≤ req.length) :
    execMboxOwnerEnroll s = .next (if s.flash.owned then (s.authFail 5).mboxEnds 0x12 3 []
      else (s.enroll (enrollSplit req).1 (enrollSplit req).2).mboxEnds 0x12 0 []) := by
  cases howned : s.flash.owned
  · refine mboxOp_runs haux hidle (ite_self _) ?_
    rw [hreq, if_neg (Nat.not_lt.mpr hlen), howned]
    rfl
  · refine mboxOp_runs haux hidle (ite_self _) ?_
    rw [hreq, if_neg (Nat.not_lt.mpr hlen), howned]
    rfl

end

/-- Settles O40. -/
theorem mailboxOperations : Obligations.MailboxOperations := by
  intro s haux req ends
  refine ⟨fun hbusy => (mboxOp_busy haux hbusy : execGetStatus s = _), fun hidle => ⟨?status, ?rom, ?signed, ?unsigned, ?log,
    ?certificate, ?write, ?check, ?enrolled, ?owned⟩⟩
  case status => exact (mboxOp_runs haux hidle (ite_self _) rfl : execGetStatus s = _)
  case rom => exact fun hhold => (mboxOp_unserved haux hidle (if_pos hhold) : execGetLog s = _)
  case signed =>
    exact fun hhold hlen i u hsign =>
      (execMboxGetMeasurements_signed haux hidle hhold rfl hlen hsign rfl : execMboxGetMeasurements s = _)
  case unsigned =>
    exact fun hhold hlen hsign =>
      (execMboxGetMeasurements_unsigned haux hidle hhold rfl hlen hsign : execMboxGetMeasurements s = _)
  case log =>
    exact fun hhold hpos hmax hlen => (execGetLog_answers haux hidle hhold rfl hpos hmax hlen : execGetLog s = _)
  case certificate => exact fun hhold => (mboxOp_runs haux hidle (if_neg hhold) rfl : execGetCert s = _)
  case write =>
    exact fun hhold hslot hmin hmax hopen =>
      (execRecoveryWrite_writes haux hidle hhold rfl hslot hmin hmax hopen : execRecoveryWrite s = _)
  case check =>
    exact fun info hhold hslot hwriting =>
      (execRecoveryCheck_judges haux hidle hhold rfl hslot hwriting : execRecoveryCheck info s = _)
  case enrolled =>
    exact fun hlen hfree =>
      ((execMboxOwnerEnroll_answers haux hidle rfl hlen).trans (by rw [hfree]; rfl) : execMboxOwnerEnroll s = _)
  case owned =>
    exact fun hlen howned =>
      ((execMboxOwnerEnroll_answers haux hidle rfl hlen).trans (by rw [howned]; rfl) : execMboxOwnerEnroll s = _)

/-! ### I3C and MCTP -/

section
variable {s : State}

theorem clampLen_short {n : BitVec 16} (h : n.toNat ≤ 256) : clampLen n = n := if_neg (Nat.not_lt.mpr h)

theorem clampLen_long {n : BitVec 16} (h : 256 < n.toNat) : clampLen n = 256 := if_pos h

theorem i3cReply_addressed {l : List Byte} (haux : s.pwr.aux = true) (haddr : s.mgmt.dynAddr.isSome = true) :
    i3cReply s l = .next (s.emit (.i3c l)) := doIf_true (by rw [haux, haddr]; rfl)

theorem execGetstatus_addressed (haux : s.pwr.aux = true) (haddr : s.mgmt.dynAddr.isSome = true) :
    ∃ a b, execGetstatus s = .next (({ s with free := s.free + 1 } : State).emit (.i3c [a, b])) := by
  have hserved : (s.pwr.aux && s.mgmt.dynAddr.isSome) = true := by rw [haux, haddr]; rfl
  refine ⟨Config.freeByte s.free 0, Config.freeByte s.free 1, ?_⟩
  rw [execGetstatus, hserved]

theorem mctpReply_interrupts {c : Byte} {l : List Byte} (hibi : s.mgmt.ibiEn = true)
    (haddr : s.mgmt.dynAddr.isSome = true) : mctpReply s c l = (s.emit (.mctp c l)).emit (.ibi 1) :=
  if_pos (show (s.mgmt.ibiEn && s.mgmt.dynAddr.isSome) = true by rw [hibi, haddr]; rfl)

theorem execSetEndpointId_sets {e : Byte} (haux : s.pwr.aux = true) (hzero : e ≠ 0) (hbroad : e ≠ 0xFF) :
    execSetEndpointId e s = .next (mctpReply { s with mgmt := { s.mgmt with eid := e } } 1 [0, 0, e, 0]) := by
  rw [execSetEndpointId, doIf_true haux, if_neg (not_or_intro hzero hbroad)]

theorem execGetMctpVersionSupport_answers {t : Byte} (haux : s.pwr.aux = true) : execGetMctpVersionSupport t s = .next
    (if s.mctpTypes.contains t then mctpReply s 4 [0, 1, 0xF1, 0xF3, 0xFF, 0] else mctpReply s 4 [0x80]) := doIf_true haux

theorem execGetMessageTypeSupport_answers {l : List Byte} (haux : s.pwr.aux = true) (hl : s.mctpTypes = l) :
    execGetMessageTypeSupport s = .next (mctpReply s 5 (0 :: BitVec.ofNat 8 l.length :: l)) := by
  rw [execGetMessageTypeSupport, doIf_true haux, hl]

/-! ### SPDM -/

theorem State.signedAnswer_signed {via : Nat} {code : Byte} {l : List Byte} {i : Word} {u : State}
    (hsign : s.sign = some (i, u)) : s.signedAnswer via code l = u.spdmAnswer via code l (some i) := by
  rw [State.signedAnswer, hsign]

theorem State.signedAnswer_refused {via : Nat} {code : Byte} {l : List Byte} (hsign : s.sign = none) :
    s.signedAnswer via code l = s.signRefused.spdmAnswer via 0x7F [if s.signBarred then 4 else 3] none := by
  rw [State.signedAnswer, hsign]

theorem State.sign_refused (h : s.signBarred = true ∨ 16 ≤ s.signsNow.length) : s.sign = none :=
  if_pos (by rcases h with h | h <;> simp [h])

/-- A signature takes the next index. -/
theorem State.sign_next (hfree : s.signBarred = false) (hrate : s.signsNow.length < 16)
    (hlast : (s.sec.signNext + 1).toNat ≠ 2 ^ 40) : ∃ u,
      s.sign = some (s.sec.signNext, u) ∧ u.sec.signNext = s.sec.signNext + 1 ∧ u.sec.signTimes = s.tb :: s.signsNow := by
  have hmay : ¬ (s.signBarred || decide (16 ≤ s.signsNow.length)) = true := by
    rw [hfree, decide_eq_false (Nat.not_le.mpr hrate)]
    decide
  have hstick : (s.sec.signNext + 1).toNat ≠ signStick := hlast
  rw [State.sign, if_neg hmay]
  dsimp only
  rw [if_neg hstick]
  exact ⟨_, rfl, rfl, rfl⟩

section
variable {via : Nat} (hopen : s.spdmOpen via = true)
include hopen

theorem execPskExchange_answers {ok : Bool} : execPskExchange via ok s = .next
    (if ok && s.flash.owned then s.spdmAnswer via 0x66 [] none else s.spdmAnswer via 0x7F [1] none) := doIf_true hopen

theorem execPskFinish_owned (howned : s.flash.owned = true) : execPskFinish via true s = .next
    (({ s with sec := { s.sec with session := true } } : State).spdmAnswer via 0x67 [] none) := by
  rw [execPskFinish, doIf_true hopen, howned]
  rfl

section
variable (hsession : s.sec.session = true)
include hsession

theorem execSpdmHeartbeat_session : execSpdmHeartbeat via s = .next (s.spdmAnswer via 0x68 [] none) := by
  rw [execSpdmHeartbeat, doIf_true hopen, hsession]
  rfl

theorem execEndSession_session : execEndSession via s = .next
    (({ s with sec := { s.sec with session := false } } : State).spdmAnswer via 0x6C [] none) := by
  rw [execEndSession, doIf_true hopen, hsession]
  rfl

theorem execVendorDefinedRequest_session {selective : Bool} {sec : Sec}
    (hsec : (if selective then { s.sec with ideSel := true } else { s.sec with ideLink := true }) = sec) :
    execVendorDefinedRequest via selective true s =
      .next (({ s with sec := sec } : State).spdmAnswer via 0x7E [] none) := by
  rw [execVendorDefinedRequest, doIf_true hopen, hsession]
  dsimp only
  rw [hsec]
  rfl

end
end
end

/-- Settles O41. -/
theorem managementAndSpdm : Obligations.ManagementAndSpdm := by
  refine ⟨fun s haux => ?bus, fun via s hopen => ?spdm⟩
  case bus =>
    refine ⟨?entdaa, ?rstdaa, ?enec, ?disec, ?addressed, ?short, ?long, ?rstact, ?setEid, ?getEid, ?uuid, ?carried, ?unknown,
      ?types, ?typesRom, ?interrupt⟩
    case entdaa => exact fun a hfree => (doIf_true (by rw [haux, hfree]; rfl) : execEntdaa a s = _)
    case rstdaa => exact (doIf_true haux : execRstdaa s = _)
    case enec => exact fun m => (doIf_true haux : execEnec m s = _)
    case disec => exact fun m => (doIf_true haux : execDisec m s = _)
    case addressed =>
      intro haddr
      exact ⟨(i3cReply_addressed haux haddr : execGetpid s = _), (i3cReply_addressed haux haddr : execGetbcr s = _),
        (i3cReply_addressed haux haddr : execGetdcr s = _), execGetstatus_addressed haux haddr,
        (i3cReply_addressed haux haddr : execGetmwl s = _), (i3cReply_addressed haux haddr : execGetmrl s = _)⟩
    case short =>
      intro n hn
      exact ⟨((doIf_true haux).trans (by rw [clampLen_short hn]) : execSetmwl n s = _),
        ((doIf_true haux).trans (by rw [clampLen_short hn]) : execSetmrl n s = _)⟩
    case long =>
      intro n hn
      exact ⟨((doIf_true haux).trans (by rw [clampLen_long hn]) : execSetmwl n s = _),
        ((doIf_true haux).trans (by rw [clampLen_long hn]) : execSetmrl n s = _)⟩
    case rstact => exact fun a => (doIf_true haux : execRstact a s = _)
    case setEid => exact fun e hzero hbroad => (execSetEndpointId_sets haux hzero hbroad : execSetEndpointId e s = _)
    case getEid => exact (doIf_true haux : execGetEndpointId s = _)
    case uuid => exact (doIf_true haux : execGetEndpointUuid s = _)
    case carried =>
      exact fun t ht =>
        ((execGetMctpVersionSupport_answers haux).trans (by rw [if_pos ht]) : execGetMctpVersionSupport t s = _)
    case unknown =>
      exact fun t ht =>
        ((execGetMctpVersionSupport_answers haux).trans (by rw [ht]; rfl) : execGetMctpVersionSupport t s = _)
    case types => exact fun hhold => (execGetMessageTypeSupport_answers haux (if_neg hhold) : execGetMessageTypeSupport s = _)
    case typesRom =>
      exact fun hhold => (execGetMessageTypeSupport_answers haux (if_pos hhold) : execGetMessageTypeSupport s = _)
    case interrupt => exact fun c l hibi haddr => mctpReply_interrupts hibi haddr
  case spdm =>
    refine ⟨(doIf_true hopen : execSpdmGetVersion via s = _), (doIf_true hopen : execGetCapabilities via s = _),
      (doIf_true hopen : execNegotiateAlgorithms via s = _), (doIf_true hopen : execGetDigests via s = _),
      fun off len => (doIf_true hopen : execGetCertificate via 0 off len s = _), ?signed, ?refused, State.sign_next,
      State.sign_refused, rfl, ?owned, ?unowned, ?session⟩
    case signed =>
      intro nonce mask i u hsign
      exact ⟨((doIf_true hopen).trans (by rw [State.signedAnswer_signed hsign]) : execChallenge via nonce s = _),
        ((doIf_true hopen).trans (by rw [State.signedAnswer_signed hsign]) : execGetMeasurements via nonce mask s = _)⟩
    case refused =>
      exact fun nonce hsign =>
        ⟨_, ((doIf_true hopen).trans (by rw [State.signedAnswer_refused hsign]) : execChallenge via nonce s = _)⟩
    case owned =>
      intro howned
      exact ⟨((execPskExchange_answers hopen).trans (by rw [howned]; rfl) : execPskExchange via true s = _),
        (execPskFinish_owned hopen howned : execPskFinish via true s = _)⟩
    case unowned =>
      intro hfree ok
      exact ((execPskExchange_answers hopen).trans (by rw [hfree, Bool.and_false]) : execPskExchange via ok s = _)
    case session =>
      intro hsession
      exact ⟨(execSpdmHeartbeat_session hopen hsession : execSpdmHeartbeat via s = _),
        (execEndSession_session hopen hsession : execEndSession via s = _),
        (execVendorDefinedRequest_session hopen hsession rfl : execVendorDefinedRequest via true true s = _),
        (execVendorDefinedRequest_session hopen hsession rfl : execVendorDefinedRequest via false true s = _)⟩

end Sys2Proof.Machine
end

section
/-! Images, their trial and control messages (13, R332 to R358). -/

namespace Sys2Proof.Machine

open Sys2Proof

/-! ### A rejection while the forced reset of an earlier one drains -/

/-- REJECT_IMAGE with its bit for at once. -/
def rejectNow : Block := [0x28, 0, 0, 0, 0, 0, 0, 0, 1]

/-- Slot 0 is on trial, its forced reset is under way, and ring 0 has fetched a second REJECT_IMAGE. -/
def resettingTrial : State := {
  pwr := { aux := true }
  rings := [(0, { fetched := [{ block := rejectNow }] })]
  flash := { slots := [(0, { state := slotTrial })] }
  sec := { resetting := true } }

/-- A drain begins. -/
def drains (r : Res) : Bool :=
  match r with
  | .next u => u.pwr.drain.isSome
  | _ => false

theorem drains_rejectImage : drains (exec (.rejectImage 0) resettingTrial) = false := by decide

theorem startsEarly_rejectImage : StartsEarly resettingTrial 0 0x28 rejectNow :=
  ⟨rfl, by decide, { block := rejectNow }, by decide, rfl⟩

/-- Refutes O42: on `resettingTrial` the second REJECT_IMAGE starts no reset, since one is under way, where the statement
has it start one whatever is under way. -/
theorem not_imagesAndControl : ¬ Obligations.ImagesAndControl := by
  intro himages
  obtain ⟨-, -, -, hreject, -⟩ := himages 0 rejectNow resettingTrial
  obtain ⟨-, hnow, -⟩ := hreject startsEarly_rejectImage
  have hdrains := congrArg drains (hnow (by decide) (by decide))
  rw [drains_rejectImage] at hdrains
  revert hdrains
  decide

end Sys2Proof.Machine
end

section
/-! Checks in order, the owner, and the distribution of an image (13, R333, R342 to R345, R354, R356). -/

namespace Sys2Proof.Machine

open Sys2Proof

/-! ### The checks of an image and of a control message -/

section
variable {i : ImageInfo} {s : State}

theorem imageReason_header (hheader : i.headerOk = false) : imageReason s i = 1 := by
  rw [imageReason, hheader]
  exact if_pos rfl

theorem imageReason_signature (hheader : i.headerOk = true) (hsign : i.signatureOk = false) : imageReason s i = 2 := by
  rw [imageReason, hheader, hsign]
  exact (if_neg Bool.false_ne_true).trans (if_pos rfl)

theorem imageReason_version (hheader : i.headerOk = true) (hsign : i.signatureOk = true) (htype : i.hwType = 0x00484D01)
    (hunit : i.unitId = 0 ∨ i.unitId = s.sec.unitId) :
    imageReason s i = if i.securityVersion.toNat < s.flash.svn.toNat then 5 else 0 := by
  have hunit : ¬ (i.unitId ≠ 0 ∧ i.unitId ≠ s.sec.unitId) := by rwa [not_and_or, not_ne_iff, not_ne_iff]
  rw [imageReason, if_neg (by simp [hheader]), if_neg (by simp [hsign]), if_neg (not_not_intro htype), if_neg hunit]

end

section
variable {h : CtlHdr} {s : State}

theorem ctlFail_length (hfail : ctlLenOk h = false ∨ h.version ≠ 1) : s.ctlFail h = some 0 :=
  if_pos (by simpa using hfail)

variable (hlen : ctlLenOk h = true) (hversion : h.version = 1)
include hlen hversion

theorem ctlFail_epoch (hepoch : s.epochOk h.epoch = false) : s.ctlFail h = some 1 := by
  rw [State.ctlFail, if_neg (by simp [hlen, hversion]), if_pos (by simp [hepoch])]

variable (hepoch : s.epochOk h.epoch = true)
include hepoch

theorem ctlFail_tag (htag : h.tag ≠ s.ctlTag h) : s.ctlFail h = some 2 := by
  rw [State.ctlFail, if_neg (by simp [hlen, hversion]), if_neg (by simp [hepoch]), if_pos (by simp [State.ctlSigned, htag])]

variable (htag : h.tag = s.ctlTag h)
include htag

theorem ctlFail_signed : s.ctlFail h = if !s.seqOk h then some 3 else none := by
  rw [State.ctlFail, if_neg (by simp [hlen, hversion]), if_neg (by simp [hepoch]), if_neg (by simp [State.ctlSigned, ← htag])]

end

/-- A control message that passes every check has its effect. -/
theorem ctlMsg_passes {h : CtlHdr} {keep : Bool} {s : State} {f : State → State} (haux : s.pwr.aux = true)
    (howned : s.flash.owned = true) (hhold : s.cast.hold ≠ 1) (hcheck : s.ctlFail h = none) :
    ctlMsg s h keep f = .next (f (s.seqAccept h keep)) := by
  rw [ctlMsg, if_neg (by simpa [haux, howned] using hhold), hcheck]

/-! ### The owner -/

section
variable {r : Nat} {blk : Block} {key root : List Byte} {s : State}

theorem execOwnerEnroll_owned (hstarts : StartsEarly s r 0x29 blk) (howned : s.flash.owned = true) (d : Bool) :
    execOwnerEnroll r d key root s = .next (((started s r).authFail 5).complete r (blkTag blk) stAuth) := by
  rw [execOwnerEnroll, hostCmd_startsEarly hstarts]
  exact congrArg _ (if_pos howned)

theorem execOwnerEnroll_unowned (hstarts : StartsEarly s r 0x29 blk) (hfree : s.flash.owned = false) :
    execOwnerEnroll r true key root s = .next (((started s r).enroll key root).complete r (blkTag blk) stOk) := by
  rw [execOwnerEnroll, hostCmd_startsEarly hstarts]
  exact congrArg _ ((if_neg (hfree ▸ Bool.false_ne_true)).trans (if_neg Bool.false_ne_true))

theorem execOwnerRelease_checked (hstarts : StartsEarly s r 0x2A blk) (howned : s.flash.owned = true) (sigOk : Bool) :
    execOwnerRelease r true sigOk s = .next (if sigOk then (started s r).disown.complete r (blkTag blk) stOk
      else ((started s r).authFail 4).complete r (blkTag blk) stAuth) := by
  have howned : (started s r).flash.owned = true := howned
  rw [execOwnerRelease, hostCmd_startsEarly hstarts]
  rw [if_neg (by decide), howned, Bool.true_and]

end

/-! ### The distribution of an image -/

section
variable {s : State}

theorem execDistribute_begins {h : CtlHdr} {dg : BitVec 256} {total : BitVec 12} {slot : Nat} {src par : Coord}
    (haux : s.pwr.aux = true) (howned : s.flash.owned = true) (hhold : s.cast.hold ≠ 1) (hcheck : s.ctlFail h = none)
    (hslot : slot < 2) (hwritable : slotWritable (s.slotOf slot) = true) (hsome : total ≠ 0) (hmost : total.toNat ≤ 4092)
    {v : State} (hv : v = ((s.seqAccept h true).setSlot slot
      { s.slotOf slot with state := slotWriting, reason := 0, bytes := [], shipped := false }).setDist
      (some { digest := dg, total := total, slot := slot, source := src, parent := par, lastChunk := s.tb })) :
    execDistribute h dg total slot src par s = .next { v with sec := { v.sec with
      bcImage := dg.setWidth 64
      bcTotal := total
      bcHeld := 0
      bcRepaired := 0
      bcBad := 0
      bcState := 1 } } := by
  have hwritable : slotWritable ((s.seqAccept h true).slotOf slot) = true := hwritable
  subst hv
  rw [execDistribute, ctlMsg_passes haux howned hhold hcheck]
  dsimp only
  rw [decide_eq_true hslot, hwritable, decide_eq_true hsome, decide_eq_true hmost]
  rfl

section
variable {d : Dist} {sender : Coord} {c : List Byte} {relay : List Coord} {sigOk : Bool} (haux : s.pwr.aux = true)
  (hdist : s.flash.dist = some d) (hhold : s.cast.hold ≠ 1)
include haux hdist hhold

theorem execChunk_bad (hbad : chunkOk d c = false) : execChunk sender c relay sigOk s = .next s.chunkBad := by
  rw [execChunk, hdist]
  dsimp only
  rw [if_neg (by simpa [haux] using hhold), if_pos (by simp [hbad])]

/-- The distribution after a chunk. -/
def Dist.took (d : Dist) (now : Word) (c : List Byte) : Dist := { d with
  held := fieldB c 12 2 :: d.held
  lastChunk := now
  lastLen := if fieldB c 12 2 + 1 = d.total.toNat then c.length - 32 else d.lastLen }

/-- The state after a chunk is written and relayed. -/
def State.relayed (s : State) (d : Dist) (c : List Byte) (relay : List Coord) : State :=
  relay.foldl (fun (w : State) m => w.emit (.relay m c))
    ((s.slotWrite d.slot (16384 * fieldB c 12 2) (c.drop 32)).setDist (some (d.took s.tb c)))

/-- The state after a chunk is counted. -/
def State.chunked (s v : State) (d : Dist) (sender : Coord) : State := { v with sec := { v.sec with
  bcHeld := BitVec.ofNat 12 (d.held.length + 1)
  bcRepaired := if sender ≠ d.parent ∨ s.sec.bcState = 2 then v.sec.bcRepaired + 1 else v.sec.bcRepaired } }

theorem execChunk_good (hgood : chunkOk d c = true) : execChunk sender c relay sigOk s = .next
    (if d.held.length + 1 < d.total.toNat then s.chunked (s.relayed d c relay) d sender
     else (s.chunked (s.relayed d c relay) d sender).endDist (d.took s.tb c) sigOk) := by
  rw [execChunk, hdist]
  dsimp only
  rw [if_neg (by simpa [haux] using hhold), if_neg (by simp [hgood])]
  simp only [decide_eq_true_eq, List.length_cons]
  rfl

end

theorem chunkOk_false {d : Dist} {c : List Byte} (h : d.held.contains (fieldB c 12 2) = true ∨ d.total.toNat ≤ fieldB c 12 2 ∨
    fieldB c 4 8 ≠ d.digest.toNat % 2 ^ 64 ∨ fieldB c 14 2 ≠ d.total.toNat ∨
    BitVec.ofNat 32 (fieldB c 28 4) ≠ crc32c (c.take 28 ++ c.drop 32)) : chunkOk d c = false := by
  rw [Bool.eq_false_iff]
  intro hok
  rw [chunkOk, Bool.and_eq_true, decide_eq_true_eq] at hok
  obtain ⟨⟨-, hdigest, htotal, hin, -, -, -, -, -, -, hcrc⟩, hnew⟩ := hok
  rcases h with h | h | h | h | h
  · rw [h] at hnew; exact Bool.false_ne_true hnew
  · exact absurd hin (Nat.not_lt.2 h)
  · exact h hdigest
  · exact h htotal
  · exact h hcrc

section
variable {d : Dist} (haux : s.pwr.aux = true) (hdist : s.flash.dist = some d)
include haux hdist

theorem execChunkRepair_asks (hstate : s.sec.bcState = 1 ∨ s.sec.bcState = 5) (hmissing : d.held.length < d.total.toNat)
    (hover : d.held.contains (d.total.toNat - 1) = true ∨ s.passed d.lastChunk 3000000000 = true) :
    execChunkRepair s = .next (s.askHolder d 0) := by
  rw [execChunkRepair, hdist]
  refine doIf_true ?_
  rw [haux, decide_eq_true hstate, decide_eq_true hmissing, Bool.or_eq_true_iff.2 hover]
  rfl

theorem execRepairHolderTimeout_asks (hstate : s.sec.bcState = 2) (hasked : s.passed d.askedAt 1000000000 = true)
    (hlast : s.passed d.lastChunk 1000000000 = true) :
    execRepairHolderTimeout s = .next (s.askHolder d ((d.holder + 1) % (s.holders d).length)) := by
  rw [execRepairHolderTimeout, hdist]
  refine doIf_true ?_
  rw [haux, decide_eq_true hstate, hasked, hlast]
  rfl

end

@[simp] theorem State.sendCtl_sec (type : Byte) (body : List Nat) : (s.sendCtl type body).sec = s.sec := by
  rw [State.sendCtl]
  split <;> rfl

@[simp] theorem State.sendCtl_dist (type : Byte) (body : List Nat) : (s.sendCtl type body).flash.dist = s.flash.dist := by
  rw [State.sendCtl]
  split <;> rfl

theorem State.askHolder_asks (d : Dist) (k : Nat) : (s.askHolder d k).sec.bcState = 2 ∧
    (s.askHolder d k).flash.dist = some { d with holder := k, askedAt := s.tb } :=
  ⟨by rw [State.askHolder, State.sendCtl_sec], by rw [State.askHolder, State.sendCtl_dist]; rfl⟩

theorem State.holders_head (d : Dist) (hpaired : s.twin.paired = true) : (s.holders d).head? = some s.twin.coord := by
  rw [State.holders, hpaired]
  rfl

theorem State.holders_last (d : Dist) : (s.holders d).getLast? = some d.source := by
  rw [State.holders, List.getLast?_append]
  rfl

theorem State.endDist_anew {d : Dist} (sigOk : Bool) (hdiff : s.distDigest d ≠ d.digest) :
    (s.endDist d sigOk).sec.bcState = 5 ∧ (s.endDist d sigOk).sec.bcHeld = 0 := by
  rw [State.endDist, if_pos hdiff]
  exact ⟨rfl, rfl⟩

theorem State.endDist_judged {d : Dist} (sigOk : Bool) (hsame : s.distDigest d = d.digest) :
    (s.endDist d sigOk).flash.dist = none ∧ ((s.endDist d sigOk).sec.bcState = 3 ↔
      ((s.judgeSlot d.slot sigOk).slotOf d.slot).state = slotStaged) := by
  have hslot : (((s.judgeSlot d.slot sigOk).setDist none).slotOf d.slot).state =
    ((s.judgeSlot d.slot sigOk).slotOf d.slot).state := rfl
  rw [State.endDist, if_neg (not_not_intro hsame)]
  dsimp only
  rw [hslot]
  by_cases hstaged : ((s.judgeSlot d.slot sigOk).slotOf d.slot).state = slotStaged
  · rw [decide_eq_true hstaged, if_pos rfl, if_pos rfl, State.sendCtl_dist, State.sendCtl_sec]
    exact ⟨rfl, iff_of_true rfl hstaged⟩
  · rw [decide_eq_false hstaged, if_neg Bool.false_ne_true, if_neg Bool.false_ne_true]
    exact ⟨rfl, iff_of_false (show (4 : BitVec 3) ≠ 3 by decide) hstaged⟩

end

/-- Settles O43: each check answers where the ones before it pass, and each message of a distribution has its equation. -/
theorem ownerAndDistribution : Obligations.OwnerAndDistribution := by
  refine ⟨fun i s => ⟨imageReason_header, imageReason_signature, imageReason_version⟩,
    fun h s => ⟨?length, ctlFail_length, ctlFail_epoch, ctlFail_tag, ?seq, ?passes⟩,
    fun r blk key root s => ⟨?enroll, ?owned, ?release⟩, fun s haux => ⟨?distribute, ?chunk, ?repair⟩,
    fun d sigOk s => ⟨State.endDist_anew sigOk, State.endDist_judged sigOk⟩⟩
  case length => exact decide_eq_true_iff
  case seq =>
    intro hlen hversion hepoch htag hseq
    rw [ctlFail_signed hlen hversion hepoch htag, hseq]
    rfl
  case passes =>
    intro hlen hversion hepoch htag hseq
    rw [ctlFail_signed hlen hversion hepoch htag, hseq]
    rfl
  case enroll => exact fun hstarts hfree => (execOwnerEnroll_unowned hstarts hfree : execOwnerEnroll r true key root s = _)
  case owned =>
    exact fun hstarts howned d => (execOwnerEnroll_owned hstarts howned d : execOwnerEnroll r d key root s = _)
  case release =>
    exact fun hstarts howned => ⟨(execOwnerRelease_checked hstarts howned true : execOwnerRelease r true true s = _),
      (execOwnerRelease_checked hstarts howned false : execOwnerRelease r true false s = _)⟩
  case distribute =>
    intro h dg total slot src par howned hhold hcheck hslot hwritable hsome hmost
    exact ⟨_, rfl, (execDistribute_begins haux howned hhold hcheck hslot hwritable hsome hmost rfl :
      execDistribute h dg total slot src par s = _)⟩
  case chunk =>
    intro d sender c relay sigOk hdist hhold
    refine ⟨fun hbad => (execChunk_bad haux hdist hhold (chunkOk_false hbad) : execChunk sender c relay sigOk s = _),
      fun hgood hmore => ((execChunk_good haux hdist hhold hgood).trans (congrArg _ (if_pos hmore)) :
        execChunk sender c relay sigOk s = _),
      fun hgood hall => ((execChunk_good haux hdist hhold hgood).trans (congrArg _ (if_neg (Nat.not_lt.2 hall))) :
        execChunk sender c relay sigOk s = _)⟩
  case repair =>
    intro d hdist
    exact ⟨fun hstate hmissing hover => (execChunkRepair_asks haux hdist hstate hmissing hover : execChunkRepair s = _),
      fun hstate hasked hlast => (execRepairHolderTimeout_asks haux hdist hstate hasked hlast : execRepairHolderTimeout s = _),
      State.askHolder_asks d, State.holders_head d, State.holders_last d⟩

end Sys2Proof.Machine
end

section
/-! The black box and the lane tests (14, R374 to R380); pins, cooling, MOVE and register writes (15 and 16). -/

namespace Sys2Proof.Machine

open Sys2Proof

/-! ### The black box -/

section
variable {s : State}

theorem execRingWriteEnd_fills (haux : s.pwr.aux = true) (hfrozen : s.tally.bbFrozen = true)
    (hwriting : s.tally.bbWriting = true) (hhold : s.tally.hold = []) : execRingWriteEnd s = .next { s with
      flash := { s.flash with
        fatalArea := some { entries := s.tally.ring, cause := s.tally.bbCause, life := s.flash.life }
        fatalHeld := !s.tally.bbReleased }
      tally := { s.tally with bbFrozen := false, bbWriting := false, bbReleased := false } } := by
  rw [execRingWriteEnd, hhold, resume, ← hhold, doIf_true (by rw [haux, hfrozen, hwriting]; rfl), State.skips]

theorem execBbRelease_writing (haux : s.pwr.aux = true) (hwriting : s.tally.bbWriting = true) :
    execBbRelease s = .next { s with tally := { s.tally with bbReleased := true } } := by
  rw [execBbRelease, doIf_true haux, if_pos hwriting]

theorem execBbRelease_written (haux : s.pwr.aux = true) (hwritten : s.tally.bbWriting = false) :
    execBbRelease s = .next { s with flash := { s.flash with fatalHeld := false } } := by
  rw [execBbRelease, doIf_true haux, if_neg (hwritten ▸ Bool.false_ne_true)]

theorem execBbCursorWrite_ring (haux : s.pwr.aux = true) {c : BitVec 12} {x : Entry}
    (hx : s.tally.ring.reverse[c.toNat]? = some x) : execBbCursorWrite c 0 s =
      .next { s with tally := { s.tally with bbCursor := c, bbSource := 0, bbWin := entryBytes x } } := by
  have hring : (s.bbEntries 0).reverse[c.toNat]? = some x := hx
  rw [execBbCursorWrite, doIf_true haux]
  dsimp only
  rw [hring]
  rfl

end

theorem Tally.enter_length {t : Tally} (x : Entry) (h : t.ring.length ≤ 4096) : (t.enter x).ring.length ≤ 4096 := by
  rw [Tally.enter]
  dsimp only
  split
  · rw [List.length_append, List.length_singleton]
    omega
  · rw [List.length_append, List.length_singleton, List.length_drop]
    omega

theorem Tally.enter_last (t : Tally) (x : Entry) : (t.enter x).ring.getLast? = some x := List.getLast?_concat

/-! ### The lane tests -/

section
variable {fd lane : Nat} {s : State}

section
variable (hon : fd = 2 ∨ s.pwr.transit = true)
include hon

theorem execTestStart_answers {t : LaneTest} (ht : (if s.testable fd lane then
      { s.test fd lane with bits := 0, errs := 0, efr := 0, efrMax := 0, started := true, lock := false }
    else { s.test fd lane with refused := true }) = t) : execTestStart fd lane s = .next (s.setTest fd lane t) := by
  rw [execTestStart, doIf_true (by simpa using hon), ht]

end

theorem execCheckerLock_locks (hchk : (s.test fd lane).chk ≠ 0) (hlock : (s.test fd lane).lock = false)
    (htest : s.testable fd lane = true) :
    execCheckerLock fd lane s = .next (s.setTest fd lane { s.test fd lane with lock := true, efr := 0 }) := by
  rw [execCheckerLock]
  exact doIf_true (by rw [decide_eq_true hchk, hlock, htest]; rfl)

/-- A lane test at loss of lock, with what its checker counted. -/
def LaneTest.unlocked (t : LaneTest) (bits errs run unc : Nat) : LaneTest := { t with
  lock := false, lockLost := stickAdd t.lockLost 1, bits := stickAdd t.bits bits, errs := stickAdd t.errs errs, efr := 0,
  efrMax := if t.efrMax.toNat < run then stickAdd 0 run else t.efrMax,
  uncorr := if t.fec then stickAdd t.uncorr unc else t.uncorr }

theorem execCheckerLockLost_counts {bits errs run unc : Nat} (hlock : (s.test fd lane).lock = true) (hmany : 32 < errs)
    (hmost : errs ≤ bits) : ∃ base, execCheckerLockLost fd lane bits errs run unc s = .next
      (((s.setTest fd lane ((s.test fd lane).unlocked bits errs run unc)).stuck (base + 0x10) (s.test fd lane).bits
        (stickAdd (s.test fd lane).bits bits)).stuck (base + 0x18) (s.test fd lane).errs (stickAdd (s.test fd lane).errs errs)) :=
  ⟨_, doIf_true (by rw [hlock, decide_eq_true ⟨hmany, hmost⟩]; rfl)⟩

end

/-- Settles O46: each command of the black box and of the lane tests has its equation. -/
theorem blackBoxAndLaneTests : Obligations.BlackBoxAndLaneTests := by
  refine ⟨fun s haux => ⟨?ringEnd, ?writing, ?written, ?cursor⟩,
    fun t x => ⟨Tally.enter_length x, t.enter_last x, ?grows⟩, fun fd lane s hon => ⟨?starts, ?refused, ?locks, ?lost⟩⟩
  case ringEnd =>
    exact fun hfrozen hwriting hhold => (execRingWriteEnd_fills haux hfrozen hwriting hhold : execRingWriteEnd s = _)
  case writing => exact fun hwriting => (execBbRelease_writing haux hwriting : execBbRelease s = _)
  case written => exact fun hwritten => (execBbRelease_written haux hwritten : execBbRelease s = _)
  case cursor => exact fun c x hx => (execBbCursorWrite_ring haux hx : execBbCursorWrite c 0 s = _)
  case grows => exact fun hroom => congrArg (· ++ [x]) (if_pos hroom)
  case starts => exact fun htest => (execTestStart_answers hon (if_pos htest) : execTestStart fd lane s = _)
  case refused =>
    exact fun htest => (execTestStart_answers hon (if_neg (htest ▸ Bool.false_ne_true)) : execTestStart fd lane s = _)
  case locks =>
    exact fun hchk hlock htest => (execCheckerLock_locks hchk hlock htest : execCheckerLock fd lane s = _)
  case lost =>
    intro bits errs run unc hlock hmany hmost
    exact ⟨(s.test fd lane).unlocked bits errs run unc, rfl, rfl, rfl, rfl, rfl, execCheckerLockLost_counts hlock hmany hmost⟩

/-! ### Pins and cooling -/

section
variable {s : State}

theorem execServiceRequest_asks (haux : s.pwr.aux = true) (hserving : s.serving = false) : execServiceRequest s = .next
    ((({ s with gate := { s.gate with sig := { s.gate.sig with
      attnN := false, attnReq := true, attnTaken := true } } } : State).raise .serviceRequest 1).serviceAct) := by
  rw [execServiceRequest]
  exact doIf_true (by rw [haux, hserving]; rfl)

theorem execServiceRequest_serving (hserving : s.serving = true) : execServiceRequest s = .next s := by
  rw [execServiceRequest]
  exact doIf_false (by rw [hserving]; exact Bool.and_false _)

theorem State.lasted_of {o : Option Word} {n : Nat} (h : ∃ t, o = some t ∧ s.passed t n = true) : s.lasted o n = true := by
  obtain ⟨t, rfl, hpassed⟩ := h
  exact hpassed

theorem execCoolantSample_taken (haux : s.pwr.aux = true) {a b c : BitVec 16} {low hot : Bool}
    (hdue : s.gate.coolAt = none ∨ ∃ t, s.gate.coolAt = some t ∧ s.passed t 10000000 = true)
    (hlow : decide (c.toNat < 500) = low) (hhot : decide (4500 < a.toInt) = hot) :
    execCoolantSample a b c s = .next { s with gate := { s.gate with
      inlet := a, outlet := b, flow := c, coolAt := some s.tb,
      flowLow := since s.tb s.gate.flowLow low, flowTrip := since s.tb s.gate.flowTrip (decide (c.toNat < 100)),
      inletHot := since s.tb s.gate.inletHot hot, coolGood := since s.tb s.gate.coolGood (!low && !hot) } } := by
  have hsample : (s.gate.coolAt.isNone || s.lasted s.gate.coolAt 10000000) = true := by
    rcases hdue with hnone | hlasted
    · rw [hnone]; rfl
    · rw [State.lasted_of hlasted, Bool.or_true]
  subst hlow hhot
  rw [execCoolantSample]
  exact doIf_true (by rw [haux, hsample]; rfl)

theorem since_decide (now : Word) (old : Option Word) (p : Prop) [Decidable p] :
    since now old (decide p) = if p then some (old.getD now) else none := by
  rw [since]
  simp only [decide_eq_true_eq]

theorem since_good (now : Word) (old : Option Word) (n : Nat) (a : Int) :
    since now old (!decide (n < 500) && !decide (4500 < a)) = if 500 ≤ n ∧ a ≤ 4500 then some (old.getD now) else none := by
  rw [since]
  simp only [Bool.and_eq_true, Bool.not_eq_true', decide_eq_false_iff_not, Nat.not_lt, Int.not_lt]

section
variable (haux : s.pwr.aux = true) (hhold : s.cast.hold ≠ 1)
include haux hhold

theorem execCoolingLow_limits (hbad : (∃ t, s.gate.flowLow = some t ∧ s.passed t 100000000 = true) ∨
    (∃ t, s.gate.inletHot = some t ∧ s.passed t 100000000 = true)) (hlimit : s.pwr.coolLimit = false) :
    execCoolingLow s = .next (({ s with
      pwr := { s.pwr with coolLimit := true }
      gate := { s.gate with coolingLow := true } } : State).raise .cooling 2) := by
  have hbad : s.coolingBad = true := Bool.or_eq_true_iff.2 (hbad.imp State.lasted_of State.lasted_of)
  rw [execCoolingLow]
  exact doIf_true (by rw [State.shepOn_of haux hhold, hbad, hlimit]; rfl)

theorem execCoolingRecovered_lifts (hgood : ∃ t, s.gate.coolGood = some t ∧ s.passed t 6000000000 = true)
    (hlimit : s.pwr.coolLimit = true) :
    execCoolingRecovered s = .next { s with pwr := { s.pwr with coolLimit := false } } := by
  rw [execCoolingRecovered]
  exact doIf_true (by rw [State.shepOn_of haux hhold, State.lasted_of hgood, hlimit]; rfl)

theorem execThermalTrip_trips (hmain : s.mainOn = true) (htrip : (∃ t, s.pwr.tripSince = some t ∧ s.passed t 1000000 = true) ∨
    (∃ t, s.gate.flowTrip = some t ∧ s.passed t 200000000 = true)) : execThermalTrip s = .next
      { s.loseMain with gate := { s.loseMain.gate with thermalTrip := true } } := by
  have hlasted : (s.lasted s.pwr.tripSince ticks10ms || s.lasted s.gate.flowTrip 200000000) = true :=
    Bool.or_eq_true_iff.2 (htrip.imp State.lasted_of State.lasted_of)
  rw [execThermalTrip]
  exact doIf_true (by rw [State.shepOn_of haux hhold, hmain, hlasted]; rfl)

end

/-! ### A source goes or comes -/

/-- A fold of operations that leave the Gate alone leaves it alone. -/
theorem gate_foldl {β : Type} {f : State → β → State} (hf : ∀ s b, (f s b).gate = s.gate) (l : List β) (s : State) :
    (l.foldl f s).gate = s.gate := by
  rw [← List.foldl_hom State.gate (g₂ := fun v _ => v) fun s b => (hf s b).symm, List.foldl_fixed]

theorem gate_of_unsent {s u : State} (h : u.unsent = s.unsent) : u.gate = s.gate := congrArg (fun v => v.gate) h

theorem State.renumber_gate (s : State) (fd k : Nat) : (s.renumber fd k).gate = s.gate := by
  rw [State.renumber]
  split <;> rfl

theorem State.resend_gate (s : State) (fd k : Nat) : (s.resend fd k).gate = s.gate := by
  rw [State.resend]
  split
  · rfl
  · refine gate_foldl (fun s f => ?_) _ _
    exact gate_of_unsent (s.sendFlit_unsent fd k ftData f.seq (some f.data))

theorem State.dropLane_gate (s : State) (fd k lane : Nat) : (s.dropLane fd k lane).gate = s.gate := by
  rw [State.dropLane]
  exact (State.resend_gate _ _ _).trans (State.renumber_gate _ _ _)

theorem State.freeMember_gate (s : State) (fd k i : Nat) : (s.freeMember fd k i).gate = s.gate := by
  rw [State.freeMember]
  split <;> rfl

theorem State.removeStrand_gate (s : State) (fd i : Nat) : (s.removeStrand fd i).gate = s.gate := by
  rw [State.removeStrand]
  cases s.linkOfStrand fd i with
  | none => rfl
  | some k =>
    show ((s.freeMember fd k i).dropLane fd k i).gate = s.gate
    rw [State.dropLane_gate, State.freeMember_gate]

theorem State.laneOut_gate (s : State) (q j : Nat) (why : BitVec 4) : (s.laneOut q j why).gate = s.gate := by
  rw [State.laneOut]
  split
  · exact State.removeStrand_gate _ _ _
  · rfl

theorem State.darkBus_gate (s : State) (q : Nat) : (s.darkBus q).gate = s.gate := by
  rw [State.darkBus]
  split
  · refine gate_foldl (fun s j => ?_) _ _
    split
    · rfl
    · exact s.laneOut_gate q j 2
  · rfl

theorem State.loseFeeds_gate (s : State) (x : Nat) (fibres : BitVec 4) : (s.loseFeeds x fibres).gate = s.gate := by
  rw [State.loseFeeds]
  refine gate_foldl (fun s v => ?_) _ _
  split
  · rw [State.darkBus_gate]
    split <;> rfl
  · rfl

theorem execEcsPresChange_gate {x : Nat} (p : Bool) (hx : x < 4) : ∃ u, execEcsPresChange x p s = .next u ∧
    u.gate.sig.ecsPresent = putBit s.gate.sig.ecsPresent x p := by
  refine ⟨_, doIf_true (decide_eq_true hx), ?_⟩
  split
  · dsimp only
    split
    · exact congrArg (fun g => g.sig.ecsPresent) (State.loseFeeds_gate _ _ _)
    · exact congrArg (fun g => g.sig.ecsPresent) (State.loseFeeds_gate _ _ _)
  · rfl

theorem putBit_bits : ∀ (v : BitVec 4) (x y : Fin 4) (p : Bool),
    (putBit v x p).getLsbD y = if y = x then p else v.getLsbD y := by decide

end

/-! ### MOVE -/

section
variable {r : Nat} {blk : Block} {s : State} {bytes : List Byte} (hstarts : Starts s r 0x09 blk)
include hstarts

theorem execMove_malformed (hlen : moveLen (fieldB blk 24 4) = false) (ok : Bool) :
    execMove r ok bytes s = .next ((started s r).complete r (blkTag blk) stMalformed) := by
  rw [execMove, hostCmd_starts hstarts]
  dsimp only
  rw [if_pos (by simp [hlen])]

variable (hlen : moveLen (fieldB blk 24 4) = true)
include hlen

theorem execMove_unreached (hreach : s.reach r (fieldB blk 16 8) (fieldB blk 24 4) = false) (ok : Bool) :
    execMove r ok bytes s = .next ((started s r).complete r (blkTag blk) stAddress) := by
  have hreach : (started s r).reach r (fieldB blk 16 8) (fieldB blk 24 4) = false := hreach
  rw [execMove, hostCmd_starts hstarts]
  dsimp only
  rw [if_neg (by simp [hlen]), if_pos (by simp [hreach])]

theorem execMove_reached (hreach : s.reach r (fieldB blk 16 8) (fieldB blk 24 4) = true) (ok : Bool) :
    execMove r ok bytes s = .next (if !ok then (started s r).complete r (blkTag blk) stDmaError
      else (started s r).moveBytes r (blkTag blk) (fieldB blk 8 8) (fieldB blk 16 8) (fieldB blk 24 4)
        ((nth blk 28 0).getLsbD 0) bytes) := by
  have hreach : (started s r).reach r (fieldB blk 16 8) (fieldB blk 24 4) = true := hreach
  rw [execMove, hostCmd_starts hstarts]
  dsimp only
  rw [if_neg (by simp [hlen]), if_neg (by simp [hreach])]

end

/-! ### Register writes -/

section
variable {s : State} {off width : Nat} {v : Word}

theorem execRegisterWrite_bar0 (haux : s.pwr.aux = true) (hin : off < 0x10000000) (hperst : s.gate.sig.perstN = true)
    (hide : s.ideBlocked = false) : execRegisterWrite off width v s = .next (s.writeAt off width false v) := by
  rw [execRegisterWrite, if_neg (by rw [controlImage]; omega)]
  exact doIf_true (by rw [haux, hperst, bar0Size, decide_eq_true hin, hide]; rfl)

theorem execRegisterWrite_image (hon : s.shepOn = true) (hlow : 0x200000000000 ≤ off) (hhigh : off < 0x200010000000) :
    execRegisterWrite off width v s = .next (s.writeAt (off - 0x200000000000) width true v) := by
  rw [execRegisterWrite, if_pos (by rw [controlImage, bar0Size]; omega)]
  exact doIf_true hon

theorem State.writeAt_width (hfour : width ≠ 4) (height : width ≠ 8) : s.writeAt off width false v =
    { s with gate := { s.gate with badAccess := stickAdd s.gate.badAccess 1 } } := by
  rw [State.writeAt, decide_eq_false (not_or_intro hfour height), Bool.not_false, Bool.true_or, if_pos rfl]
  rfl

/-- A write of the cause register covers its lower word. -/
def causeWrite (v : Word) : Wr := { m := 0xFFFFFFFF, v := v }

theorem blkAt_irqCause : blkAt 0x108 = some (.gate, 0, 0x108) := by decide

theorem regAt_irqCause : regAt .gate 0 0x108 = some (⟨0x108, false, [], 0xFFFFFFF0, .gateIrqCause⟩, [], false) := rfl

/-- The lower word of a value below 16 is the value, and touches no RSV bit of the register. -/
theorem causeWrite_field : ∀ k : Fin 16, ((BitVec.ofNat 64 k).setWidth 32).setWidth 64 <<< 0 = BitVec.ofNat 64 k ∧
    BitVec.ofNat 64 k &&& (0xFFFFFFFF : Word) <<< 0 &&& BitVec.ofNat 64 0xFFFFFFF0 = 0 := by decide

theorem clr_causeWrite (old : Bool) (v : Word) {lo : Nat} (hlo : lo < 4) :
    (causeWrite v).clr old lo = (old && !v.getLsbD lo) := by
  have hcovers : ∀ lo : Fin 4, (0xFFFFFFFF : Word).getLsbD lo = true := by decide
  rw [Wr.clr, causeWrite, hcovers ⟨lo, hlo⟩, Bool.true_and]

theorem State.writeGate_irqCause : s.writeGate .gateIrqCause 0 (causeWrite v) =
    { s with gate := { s.gate with
      irqMailbox := s.gate.irqMailbox && !v.getLsbD 0
      irqRing := s.gate.irqRing && !v.getLsbD 1
      irqHold := s.gate.irqHold && !v.getLsbD 2
      irqFatal := s.gate.irqFatal && !v.getLsbD 3 } } := by
  rw [State.writeGate, State.updGate, clr_causeWrite _ _ (by decide), clr_causeWrite _ _ (by decide),
    clr_causeWrite _ _ (by decide), clr_causeWrite _ _ (by decide)]

theorem State.writeWord_irqCause (hv : v.toNat < 16) : s.writeWord .gate 0 0x108 false (v.setWidth 32) =
    some (s.writeGate .gateIrqCause 0 (causeWrite v), false) := by
  obtain ⟨k, rfl⟩ : ∃ k : Fin 16, v = BitVec.ofNat 64 k :=
    ⟨⟨v.toNat, hv⟩, ((BitVec.ofNat_toNat 64 v).trans (BitVec.setWidth_eq v)).symm⟩
  obtain ⟨hlower, hrsv⟩ := causeWrite_field k
  rw [State.writeWord, regAt_irqCause, Option.map_some]
  dsimp only
  rw [if_neg Bool.false_ne_true, hlower, hrsv]
  rfl

theorem State.writeAt_irqCause (hv : v.toNat < 16) :
    s.writeAt 0x108 4 false v = s.writeGate .gateIrqCause 0 (causeWrite v) := by
  rw [State.writeAt, if_neg (by decide), blkAt_irqCause]
  dsimp only
  rw [show s.blkOn .gate 0 = true from rfl, if_pos rfl, State.writeBlk, State.writeWord_irqCause hv]
  rfl

end

/-- Settles O47: each command of the pins, of MOVE and of a register write has its equation. -/
theorem pinsMovesAndRegisters : Obligations.PinsMovesAndRegisters := by
  refine fun s haux => ⟨?asks, ?serving, ?coolant, ?low, ?recovered, ?trip, ?source, ?move, ?moved, ?bar0, ?image, ?width,
    fun v hv => (State.writeAt_irqCause hv).trans State.writeGate_irqCause⟩
  case asks => exact fun hserving => (execServiceRequest_asks haux hserving : execServiceRequest s = _)
  case serving => exact fun hserving => (execServiceRequest_serving hserving : execServiceRequest s = _)
  case coolant =>
    exact fun hdue a b c => ⟨_, (execCoolantSample_taken haux hdue rfl rfl : execCoolantSample a b c s = _), rfl, rfl, rfl, rfl,
      since_decide _ _ _, since_decide _ _ _, since_decide _ _ _, since_good _ _ _ _⟩
  case low => exact fun hhold hbad hlimit => (execCoolingLow_limits haux hhold hbad hlimit : execCoolingLow s = _)
  case recovered =>
    exact fun hhold hgood hlimit => (execCoolingRecovered_lifts haux hhold hgood hlimit : execCoolingRecovered s = _)
  case trip => exact fun hhold hmain htrip => (execThermalTrip_trips haux hhold hmain htrip : execThermalTrip s = _)
  case source =>
    intro x p hx
    obtain ⟨u, hu, hbits⟩ := execEcsPresChange_gate (s := s) p hx
    refine ⟨u, hu, ?_, fun y hy hne => ?_⟩
    · exact hbits ▸ (putBit_bits s.gate.sig.ecsPresent ⟨x, hx⟩ ⟨x, hx⟩ p).trans (if_pos rfl)
    · exact hbits ▸ (putBit_bits s.gate.sig.ecsPresent ⟨x, hx⟩ ⟨y, hy⟩ p).trans (if_neg fun h => hne (congrArg Fin.val h))
  case move =>
    intro r blk bytes hstarts
    exact ⟨fun hlen => (execMove_malformed hstarts hlen true : execMove r true bytes s = _),
      fun hlen hreach => (execMove_unreached hstarts hlen hreach true : execMove r true bytes s = _),
      fun hlen hreach => (execMove_reached hstarts hlen hreach false : execMove r false bytes s = _),
      fun hlen hreach => (execMove_reached hstarts hlen hreach true : execMove r true bytes s = _)⟩
  case moved =>
    exact fun r tag ok hstarted => (doIf_true (by rw [haux, hstarted]; rfl) : execMoveComplete r tag ok s = _)
  case bar0 =>
    exact fun off width v hin hperst hide => (execRegisterWrite_bar0 haux hin hperst hide : execRegisterWrite off width v s = _)
  case image =>
    exact fun off width v hlow hhigh hhold =>
      (execRegisterWrite_image (State.shepOn_of haux hhold) hlow hhigh : execRegisterWrite off width v s = _)
  case width => exact fun width v hfour height off => State.writeAt_width hfour height

end Sys2Proof.Machine
end

section
/-! Flock messages and what each does, and the timers of the flock (10, R260 to R284). -/

namespace Sys2Proof.Machine

open Sys2Proof

/-! ### Messages that pass every check -/

section
variable {h : FlockHdr} {s u : State}

theorem execGossip_heard {tw : Coord} {es : List GossipEntry} (hears : Hears s h (.gossip tw es) h.sender.toNat)
    (hu : heardFrom s h h.sender.toNat = u) (hgroup : u.inGroup h.sender = true) : execGossip h tw es s = .next
      (((es.take 15).foldl (fun (v : State) e => v.updObsC e.subject fun o => { o with
          a := o.a || e.a
          aAt := if e.a then v.tb else o.aAt
          b := o.b || e.b
          bAt := if e.b then v.tb else o.bAt })
        (u.updObsC h.sender fun o => { o with gossipAt := u.tb, c := false })).learnBell.verdictAll).learnBell := by
  rw [execGossip, flockRx_hears hears, hu]
  dsimp only
  rw [hgroup, if_neg (by decide)]

section
variable {kind code g : Byte} {d : Word}

/-- What a self-report of its sender's group does, by its kind. -/
def State.reported (u : State) (m : Coord) (kind : Byte) : State :=
  if kind = 1 ∨ kind = 3 then
    (((u.withdrawOrder m).updObs (posOf m) fun o => { o with
      d := true, dAt := u.tb, suspended := false }).evaluateAll).verdictCheck (posOf m)
  else if kind = 2 ∨ kind = 5 then u.updObs (posOf m) fun o => { o with suspended := true, suspAt := u.tb }
  else u

theorem execSelfReport_heard (hkind : kind ≠ 4) (hears : Hears s h (.selfReport kind code g d) h.sender.toNat)
    (hu : heardFrom s h h.sender.toNat = u) (hgroup : u.inGroup h.sender = true) :
    execSelfReport h kind code g d s = .next (u.reported h.sender kind).learnBell := by
  rw [execSelfReport, if_neg hkind, flockRx_hears hears, hu]
  dsimp only
  rw [if_neg hkind, hgroup, if_neg (by decide)]
  rfl

theorem execSelfReport_vacancy (hears : Hears s h (.selfReport 4 code g d) (2048 + d.toNat))
    (hu : heardFrom s h (2048 + d.toNat) = u) (hbell : u.shep.bellwether = true)
    (hgroup : u.inGroup (coordAt g.toNat 15) = true) (hspare : u.spareOut u.ownGroup = true) :
    execSelfReport h 4 code g d s = .next
      ((u.flock (.admission (coordAt g.toNat 15) 0x7FF d)).applyAdmit (coordAt g.toNat 15) 0x7FF d).learnBell := by
  rw [execSelfReport, if_pos rfl, flockRx_hears hears, hu]
  dsimp only
  rw [if_pos rfl, hbell, hgroup, hspare]
  rfl

end

theorem execPen_heard {c : Coord} {cause : Byte} (hears : Hears s h (.pen c cause) h.sender.toNat)
    (hu : heardFrom s h h.sender.toNat = u) (hcause : cause ≠ 3) :
    execPen h c cause s = .next (u.applyPen c).learnBell := by
  rw [execPen, flockRx_hears hears, hu]
  dsimp only
  rw [decide_eq_false hcause, Bool.false_and, Bool.false_and, if_neg Bool.false_ne_true]

theorem execClaim_newer {m : BitVec 16} (hears : Hears s h (.claim m) h.sender.toNat)
    (hu : heardFrom s h h.sender.toNat = u) (hgroup : u.inGroup h.sender = true)
    (hterm : newerTerm h.term u.shep.term = true) : execClaim h m s = .next ({ u with shep := { u.shep with
        term := h.term
        bell := h.sender
        bellValid := true
        bellwether := false
        passReports := u.shep.passReports || u.shep.bellwether } } : State).learnBell := by
  rw [execClaim, flockRx_hears hears, hu]
  dsimp only
  rw [hgroup, hterm, Bool.true_or, Bool.true_and, if_pos rfl]

theorem execExpelReq_heard {sc cause : Byte} {ind : List (BitVec 16)}
    (hears : Hears s h (.expelReq sc cause ind) h.sender.toNat) (hu : heardFrom s h h.sender.toNat = u)
    (hbell : u.shep.bellwether = true) (hgroup : u.inGroup h.sender = true) : execExpelReq h sc cause ind s = .next
      (u.evaluate { subject := h.sender, cause := cause, score := sc, lastEval := u.tb }).learnBell := by
  rw [execExpelReq, flockRx_hears hears, hu]
  rw [hbell, hgroup]
  rfl

section
variable {c : Coord} {slot left : Byte} (hears : Hears s h (.expelOrder c slot left) h.sender.toNat)
  (hu : heardFrom s h h.sender.toNat = u) (hgroup : u.inGroup c = true)
include hears hu hgroup

theorem execExpelOrder_free {i : Nat} (hfree : u.freeBudget = some i) : execExpelOrder h c slot left s = .next
    (u.enterOrder c (if slot.toNat < 8 ∧ u.slotAt slot.toNat = 0 then slot.toNat else i)).learnBell := by
  rw [execExpelOrder, flockRx_hears hears, hu]
  dsimp only
  rw [hgroup, if_neg (by decide), hfree]

theorem execExpelOrder_full (hfull : u.freeBudget = none) : execExpelOrder h c slot left s = .next
    ({ u with shep := { u.shep with rejected := stickAdd u.shep.rejected 1 } } : State).learnBell := by
  rw [execExpelOrder, flockRx_hears hears, hu]
  dsimp only
  rw [hgroup, if_neg (by decide), hfull]

end

theorem execExpelRefused_mine {c : Coord} {rs : BitVec 4} (hears : Hears s h (.expelRefused c rs) h.sender.toNat)
    (hu : heardFrom s h h.sender.toNat = u) (hmine : u.isMine c = true) : execExpelRefused h c rs s = .next
      ({ u with shep := { u.shep with
        exSubject := c
        exState := 2
        exReasons := rs
        exScore := u.shep.score
        watch := true } } : State).learnBell := by
  rw [execExpelRefused, flockRx_hears hears, hu]
  dsimp only
  rw [if_pos hmine]

end

theorem State.learnBell_other {w : State} (hother : w.lowest ≠ some (posOf w.shep.coord)) :
    w.learnBell.shep.bellwether = false ∧ w.learnBell.shep.bellValid = w.lowest.isSome ∧
    ∀ m, w.lowest = some m → w.learnBell.shep.bell = coordAt w.ownGroup m := by
  rw [State.learnBell, if_neg hother]
  exact ⟨rfl, rfl, fun m hm => by rw [hm]; rfl⟩

/-- Settles O48: a message that passes every check acts on the state in which its sender is noted. -/
theorem flockMessages : Obligations.FlockMessages := by
  refine fun h s => ⟨?gossip, ?report, ?suspend, ?vacancy, ?verdict, ?pen, ?unpen, ?claim, ?accuse, ?order, ?result,
    ?request, ?free, ?full, ?refused, ?admission, fun w => State.learnBell_other⟩
  case gossip => exact fun tw es hears hgroup => (execGossip_heard hears rfl hgroup : execGossip h tw es s = _)
  case report =>
    intro kind code g d hears hkind hgroup
    have hfour : kind ≠ 4 := by rcases hkind with rfl | rfl <;> decide
    exact ((execSelfReport_heard hfour hears rfl hgroup).trans (by rw [State.reported, if_pos hkind]) :
      execSelfReport h kind code g d s = _)
  case suspend =>
    intro kind code g d hears hkind hgroup
    have hfour : kind ≠ 4 := by rcases hkind with rfl | rfl <;> decide
    have hother : ¬ (kind = 1 ∨ kind = 3) := by rcases hkind with rfl | rfl <;> decide
    exact ((execSelfReport_heard hfour hears rfl hgroup).trans (by rw [State.reported, if_neg hother, if_pos hkind]) :
      execSelfReport h kind code g d s = _)
  case vacancy =>
    exact fun code g d hears hbell hgroup hspare =>
      (execSelfReport_vacancy hears rfl hbell hgroup hspare : execSelfReport h 4 code g d s = _)
  case verdict => exact fun c cl hears => (flockRx_hears hears : execVerdict h c cl s = _)
  case pen => exact fun c cause hears hcause => (execPen_heard hears rfl hcause : execPen h c cause s = _)
  case unpen => exact fun c dg hears => (flockRx_hears hears : execUnpen h c dg s = _)
  case claim => exact fun m hears hgroup hterm => (execClaim_newer hears rfl hgroup hterm : execClaim h m s = _)
  case accuse => exact fun c job gen tile row hears => (flockRx_hears hears : execAccuse h c job gen tile row s = _)
  case order => exact fun c p tile hears => (flockRx_hears hears : execProbeOrder h c p tile s = _)
  case result => exact fun c r d hears => (flockRx_hears hears : execProbeResult h c r d s = _)
  case request =>
    exact fun sc cause ind hears hbell hgroup => (execExpelReq_heard hears rfl hbell hgroup : execExpelReq h sc cause ind s = _)
  case free =>
    exact fun c slot left i hears hgroup hfree => (execExpelOrder_free hears rfl hgroup hfree : execExpelOrder h c slot left s = _)
  case full =>
    exact fun c slot left hears hgroup hfull => (execExpelOrder_full hears rfl hgroup hfull : execExpelOrder h c slot left s = _)
  case refused => exact fun c rs hears hmine => (execExpelRefused_mine hears rfl hmine : execExpelRefused h c rs s = _)
  case admission => exact fun c p dg hears => (flockRx_hears hears : execAdmitMsg h c p dg s = _)

end Sys2Proof.Machine
end

section
/-! The timers of the flock, the condition score, the paddock, accusations and probes (10, R260 to R282). -/

namespace Sys2Proof.Machine

open Sys2Proof

/-! ### Reports, the bellwether and the budget -/

section
variable {m : Nat} {s : State}

/-- A Shepherd that is on has aux power, and its firmware runs. -/
theorem State.of_shepOn (hon : s.shepOn = true) : s.pwr.aux = true ∧ s.cast.hold ≠ 1 := by
  simpa [State.shepOn] using hon

section
variable (hon : s.shepOn = true)
include hon

theorem execGossipSend_first (hmember : s.shep.member = true) (hpaddock : s.shep.paddock = false)
    (hfirst : s.shep.lastGossip = none) : execGossipSend s = .next s.gossipNow := by
  rw [execGossipSend, hfirst]
  exact doIf_true (by rw [hon, hmember, hpaddock]; rfl)

/-- The reports of an observer that are 200 ms old lapse. -/
def State.lapsed (s : State) (o : Obs) : Obs := { o with
  a := o.a && !s.passed o.aAt 20000000
  b := o.b && !s.passed o.bAt 20000000
  d := o.d && !s.passed o.dAt 20000000 }

theorem execReportLapse_lapses (hm : m < 16) : execReportLapse m s = .next (s.updObs m s.lapsed) := by
  rw [execReportLapse]
  exact doIf_true (by rw [hon, decide_eq_true hm]; rfl)

theorem execGossipLost_misses (hm : m < 16) (hvalid : (s.obsOf m).valid = true)
    (hpassed : s.passed (s.obsOf m).gossipAt 3000000 = true) :
    execGossipLost m s = .next (s.updObs m fun x => { x with c := true }).learnBell := by
  have hpassed : s.passed (s.obsOf m).gossipAt ticks30ms = true := hpassed
  rw [execGossipLost]
  exact doIf_true (by rw [hon, decide_eq_true hm, hvalid, hpassed]; rfl)

theorem execSuspensionExpiry_ends (hm : m < 16) (hsuspended : (s.obsOf m).suspended = true)
    (hpassed : s.passed (s.obsOf m).suspAt 120000000000 = true) : execSuspensionExpiry m s = .next
      ((s.updObs m fun x => { x with suspended := false }).verdictCheck m) := by
  have hpassed : s.passed (s.obsOf m).suspAt (20 * ticksMin) = true := hpassed
  rw [execSuspensionExpiry]
  exact doIf_true (by rw [hon, decide_eq_true hm, hsuspended, hpassed]; rfl)

theorem execBellwetherLost_claims (hmember : s.shep.member = true) (hother : s.shep.bellwether = false)
    (hcoord : s.shep.hasCoord = true) (hlowest : s.lowest = some (posOf s.shep.coord)) (hlost : s.bellLost = true)
    {u : State} (hu : u = { s with shep := { s.shep with
      term := s.shep.term + 1, bellwether := true, bell := s.shep.coord, bellValid := true } }) :
    execBellwetherLost s = .next (u.flock (.claim s.heardMap)).verdictAll := by
  subst hu
  rw [execBellwetherLost]
  exact doIf_true (by rw [hon, hmember, hother, hcoord, decide_eq_true hlowest, hlost]; rfl)

theorem execHardFault_faults {code : Byte} (hlow : 1 ≤ code.toNat) (hhigh : code.toNat ≤ 7) :
    execHardFault code s = .next (s.hardFault code) := by
  rw [execHardFault]
  exact doIf_true (by rw [hon, decide_eq_true ⟨hlow, hhigh⟩]; rfl)

theorem execBudgetSlotExpiry_frees {i : Nat} (hi : i < 8) (hused : s.slotAt i ≠ 0) (hpassed : (s.slotAt i).toNat ≤ s.tb.toNat) :
    execBudgetSlotExpiry i s = .next (s.setBudget i 0).evaluateAll := by
  rw [execBudgetSlotExpiry]
  exact doIf_true (by rw [hon, decide_eq_true ⟨hi, hused, hpassed⟩]; rfl)

theorem execCounterTrusted_trusts (hmember : s.shep.member = true) (hnew : s.shep.trusted = false)
    (hpassed : s.passed s.shep.memberSince 8640000000000 = true) :
    execCounterTrusted s = .next ({ s with shep := { s.shep with trusted := true } } : State).evaluateAll := by
  have hpassed : s.passed s.shep.memberSince (24 * ticksHour) = true := hpassed
  rw [execCounterTrusted]
  exact doIf_true (by rw [hon, hmember, hnew, hpassed]; rfl)

theorem execExpelReevaluation_evaluates (hbell : s.shep.bellwether = true) : execExpelReevaluation s = .next
    ((s.shep.requests.filter (fun r => s.passed r.lastEval 360000000000)).foldl State.evaluate s) := by
  rw [execExpelReevaluation]
  exact doIf_true (by rw [hon, hbell]; rfl)

theorem execReserveReport_keeps {h : CtlHdr} {r : BitVec 16} (howned : s.flash.owned = true) (hcheck : s.ctlFail h = none)
    {u : State} (hu : u = s.seqAccept h false) :
    execReserveReport h r s = .next ({ u with shep := { u.shep with reserve := r } } : State).evaluateAll := by
  obtain ⟨haux, hhold⟩ := State.of_shepOn hon
  rw [execReserveReport, ctlMsg_passes haux howned hhold hcheck, ← hu]

theorem execBindOffDeadline_pens {x : Coord × Nat × Word}
    (hx : s.shep.orders.find? (fun y => s.passed y.2.2 60000000000) = some x) (hbell : s.shep.bellwether = true) :
    execBindOffDeadline s = .next (((s.flock (.pen x.1 2)).applyPen x.1).sendAdmit x.1) := by
  have hx : s.shep.orders.find? (fun y => s.passed y.2.2 (10 * ticksMin)) = some x := hx
  rw [execBindOffDeadline, hx]
  exact doIf_true (by rw [hon, hbell]; rfl)

theorem execProbeDeadline_reports {r : ProbeRun} (hr : s.shep.runs.find? (fun y => s.passed y.since 2000000) = some r) :
    execProbeDeadline s = .next (s.reportProbe r) := by
  have hr : s.shep.runs.find? (fun y => s.passed y.since ticks20ms) = some r := hr
  rw [execProbeDeadline, hr]
  exact doIf_true hon

/-! ### The score -/

theorem execIndicatorCollect_first (hfirst : s.shep.indPast = []) : execIndicatorCollect s = .next { s with shep := { s.shep with
    ind := (List.range 9).foldl (fun t i => tabSet (fun _ => (0 : BitVec 16)) t i (s.indValue i)) s.shep.ind
    indReads := s.indReads
    indAcc := s.indSums
    indPast := [(s.tb, s.indSums)] } } := by
  obtain ⟨haux, -⟩ := State.of_shepOn hon
  rw [execIndicatorCollect, hfirst]
  exact doIf_true (by rw [haux]; rfl)

omit hon in
/-- What follows from a score, the own request among it, leaves the score alone. -/
theorem State.score_asked (w : State) (ask drop : Bool) (c : Coord) (b : FlockBody) (v : Byte) :
    (if ask then (((if drop then w.dropRequest c else w).flock b).learnBell).ownRequest v
      else (if drop then w.dropRequest c else w).learnBell).shep.score = w.shep.score := by
  have hdrop : (if drop then w.dropRequest c else w).shep.score = w.shep.score := by
    split
    · exact (w.dropRequest_standing _).1
    · rfl
  split
  · rw [(State.ownRequest_standing _ _).1, (State.learnBell_standing _).1, (State.flock_standing _ _).1, hdrop]
  · rw [(State.learnBell_standing _).1, hdrop]

theorem execScoreWrite_score (score : Byte) : ∃ u, execScoreWrite score s = .next u ∧
    u.shep.score = if s.shep.hard then 0 else if score = 0 then 1 else score :=
  ⟨_, doIf_true hon, State.score_asked _ _ _ _ _ _⟩

/-! ### The paddock -/

/-- The next phase of a pass is numbered. -/
def State.phaseUp (s : State) : State := { s with shep := { s.shep with padPhase := s.shep.padPhase + 1 } }

omit hon in
theorem State.phaseUp_of {n : BitVec 2} (hphase : s.shep.padPhase + 1 = n) :
    s.phaseUp = { s with shep := { s.shep with padPhase := n } } := by
  rw [State.phaseUp, hphase]

omit hon in
theorem State.nextPhase_idle (hphase : s.shep.padPhase = 0) : s.nextPhase = s.phaseUp := by
  rw [State.nextPhase, if_neg (by rw [hphase]; decide), if_neg (by rw [hphase]; decide), State.phaseUp]

omit hon in
theorem State.nextPhase_started (hphase : s.shep.padPhase = 1) : s.nextPhase = s.sweepMemory.phaseUp := by
  rw [State.nextPhase, if_pos hphase, State.phaseUp]

omit hon in
theorem State.nextPhase_swept (hphase : s.shep.padPhase = 2) : s.nextPhase = (s.eachLane padLaneTest).phaseUp := by
  rw [State.nextPhase, if_neg (by rw [hphase]; decide), if_pos hphase, State.phaseUp]

section
variable (hpaddock : s.shep.paddock = true)
include hpaddock

theorem execPaddockMainRamp_ramps {t : Word} (hwait : s.shep.padWait = some t) (hmain : s.gate.sig.mainEn = true)
    (hbarred : s.pwr.mainBarred = false) (hrun : s.cast.running = false) (hpassed : s.passed t 1000000000 = true) :
    execPaddockMainRamp s = .next (({ s with shep := { s.shep with padWait := none } } : State).startRun .paddock) := by
  have hpassed : (s.shep.admitted || s.passed t ticks10s) = true := Bool.or_eq_true_iff.2 (Or.inr hpassed)
  rw [execPaddockMainRamp, hwait]
  exact doIf_true (by rw [hon, hpaddock, hmain, hbarred, hrun, hpassed]; rfl)

section
variable (hwait : s.shep.padWait = none) (htransit : s.pwr.transit = true) (hrun : s.cast.running = false)
  (hheld : s.cast.held = false) (hclean : s.shep.clean ≠ 3)
include hwait htransit hrun hheld hclean

theorem padIdle : (s.shepOn && s.shep.paddock && s.shep.padWait.isNone && s.pwr.transit && !s.cast.running && !s.cast.held
    && decide (s.shep.clean ≠ 3)) = true := by
  rw [hon, hpaddock, hwait, htransit, hrun, hheld, decide_eq_true hclean]
  rfl

theorem execPaddockPass_begins (hphase : s.shep.padPhase = 0)
    (hdue : s.shep.lastPass = none ∨ ∃ t, s.shep.lastPass = some t ∧ s.passed t 360000000000 = true) :
    execPaddockPass s = .next { s with shep := { s.shep with
      padPhase := 1
      passes := stickAdd s.shep.passes 1
      lastPass := some s.tb } } := by
  rw [execPaddockPass, padIdle hon hpaddock hwait htransit hrun hheld hclean, decide_eq_true hphase, Bool.true_and,
    Bool.true_and]
  have hnext : ∀ u : State, u.shep.padPhase = 0 → u.nextPhase = { u with shep := { u.shep with padPhase := 1 } } :=
    fun u hu => (State.nextPhase_idle hu).trans (State.phaseUp_of (by rw [hu]; rfl))
  refine (if_pos ?_).trans (congrArg _ (hnext _ hphase))
  rcases hdue with hnone | ⟨t, ht, hpassed⟩
  · rw [hnone]
  · rw [ht]
    exact hpassed

theorem execPaddockPass_goesOn (hphase : s.shep.padPhase = 1 ∨ s.shep.padPhase = 2) :
    execPaddockPass s = .next s.nextPhase := by
  have hnot : s.shep.padPhase ≠ 0 := by rcases hphase with h | h <;> rw [h] <;> decide
  rw [execPaddockPass, padIdle hon hpaddock hwait htransit hrun hheld hclean, decide_eq_false hnot, Bool.and_false,
    Bool.false_and, if_neg Bool.false_ne_true]
  exact doIf_true (by rw [decide_eq_true hphase]; rfl)

end

section
variable (hphase : s.shep.padPhase = 3) (c : Byte) {v : State}
include hphase

theorem execPaddockPassEnd_clean {n : BitVec 2} (hn : s.shep.clean + 1 = n) (hv : (s.eachLane fun t => { t with
      gen := 0, chk := 0, loop := 0, started := false, lock := false
      bits := if true then stickAdd t.bits 100000000000 else t.bits }) = v) :
    execPaddockPassEnd true c s = .next (if n = 3
      then ({ v with shep := { v.shep with padPhase := 0, clean := n } } : State).graduateReport
      else { v with shep := { v.shep with padPhase := 0, clean := n } }) := by
  subst hn
  rw [execPaddockPassEnd, hphase, if_pos rfl, padBits, hv]
  dsimp only
  rw [if_pos rfl, doIf_true (by rw [hon, hpaddock]; rfl)]

theorem execPaddockPassEnd_fault (hv : (s.eachLane fun t => { t with
      gen := 0, chk := 0, loop := 0, started := false, lock := false
      bits := if false then stickAdd t.bits 100000000000 else t.bits }) = v) : execPaddockPassEnd false c s = .next
    (({ v with shep := { v.shep with padPhase := 0, clean := 0 } } : State).hardFault c) := by
  rw [execPaddockPassEnd, hphase, if_pos rfl, padBits, hv]
  dsimp only
  rw [if_neg Bool.false_ne_true, doIf_true (by rw [hon, hpaddock]; rfl)]

end

section
variable (hphase : s.shep.padPhase = 1 ∨ s.shep.padPhase = 2)
include hphase

theorem execPaddockPassEnd_early (c : Byte) :
    execPaddockPassEnd false c s = .next
      (({ s with shep := { s.shep with padPhase := 0, clean := 0 } } : State).hardFault c) ∧
    execPaddockPassEnd true c s = .next s := by
  have hthree : s.shep.padPhase ≠ 3 := by rcases hphase with h | h <;> rw [h] <;> decide
  have hzero : s.shep.padPhase ≠ 0 := by rcases hphase with h | h <;> rw [h] <;> decide
  rw [execPaddockPassEnd, execPaddockPassEnd, if_neg hthree, if_neg hthree]
  refine ⟨doIf_true ?_, doIf_false ?_⟩
  · rw [hon, hpaddock, decide_eq_true (Or.inr ⟨hzero, rfl⟩)]
    rfl
  · rw [decide_eq_false fun h => h.elim hthree fun h => Bool.noConfusion h.2, Bool.and_false]

end

theorem execPaddockProgress_tells (howned : s.flash.owned = true) (hpassed : s.passed s.shep.padProgressAt 6000000000 = true) :
    execPaddockProgress s = .next (({ s with shep := { s.shep with padProgressAt := s.tb } } : State).sendCtl
      1 [s.ownDigest.toNat, s.shep.clean.toNat, s.shep.padPhase.toNat, s.shep.passes.toNat]) := by
  have hpassed : s.passed s.shep.padProgressAt ticksMin = true := hpassed
  rw [execPaddockProgress]
  exact doIf_true (by rw [hon, howned, hpaddock, hpassed]; rfl)

theorem execPaddockReportRepeat_repeats (hclean : s.shep.clean = 3)
    (hpassed : s.passed s.shep.padReportAt 60000000000 = true) : execPaddockReportRepeat s = .next s.graduateReport := by
  have hpassed : s.passed s.shep.padReportAt (10 * ticksMin) = true := hpassed
  rw [execPaddockReportRepeat]
  exact doIf_true (by rw [hon, hpaddock, decide_eq_true hclean, hpassed]; rfl)

end

end

/-! ### The lane test of a pass -/

/-- A lane runs the lane test of the paddock. -/
def PadTested (t : LaneTest) : Prop := t.gen = 6 ∧ t.chk = 6 ∧ t.loop = 1 ∧ t.fec = true

theorem padTested_padLaneTest (t : LaneTest) : PadTested (padLaneTest t) := ⟨rfl, rfl, rfl, rfl⟩

theorem padLaneTest_ne_default (t : LaneTest) : padLaneTest t ≠ {} := fun h =>
  absurd (congrArg LaneTest.fec h) (by decide : ¬ true = false)

theorem State.test_setTest_same {fd lane : Nat} {v : LaneTest} (hv : v ≠ {}) : (s.setTest fd lane v).test fd lane = v :=
  tabGet_tabSet_of_ne _ hv

/-- The lanes up to the one with number `n` under the lane test. -/
theorem padTested_foldl (s : State) (n : Nat) : ∀ i < n, PadTested (((List.range n).foldl (fun (s : State) i =>
    s.setTest (i / 192) (i % 192) (padLaneTest (s.test (i / 192) (i % 192)))) s).test (i / 192) (i % 192)) := by
  induction n with
  | zero => exact fun i hi => absurd hi (Nat.not_lt_zero i)
  | succ n ih =>
    intro i hi
    rw [List.range_succ, List.foldl_append, List.foldl_cons, List.foldl_nil]
    rcases Nat.lt_succ_iff_lt_or_eq.1 hi with hlt | rfl
    · rw [State.test_setTest_ne _ _ (by rw [testKey, testKey]; omega)]
      exact ih i hlt
    · rw [State.test_setTest_same (padLaneTest_ne_default _)]
      exact padTested_padLaneTest _

theorem State.padTested_eachLane {fd lane : Nat} (hfd : fd < 2) (hlane : lane < 192) :
    PadTested ((s.eachLane padLaneTest).test fd lane) := by
  have htested := padTested_foldl s 384 (192 * fd + lane) (by omega)
  rwa [show (192 * fd + lane) / 192 = fd by omega, show (192 * fd + lane) % 192 = lane by omega] at htested

end

/-- A fold of operations that leave the registers of the Shepherd alone leaves them alone. -/
theorem shep_foldl {β : Type} {f : State → β → State} (hf : ∀ s b, (f s b).shep = s.shep) (l : List β) (s : State) :
    (l.foldl f s).shep = s.shep := by
  rw [← List.foldl_hom State.shep (g₂ := fun v _ => v) fun s b => (hf s b).symm, List.foldl_fixed]

theorem State.eachLane_shep (s : State) (f : LaneTest → LaneTest) : (s.eachLane f).shep = s.shep := by
  refine shep_foldl (fun s i => ?_) _ _
  rfl

theorem State.phaseUp_test (s : State) (fd lane : Nat) : s.phaseUp.test fd lane = s.test fd lane := rfl

theorem State.nextPhase_tests {s : State} (hphase : s.shep.padPhase = 2) : s.nextPhase.shep.padPhase = 3 ∧
    ∀ fd lane, fd < 2 → lane < 192 → PadTested (s.nextPhase.test fd lane) := by
  have hkeeps : (s.eachLane padLaneTest).shep.padPhase + 1 = 3 := by rw [State.eachLane_shep, hphase]; rfl
  rw [State.nextPhase_swept hphase]
  refine ⟨?_, fun fd lane hfd hlane => ?_⟩
  · rw [State.phaseUp_of hkeeps]
  · rw [State.phaseUp_test]
    exact State.padTested_eachLane hfd hlane

/-! ### Accusations and probes -/

theorem execAccuseCommand_accuses {r : Nat} {blk : Block} {s u v : State} {c : Coord} {job tile : BitVec 16}
    (hstarts : Starts s r 0x08 blk) (hu : u = started s r) (hc : c = BitVec.ofNat 11 (fieldB blk 8 2))
    (hjob : job = BitVec.ofNat 16 (fieldB blk 10 2)) (htile : tile = BitVec.ofNat 16 (fieldB blk 14 2))
    (hv : v = ({ u with shep := { u.shep with accusing := u.shep.accusing ++ [(c, job)] } } : State).flock
      (.accuse c job (BitVec.ofNat 8 (fieldB blk 12 1)) tile (BitVec.ofNat 64 (fieldB blk 16 8)))) :
    execAccuseCommand r s = .next ((if u.inGroup c then v.takeAccuse c job tile else v).complete r (blkTag blk) stOk) := by
  subst hu hc hjob htile hv
  rw [execAccuseCommand, hostCmd_starts hstarts]

section
variable {r : ProbeRun}

theorem ProbeRun.result_all (hall : r.allAnswered = true) : r.result = if r.loopback then 0 else 2 := by
  rw [ProbeRun.result, hall, if_pos rfl]

theorem ProbeRun.result_some (hall : r.allAnswered = false) :
    r.result = if r.answered = [] ∧ r.looped = 0 then 3 else 1 := by
  rw [ProbeRun.result, hall, if_neg Bool.false_ne_true]
  simp only [Bool.and_eq_true, List.isEmpty_iff, decide_eq_true_eq]

end

theorem twoClasses_classes : ∀ a b d suspended : Bool, (suspended = false → a = true → b = true →
      twoClasses ({ a, b, d, suspended } : Obs).classes = true) ∧
    (a = true → b = false → d = false → twoClasses ({ a, b, d, suspended } : Obs).classes = false) := by decide

/-- The classes of an observer come from three of its reports and its suspension. -/
theorem Obs.classes_eq (o : Obs) :
    o.classes = ({ a := o.a, b := o.b, d := o.d, suspended := o.suspended } : Obs).classes := rfl

/-- Settles O50: each timer of the flock has its equation once its time has passed. -/
theorem flockTimers : Obligations.FlockTimers := by
  refine ⟨fun m s hon hm => ⟨?gossip, ?lapse, ?missed, ?suspension, ?lost, ?hard, ?slot, ?trusted, ?expel, ?reserve,
    ?bindOff, ?probe, ?indicators, ?score, ?ramp, ?pass, ?passEnd, ?early, ?progress, ?report⟩, ?accuse, ?result, ?two, ?one⟩
  case gossip =>
    exact fun hmember hpaddock hfirst => (execGossipSend_first hon hmember hpaddock hfirst : execGossipSend s = _)
  case lapse =>
    exact ⟨s.lapsed, (execReportLapse_lapses hon hm : execReportLapse m s = _), fun x => ⟨rfl, rfl, rfl, rfl, rfl⟩⟩
  case missed => exact fun hvalid hpassed => (execGossipLost_misses hon hm hvalid hpassed : execGossipLost m s = _)
  case suspension =>
    exact fun hsuspended hpassed => (execSuspensionExpiry_ends hon hm hsuspended hpassed : execSuspensionExpiry m s = _)
  case lost =>
    exact fun hmember hother hcoord hlowest hlost =>
      ⟨_, rfl, (execBellwetherLost_claims hon hmember hother hcoord hlowest hlost rfl : execBellwetherLost s = _)⟩
  case hard => exact fun code hlow hhigh => (execHardFault_faults hon hlow hhigh : execHardFault code s = _)
  case slot =>
    exact fun i hi hused hpassed => (execBudgetSlotExpiry_frees hon hi hused hpassed : execBudgetSlotExpiry i s = _)
  case trusted =>
    exact fun hmember hnew hpassed => (execCounterTrusted_trusts hon hmember hnew hpassed : execCounterTrusted s = _)
  case expel => exact fun hbell => (execExpelReevaluation_evaluates hon hbell : execExpelReevaluation s = _)
  case reserve =>
    exact fun h r howned hcheck => ⟨_, rfl, (execReserveReport_keeps hon howned hcheck rfl : execReserveReport h r s = _)⟩
  case bindOff => exact fun x hx hbell => (execBindOffDeadline_pens hon hx hbell : execBindOffDeadline s = _)
  case probe => exact fun r hr => (execProbeDeadline_reports hon hr : execProbeDeadline s = _)
  case indicators => exact fun hfirst => (execIndicatorCollect_first hon hfirst : execIndicatorCollect s = _)
  case score =>
    intro score
    obtain ⟨u, hu, hscore⟩ := execScoreWrite_score hon score
    refine ⟨u, hu, fun hhard => ?_, fun hhard hne => ?_, fun hhard hzero => ?_⟩
    · rw [hscore, hhard, if_pos rfl]
    · rw [hscore, hhard, if_neg Bool.false_ne_true, if_neg hne]
    · rw [hscore, hhard, if_neg Bool.false_ne_true, if_pos hzero]
  case ramp =>
    exact fun t hwait hpaddock hmain hbarred hrun hpassed =>
      (execPaddockMainRamp_ramps hon hpaddock hwait hmain hbarred hrun hpassed : execPaddockMainRamp s = _)
  case pass =>
    intro hpaddock hwait htransit hrun hheld hclean
    refine ⟨fun hphase hdue =>
        (execPaddockPass_begins hon hpaddock hwait htransit hrun hheld hclean hphase hdue : execPaddockPass s = _),
      fun hphase => ?_, fun hphase => ?_⟩
    · exact ((execPaddockPass_goesOn hon hpaddock hwait htransit hrun hheld hclean (Or.inl hphase)).trans
        (congrArg _ ((State.nextPhase_started hphase).trans (State.phaseUp_of (show s.shep.padPhase + 1 = 2 by rw [hphase]; rfl)))) :
        execPaddockPass s = _)
    · refine ⟨s.nextPhase,
        (execPaddockPass_goesOn hon hpaddock hwait htransit hrun hheld hclean (Or.inr hphase) : execPaddockPass s = _), ?_⟩
      exact State.nextPhase_tests hphase
  case passEnd =>
    intro hpaddock hphase v
    refine ⟨fun hmore c => ?_, fun hlast c => ?_,
      fun c => (execPaddockPassEnd_fault (v := v false) hon hpaddock hphase c rfl : execPaddockPassEnd false c s = _)⟩
    · have hthree : s.shep.clean + 1 ≠ 3 := fun h => hmore (by bv_omega)
      exact ((execPaddockPassEnd_clean (v := v true) hon hpaddock hphase c rfl rfl).trans (congrArg _ (if_neg hthree)) :
        execPaddockPassEnd true c s = _)
    · have hthree : s.shep.clean + 1 = 3 := by rw [hlast]; rfl
      exact ((execPaddockPassEnd_clean (v := v true) hon hpaddock hphase c hthree rfl).trans (congrArg _ (if_pos rfl)) :
        execPaddockPassEnd true c s = _)
  case early => exact fun hpaddock hphase c => execPaddockPassEnd_early hon hpaddock hphase c
  case progress =>
    exact fun howned hpaddock hpassed => (execPaddockProgress_tells hon hpaddock howned hpassed : execPaddockProgress s = _)
  case report =>
    exact fun hpaddock hclean hpassed =>
      (execPaddockReportRepeat_repeats hon hpaddock hclean hpassed : execPaddockReportRepeat s = _)
  case accuse =>
    exact fun r blk s hstarts => (execAccuseCommand_accuses hstarts rfl rfl rfl rfl rfl : execAccuseCommand r s = _)
  case result =>
    refine fun r => ⟨fun hall hloop => ?_, fun hall hloop => ?_, decide_eq_true_iff, fun hall hnone hlooped => ?_,
      fun hall hlooped => ?_, fun hall hsome => ?_⟩
    · rw [ProbeRun.result_all hall, hloop, if_pos rfl]
    · rw [ProbeRun.result_all hall, hloop, if_neg Bool.false_ne_true]
    · rw [ProbeRun.result_some hall, if_pos ⟨hnone, hlooped⟩]
    · rw [ProbeRun.result_some hall, if_neg fun h => hlooped h.2]
    · rw [ProbeRun.result_some hall, if_neg fun h => hsome h.1]
  case two =>
    intro o hsuspended ha hb
    rw [o.classes_eq]
    exact (twoClasses_classes o.a o.b o.d o.suspended).1 hsuspended ha hb
  case one =>
    intro o ha hb hd
    rw [o.classes_eq]
    exact (twoClasses_classes o.a o.b o.d o.suspended).2 ha hb hd

end Sys2Proof.Machine
end

section
/-! The twin sideband (11, R288, R300, R301). -/

namespace Sys2Proof.Machine

open Sys2Proof

/-! ### Operations that leave the time and memory alone -/

/-- The time, and what the canonical form of memory speaks of. -/
def State.still (s : State) : Word × Tab Byte × Tab Bool × Tab Nat × Tab (List Nat) := (s.tb, s.memView)

/-- A fold of operations that leave the time and memory alone leaves them alone. -/
theorem still_foldl {β : Type} {f : State → β → State} (hf : ∀ s b, (f s b).still = s.still) (l : List β) (s : State) :
    (l.foldl f s).still = s.still := by
  rw [← List.foldl_hom State.still (g₂ := fun v _ => v) fun s b => (hf s b).symm, List.foldl_fixed]

/-- Sending leaves them alone. -/
theorem still_of_unsent {s u : State} (h : u.unsent = s.unsent) : u.still = s.still := congrArg (fun v => v.still) h

theorem State.tb_of_still {s u : State} (h : u.still = s.still) : u.tb = s.tb := congrArg Prod.fst h

section
variable (s : State)

@[simp] theorem State.emit_still (o : Output) : (s.emit o).still = s.still := rfl
@[simp] theorem State.raise_still (k : EvKind) (v : BitVec 3) : (s.raise k v).still = s.still := rfl
@[simp] theorem State.setRing_still (r : Nat) (v : Ring) : (s.setRing r v).still = s.still := rfl
@[simp] theorem State.setJob_still (j : Nat) (v : Job) : (s.setJob j v).still = s.still := rfl
@[simp] theorem State.setCkptJob_still (j : Nat) (v : Ckpt) : (s.setCkptJob j v).still = s.still := rfl
@[simp] theorem State.updFab_still (fd : Nat) (f : Fab → Fab) : (s.updFab fd f).still = s.still := rfl
@[simp] theorem State.updJob_still (j : Nat) (f : Job → Job) : (s.updJob j f).still = s.still := rfl
@[simp] theorem State.updHur_still (j : Nat) (h : BitVec 12) (f : Hur → Hur) : (s.updHur j h f).still = s.still := rfl
@[simp] theorem State.updCkptJob_still (j : Nat) (f : Ckpt → Ckpt) : (s.updCkptJob j f).still = s.still := rfl
@[simp] theorem State.countHold_still (fd h : Nat) : (s.countHold fd h).still = s.still := rfl

@[simp] theorem State.stuck_still {w : Nat} (off : Nat) (old new : BitVec w) : (s.stuck off old new).still = s.still := rfl

@[simp] theorem State.sendPacket_still (fd : Nat) (p : Packet) : (s.sendPacket fd p).still = s.still :=
  still_of_unsent (s.sendPacket_unsent fd p)

@[simp] theorem State.dropEvent_still (r : Nat) (ring : Ring) : (s.dropEvent r ring).still = s.still := rfl

@[simp] theorem State.event_still (r : Nat) (kind : Byte) (detail : List (Nat × Nat × Nat)) :
    (s.event r kind detail).still = s.still := by
  unfold State.event
  dsimp only
  split_ifs <;> simp

@[simp] theorem State.jobEvent_still (job : BitVec 16) (kind : Byte) (detail : List (Nat × Nat × Nat)) :
    (s.jobEvent job kind detail).still = s.still := still_foldl (fun s p => s.event_still p kind detail) _ _

@[simp] theorem State.complete_still (r : Nat) (tag : BitVec 16) (st : Status) (detail : List (Nat × Nat × Nat)) :
    (s.complete r tag st detail).still = s.still := by
  unfold State.complete
  dsimp only
  split <;> rfl

@[simp] theorem State.restoreEnd_still (j : Nat) (st : Status) : (s.restoreEnd j st).still = s.still := by
  unfold State.restoreEnd
  dsimp only
  split <;> split_ifs <;> simp

@[simp] theorem State.sendRelease_still (j : Nat) (h : BitVec 12) (g : Byte) (co : Coord) :
    (s.sendRelease j h g co).still = s.still := s.sendPacket_still _ _

@[simp] theorem State.redSend_still (j : Nat) (kind : Byte) (dst : Coord) (h : BitVec 12) (arg : Word) (l : List Byte) :
    (s.redSend j kind dst h arg l).still = s.still := s.sendPacket_still _ _

@[simp] theorem State.commitReleased_still (j : Nat) : (s.commitReleased j).still = s.still := by
  unfold State.commitReleased
  dsimp only
  split_ifs <;> rfl

@[simp] theorem State.hurRelease_still (j : Nat) (h : BitVec 12) : (s.hurRelease j h).still = s.still := by
  have hcommit : ∀ b : Bool, (if b then (s.updJob j fun x => { x with row := x.row + 1 }).commitReleased j else s).still
      = s.still := fun b => by cases b <;> simp
  have hkids : ∀ (u : State) (l : List Coord) (g : Byte),
      (l.foldl (fun (s : State) co => s.sendRelease j h g co) u).still = u.still :=
    fun u l g => still_foldl (fun s co => s.sendRelease_still j h g co) l u
  unfold State.hurRelease
  dsimp only
  split
  · rw [State.jobEvent_still, hkids, State.updJob_still, hcommit]
  · rw [hkids, State.updJob_still, hcommit]

@[simp] theorem State.hurAdvance_still (j : Nat) (h : BitVec 12) : (s.hurAdvance j h).still = s.still := by
  unfold State.hurAdvance
  dsimp only
  repeat' split
  all_goals simp

@[simp] theorem State.commitReady_still (j : Nat) (byHolder : Bool) : (s.commitReady j byHolder).still = s.still := by
  unfold State.commitReady
  dsimp only
  split <;> simp

@[simp] theorem State.goTwinless_still : s.goTwinless.still = s.still := by
  unfold State.goTwinless
  refine (still_foldl (fun s j => ?_) _ _).trans rfl
  split_ifs <;> simp

end

/-! ### Heartbeats -/

section
variable {s : State}

section
variable (hon : s.shepOn = true)
include hon

theorem execHeartbeatSend_due (hdue : s.shep.sbSentAt = none ∨ ∃ t, s.shep.sbSentAt = some t ∧ s.passed t 100000 = true) :
    execHeartbeatSend s = .next (({ s with shep := { s.shep with sbSentAt := some s.tb } } : State).sendSide 1 0) := by
  have hpassed : s.shep.sbSentAt.all (fun t => s.passed t 100000) = true := by
    rcases hdue with hnone | ⟨t, ht, hpassed⟩
    · rw [hnone]; rfl
    · rw [ht]; exact hpassed
  rw [execHeartbeatSend]
  exact doIf_true (by rw [hon, hpassed]; rfl)

omit hon in
theorem execHeartbeatSend_early {t : Word} (ht : s.shep.sbSentAt = some t) (hpassed : s.passed t 100000 = false) :
    execHeartbeatSend s = .next s := by
  rw [execHeartbeatSend, ht]
  exact doIf_false (by rw [Option.all_some, hpassed, Bool.and_false])

theorem execHeartbeat_garbled {f : SideFrame} (hcrc : f.crc ≠ sideCrc 1 f) :
    execHeartbeat f s = .next { s with shep := { s.shep with sbCrc := stickAdd s.shep.sbCrc 1 } } := by
  have hbad : sideGood 1 f = false := decide_eq_false hcrc
  rw [execHeartbeat, sideRx, hon, hbad]
  rfl

section
variable (hsilent : s.shep.sbSilent = false) (hlast : s.passed s.shep.sbLast 1000000 = true)
include hsilent hlast

theorem execHeartbeatSilence_silent {u : State}
    (hu : { s with shep := { s.shep with sbUp := false, sbSilent := s.twin.paired } } = u) :
    execHeartbeatSilence s = .next (if u.shep.hasCoord && u.twin.paired then u.ownReports.verdictAll else u) := by
  have hlast : s.passed s.shep.sbLast ticks10ms = true := hlast
  subst hu
  rw [execHeartbeatSilence]
  exact doIf_true (by rw [hon, hsilent, hlast]; rfl)

theorem execHeartbeatSilence_unpaired (hpaired : s.twin.paired = false) :
    execHeartbeatSilence s = .next { s with shep := { s.shep with sbUp := false, sbSilent := false } } := by
  rw [execHeartbeatSilence_silent hon hsilent hlast (by rw [hpaired]), if_neg (by simp [hpaired])]

theorem execHeartbeatSilence_paired (hpaired : s.twin.paired = true) (hcoord : s.shep.hasCoord = true) :
    execHeartbeatSilence s = .next
      ({ s with shep := { s.shep with sbUp := false, sbSilent := true } } : State).ownReports.verdictAll := by
  rw [execHeartbeatSilence_silent hon hsilent hlast (by rw [hpaired]), if_pos (by simp [hpaired, hcoord])]

end

end

/-! ### The twin's own reports and the handshake -/

section
variable {f : SideFrame} {n : Nat} {u : State}

/-- What a frame brings leaves the pair standing. -/
theorem sideFrom_twin (hears : SideHears s 3 f n ∨ SideHears s 2 f n) (hu : sideFrom s f n = u) :
    u.twin.paired = true ∧ f.sender = u.twin.coord := by
  subst hu
  rcases hears with ⟨-, -, hpaired, hsender, -⟩ | ⟨-, -, hpaired, hsender, -⟩ <;> exact ⟨hpaired, hsender⟩

section
variable (hears : SideHears s 3 f n) (hu : sideFrom s f n = u)
include hears hu

theorem execSidebandSelfReport_failed (hkind : f.kind = 1) : execSidebandSelfReport f s = .next
    (((u.goTwinless.withdrawOrder f.sender).updObsC f.sender fun o => { o with
      d := true, dAt := u.goTwinless.tb, suspended := false }).verdictCheck (posOf f.sender)) := by
  obtain ⟨hpaired, hsender⟩ := sideFrom_twin (Or.inl hears) hu
  rw [execSidebandSelfReport, sideRx_hears hears, hu, State.tb_of_still u.goTwinless_still]
  dsimp only
  rw [if_neg (by simp [hpaired, hsender]), if_pos (Or.inl hkind), if_pos (Or.inl hkind)]

theorem execSidebandSelfReport_suspended (hkind : f.kind = 5) : execSidebandSelfReport f s = .next
    (u.updObsC f.sender fun o => { o with suspended := true, suspAt := u.tb }) := by
  obtain ⟨hpaired, hsender⟩ := sideFrom_twin (Or.inl hears) hu
  rw [execSidebandSelfReport, sideRx_hears hears, hu]
  dsimp only
  rw [if_neg (by simp [hpaired, hsender]), if_neg (show ¬ (f.kind = 1 ∨ f.kind = 3) by rw [hkind]; decide),
    if_pos (Or.inr hkind), if_neg (by rw [hkind]; decide)]

end

section
variable (hears : SideHears s 2 f n) (hu : sideFrom s f n = u)
include hears hu

theorem execHandshake_answered (hdigest : u.coordOfDigest f.digest = some f.sender) (hcoord : u.shep.hasCoord = true)
    (hvalid : u.cast.coordValid = true) (hfirst : u.twin.sentHandshake = false) :
    execHandshake f s = .next u.sendHandshake.shakeHands := by
  obtain ⟨hpaired, hsender⟩ := sideFrom_twin (Or.inr hears) hu
  rw [execHandshake, sideRx_hears hears, hu]
  dsimp only
  rw [if_neg (by simp [hpaired]), if_neg (not_or_intro (not_not_intro hsender) (not_not_intro hdigest)),
    if_neg (by simp [hcoord, hvalid]), if_pos (by simp [hfirst])]

theorem execHandshake_crossed (hdigest : u.coordOfDigest f.digest ≠ some f.sender) : execHandshake f s = .next
    ((({ u with twin := { u.twin with crossed := true, twinless := true, handshake := false } } : State).raise
      .crossed 3).sendCtl 4 [f.sender.toNat, f.digest.toNat]) := by
  obtain ⟨hpaired, -⟩ := sideFrom_twin (Or.inr hears) hu
  rw [execHandshake, sideRx_hears hears, hu]
  dsimp only
  rw [if_neg (by simp [hpaired]), if_pos (Or.inr hdigest)]

end

end

/-! ### The bind-off -/

theorem execBindOffCommit_commits (hon : s.shepOn = true) (hopen : s.twin.bindOff.isSome = true) (hidle : s.pwr.drain = none)
    (htransit : s.pwr.transit = true) (hbound : s.boundOff = true) : ∃ u, execBindOffCommit s = .next u ∧
      u.shep.penned = true ∧ (∃ x, u.pwr.drain = some (.bindOff x, s.tb)) := by
  refine ⟨_, doIf_true ?_, ?_⟩
  · rw [hon, hopen, hidle, htransit, hbound]
    rfl
  · exact ⟨rfl, _, rfl⟩

section
variable {r : Nat} {blk : Block} (hstarts : Starts s r 0x24 blk)
include hstarts

theorem execBindOff_begins (hnone : s.twin.bindOff = none) (hidle : s.pwr.drain = none) :
    execBindOff r s = .next ((started s r).beginBindOff (some (r, blkTag blk))) := by
  have hnone : (started s r).twin.bindOff = none := hnone
  have hidle : (started s r).pwr.drain = none := hidle
  rw [execBindOff, hostCmd_starts hstarts]
  dsimp only
  rw [hnone, hidle]
  rfl

theorem execBindOff_joins {t : Word} (hopen : s.twin.bindOff = some (none, t)) {u : State} (hu : u = started s r) :
    execBindOff r s = .next { u with twin := { u.twin with bindOff := some (some (r, blkTag blk), t) } } := by
  have hopen : (started s r).twin.bindOff = some (none, t) := hopen
  subst hu
  rw [execBindOff, hostCmd_starts hstarts]
  dsimp only
  rw [hopen]

theorem execBindOff_busy {c : Nat × BitVec 16} {t : Word} (hopen : s.twin.bindOff = some (some c, t)) :
    execBindOff r s = .next ((started s r).complete r (blkTag blk) stBusy) := by
  have hopen : (started s r).twin.bindOff = some (some c, t) := hopen
  rw [execBindOff, hostCmd_starts hstarts]
  dsimp only
  rw [hopen]

end

end

/-- Settles O52: each command of the twin sideband has its equation. -/
theorem twinSideband : Obligations.TwinSideband := by
  refine fun s hon => ⟨?due, ?early, ?heartbeat, ?garbled, ?unpaired, ?silent, ?reports, ?handshake, ?commit, ?command⟩
  case due => exact fun hdue => (execHeartbeatSend_due hon hdue : execHeartbeatSend s = _)
  case early => exact fun t ht hpassed => (execHeartbeatSend_early ht hpassed : execHeartbeatSend s = _)
  case heartbeat => exact fun f n hears => (sideRx_hears hears : execHeartbeat f s = _)
  case garbled => exact fun f hcrc => (execHeartbeat_garbled hon hcrc : execHeartbeat f s = _)
  case unpaired =>
    exact fun hsilent hlast hpaired => (execHeartbeatSilence_unpaired hon hsilent hlast hpaired : execHeartbeatSilence s = _)
  case silent =>
    exact fun hsilent hlast hpaired hcoord =>
      (execHeartbeatSilence_paired hon hsilent hlast hpaired hcoord : execHeartbeatSilence s = _)
  case reports =>
    exact fun f n hears => ⟨fun hkind => (execSidebandSelfReport_failed hears rfl hkind : execSidebandSelfReport f s = _),
      fun hkind => (execSidebandSelfReport_suspended hears rfl hkind : execSidebandSelfReport f s = _)⟩
  case handshake =>
    exact fun f n hears => ⟨fun hdigest hcoord hvalid hfirst =>
        (execHandshake_answered hears rfl hdigest hcoord hvalid hfirst : execHandshake f s = _),
      fun hdigest => (execHandshake_crossed hears rfl hdigest : execHandshake f s = _)⟩
  case commit =>
    exact fun hopen hidle htransit hbound => execBindOffCommit_commits hon hopen hidle htransit hbound
  case command =>
    exact fun r blk hstarts => ⟨fun hnone hidle => (execBindOff_begins hstarts hnone hidle : execBindOff r s = _),
      fun t hopen => ⟨_, rfl, (execBindOff_joins hstarts hopen rfl : execBindOff r s = _)⟩,
      fun c t hopen => (execBindOff_busy hstarts hopen : execBindOff r s = _)⟩

end Sys2Proof.Machine
end

section
/-! Checkpoint, import and TINK commands (11, R289 to R298). -/

namespace Sys2Proof.Machine

open Sys2Proof

section
variable {r j res lim : Nat} {blk : Block} {s u : State} {job : BitVec 16}

/-! ### CHECKPOINT_CONFIG -/

section
variable {m : List (Nat × Nat)} (hstarts : Starts s r 0x06 blk) (hu : started s r = u)
  (hjob : BitVec.ofNat 16 (fieldB blk 10 2) = job)
include hstarts hu hjob

theorem execCheckpointConfig_noJob (hslot : u.slotOfJob job = none) :
    execCheckpointConfig r true m s = .next (u.complete r (blkTag blk) stNoJob) := by
  rw [execCheckpointConfig, hostCmd_starts hstarts, hu]
  dsimp only
  rw [hjob, hslot]

variable (hslot : u.slotOfJob job = some j) (hpart : u.jobOfPart r = job) (hres : fieldB blk 12 2 = res)
  (hlim : fieldB blk 14 2 = lim) {v : State} (hv : v = u.updCkptJob j (fun c => { c with
    map := if fieldB blk 32 4 = 0 then none else some m
    reserveGib := res
    limitGib := lim
    exportEvery := nth blk 16 0 }))
  (hsizes : res % 16 = 0 ∧ res ≤ 1024 ∧ lim % 16 = 0 ∧ lim < res)
include hslot hpart hres hlim hv hsizes

theorem execCheckpointConfig_exceeded (hcovered : lim * 0x40000000 < v.coveredBytes j) :
    execCheckpointConfig r true m s = .next (u.complete r (blkTag blk) stLimit) := by
  obtain ⟨hres16, hmost, hlim16, hless⟩ := hsizes
  subst hv
  rw [execCheckpointConfig, hostCmd_starts hstarts, hu]
  dsimp only
  rw [hjob, hslot, hres, hlim, gib]
  dsimp only
  rw [if_neg (not_not_intro hpart), if_neg (by decide), if_neg (by omega), if_pos hcovered]

theorem execCheckpointConfig_sets (hcovered : v.coveredBytes j ≤ lim * 0x40000000) (halone : u.twin.twinless = true) :
    execCheckpointConfig r true m s = .next (v.complete r (blkTag blk) stOk) := by
  obtain ⟨hres16, hmost, hlim16, hless⟩ := hsizes
  subst hv
  rw [execCheckpointConfig, hostCmd_starts hstarts, hu]
  dsimp only
  rw [hjob, hslot, hres, hlim, gib]
  dsimp only
  rw [if_neg (not_not_intro hpart), if_neg (by decide), if_neg (by omega), if_neg (Nat.not_lt.2 hcovered),
    if_neg (by simp [halone])]

end

/-! ### TINK -/

section
variable (hstarts : Starts s r 0x05 blk) (hu : started s r = u) (hjob : BitVec.ofNat 16 (fieldB blk 10 2) = job)
  (hslot : u.slotOfJob job = some j)
include hstarts hu hjob hslot

theorem execTink_busy (hrestore : (u.ckptJob j).restoreTag.isSome = true) :
    execTink r s = .next (u.complete r (blkTag blk) stBusy) := by
  rw [execTink, hostCmd_starts hstarts, hu]
  dsimp only
  rw [hjob, hslot, Option.any_some, hrestore, if_pos rfl]

/-- The state in which a job begins to be restored at a row and a generation, from the granules it needs. -/
def State.tinked (u : State) (r j : Nat) (job : BitVec 16) (gen : Byte) (row : Word) (tag : BitVec 16) (need : List Nat) : State :=
  ((({ u with
      jobHolds := u.jobHolds ++ [(job, (u.job j).jobGen, u.tb)]
      partJob := tabSet (fun _ => (0xFFFF : BitVec 16)) u.partJob r job } : State).dropEarly j).updJob j fun x => { x with
        jobGen := gen, row := row, hasRow := true, unfit := false, hurs := [], reds := [], lastHur := 0
        lastHurGen := 0 }).updCkptJob j fun c => { c with
          state := 4, unacked := [], sealedAt := false, needed := need, needAll := false, parts := [], restored := []
          total := none, restoreTag := some (r, tag) }

omit hstarts hu hjob hslot in
/-- A job of a slot needs some granules, and never all that the holder keeps. -/
theorem State.restoreNeeds_kept (u : State) (j : Nat) (row : Word) : (u.restoreNeeds j row false).2 = false := by
  rw [State.restoreNeeds, if_neg Bool.false_ne_true]
  split <;> rfl

variable (hidle : (u.ckptJob j).restoreTag = none) (hheld : u.heldFor job = none) {gen : Byte} {row : Word} {need : List Nat}
  (hgen : BitVec.ofNat 8 (fieldB blk 12 1) = gen) (hrow : BitVec.ofNat 64 (fieldB blk 16 8) = row)
  (hneed : (u.restoreNeeds j row false).1 = need) {w : State} (hw : u.tinked r j job gen row (blkTag blk) need = w)
include hidle hheld hgen hrow hneed hw

theorem execTink_restores {v : State} (hends : (if u.twin.twinless then (if need.isEmpty then w else w.restoreEnd j stTwinUe)
    else w.askRestore j) = v) : execTink r s = .next v := by
  have htake : u.takeSlot job gen = (u, some j) := State.takeSlot_of_slot hslot
  have hkept : decide ((some j : Option Nat) = none) = false := rfl
  subst hends hw
  rw [execTink, hostCmd_starts hstarts, hu]
  dsimp only
  rw [hjob, hgen, hrow, hslot, Option.any_some, hidle, htake, if_neg (by decide)]
  dsimp only
  rw [hheld, hkept]
  dsimp only
  rw [if_neg Bool.false_ne_true, if_neg Bool.false_ne_true, u.restoreNeeds_kept j row, hneed]
  dsimp only
  rw [Bool.and_false, Bool.not_false, Bool.and_true]
  rfl

end

/-! ### RESTORE_COMPLETE -/

theorem execRestoreComplete_ends (hon : s.shepOn = true) (hj : j < 8) (hstate : (s.ckptJob j).state = 4)
    (hneeded : (s.ckptJob j).needed = [])
    (hall : (s.ckptJob j).needAll = false ∨ ∃ n, (s.ckptJob j).total = some n ∧ n ≤ (s.ckptJob j).restored.length)
    {q : Nat} {tg : BitVec 16} (htag : (s.ckptJob j).restoreTag = some (q, tg)) : execRestoreComplete j s = .next
      ((s.setCkptJob j { s.ckptJob j with
        state := 0
        dirty := []
        frozen := []
        needed := []
        needAll := false
        parts := []
        restored := []
        total := none
        restoreTag := none }).complete q tg stOk) := by
  have hrestored : (s.ckptJob j).restoredAll = true := by
    rw [Ckpt.restoredAll, hneeded]
    rcases hall with hsome | ⟨n, hn, hle⟩
    · rw [hsome]; rfl
    · rw [hn, Option.any_some, decide_eq_true hle, Bool.or_true]; rfl
  rw [execRestoreComplete, hrestored, htag, doIf_true (by rw [hon, decide_eq_true ⟨hj, hstate⟩]; rfl), State.restoreEnd]
  dsimp only
  rw [htag, if_pos rfl]

/-! ### CHECKPOINT_IMPORT -/

section
variable {manifest : List Byte} {grans : List (List Byte)} (hstarts : Starts s r 0x07 blk) (hu : started s r = u)
  (hjob : BitVec.ofNat 16 (fieldB blk 10 2) = job) (hslot : u.slotOfJob job = some j) (hpart : u.jobOfPart r = job)
  (hidle : (u.ckptJob j).restoreTag = none)
include hstarts hu hjob hslot hpart hidle

theorem execCheckpointImport_otherRow (hrow : (u.job j).row ≠ BitVec.ofNat 64 (fieldB blk 16 8)) :
    execCheckpointImport r manifest grans s = .next (u.complete r (blkTag blk) stRowMismatch) := by
  rw [execCheckpointImport, hostCmd_starts hstarts, hu]
  dsimp only
  rw [hjob, hslot]
  dsimp only
  rw [if_neg (not_not_intro hpart), if_neg (by simp [hidle]), if_pos hrow]

variable (hrow : (u.job j).row = BitVec.ofNat 64 (fieldB blk 16 8)) {data : Option (List (List Byte))}
  (hdata : u.importData j (BitVec.ofNat 128 (fieldB blk 24 16)) manifest grans = data)
include hrow hdata

theorem execCheckpointImport_refused (hnone : data = none) :
    execCheckpointImport r manifest grans s = .next (u.complete r (blkTag blk) stAuth) := by
  rw [execCheckpointImport, hostCmd_starts hstarts, hu]
  dsimp only
  rw [hjob, hslot]
  dsimp only
  rw [if_neg (not_not_intro hpart), if_neg (by simp [hidle]), if_neg (not_not_intro hrow), hdata, hnone]

theorem execCheckpointImport_writes {plain : List (List Byte)} (hsome : data = some plain) :
    execCheckpointImport r manifest grans s = .next
      (((((u.allGrans j).zip plain).foldl (fun (w : State) e => w.putGran e.1 e.2) u).updCkptJob j fun c => { c with
        state := 0
        dirty := []
        frozen := []
        needed := []
        needAll := false
        fullNext := true }).complete r (blkTag blk) stOk) := by
  rw [execCheckpointImport, hostCmd_starts hstarts, hu]
  dsimp only
  rw [hjob, hslot]
  dsimp only
  rw [if_neg (not_not_intro hpart), if_neg (by simp [hidle]), if_neg (not_not_intro hrow), hdata, hsome]

end

end

/-- Settles O54: each command of the checkpoints has its equation. -/
theorem checkpointCommands : Obligations.CheckpointCommands := by
  refine fun r j blk s => ⟨?config, ?noJob, ?tink, ?busy, ?complete, ?import_⟩
  case config =>
    intro m hstarts hslot hpart hres16 hmost hlim16 hless
    exact ⟨_, rfl, fun hcovered halone => (execCheckpointConfig_sets hstarts rfl rfl hslot hpart rfl rfl rfl
        ⟨hres16, hmost, hlim16, hless⟩ hcovered halone : execCheckpointConfig r true m s = _),
      fun hcovered => (execCheckpointConfig_exceeded hstarts rfl rfl hslot hpart rfl rfl rfl
        ⟨hres16, hmost, hlim16, hless⟩ hcovered : execCheckpointConfig r true m s = _)⟩
  case noJob =>
    exact fun m hstarts hslot => (execCheckpointConfig_noJob hstarts rfl rfl hslot : execCheckpointConfig r true m s = _)
  case tink =>
    intro hstarts hslot hidle hheld
    refine ⟨fun hneed halone => (execTink_restores hstarts rfl rfl hslot hidle hheld rfl rfl rfl rfl ?_ : execTink r s = _),
      fun hneed halone => (execTink_restores hstarts rfl rfl hslot hidle hheld rfl rfl rfl rfl ?_ : execTink r s = _),
      fun hpair => (execTink_restores hstarts rfl rfl hslot hidle hheld rfl rfl rfl rfl ?_ : execTink r s = _)⟩
    · exact (if_pos halone).trans (if_pos (List.isEmpty_iff.2 hneed))
    · exact (if_pos halone).trans (if_neg fun h => hneed (List.isEmpty_iff.1 h))
    · exact if_neg (hpair ▸ Bool.false_ne_true)
  case busy =>
    exact fun hstarts hslot hrestore => (execTink_busy hstarts rfl rfl hslot hrestore : execTink r s = _)
  case complete =>
    exact fun hon hj hstate hneeded hall q tg htag =>
      (execRestoreComplete_ends hon hj hstate hneeded hall htag : execRestoreComplete j s = _)
  case import_ =>
    intro manifest grans hstarts hslot hpart hidle
    refine ⟨fun plain hrow hdata => (execCheckpointImport_writes hstarts rfl rfl hslot hpart hidle hrow rfl hdata :
        execCheckpointImport r manifest grans s = _),
      fun hrow hdata => (execCheckpointImport_refused hstarts rfl rfl hslot hpart hidle hrow rfl hdata :
        execCheckpointImport r manifest grans s = _),
      fun hdigest => if_pos hdigest,
      fun hrow => (execCheckpointImport_otherRow hstarts rfl rfl hslot hpart hidle hrow :
        execCheckpointImport r manifest grans s = _)⟩

end Sys2Proof.Machine
end

section
/-! The stages CO0 to CO5 of cast-on (12, R311 to R314). -/

namespace Sys2Proof.Machine

open Sys2Proof

/-! ### A table of memory dies that lists one die twice

The statement asks for no canonical form of the table of the memory dies. Where it lists die 0 twice, and its channels have
no rate in common, setting rate 0 makes the first entry the default one, that entry goes, and the second stands. -/

/-- Stage CO4 runs, and memory die 0 stands twice in its table. -/
def twiceTrained : State := {
  pwr := { aux := true }
  cast := { running := true, stage := 4 }
  mds := [(0, { rate := 1 }), (0, { rate := 2 })] }

/-- Two channels of die 0 that qualify at different rates. -/
def noCommonRate : List (Nat × Nat × BitVec 5) := [(0, 0, 17), (0, 1, 9)]

theorem co4Bad_twiceTrained : twiceTrained.co4Bad noCommonRate = [] := by decide

theorem co4Rate_noCommonRate : co4Rate noCommonRate [] 0 = 0 := by decide

theorem rate_twiceTrained : ((twiceTrained.co4Train noCommonRate).md 0).rate = 2 := by decide

/-- Refutes O55: on `twiceTrained` die 0 is left with the rate of its second entry, though no rate suits its channels. -/
theorem not_castOnStagesCo0ToCo5 : ¬ Obligations.CastOnStagesCo0ToCo5 := by
  intro hstages
  obtain ⟨-, -, -, -, -, -, hco4, -⟩ := hstages twiceTrained
  obtain ⟨hrate, -⟩ := hco4 (by decide) noCommonRate []
  have hzero := hrate 0 (by decide)
  rw [rate_twiceTrained, co4Bad_twiceTrained, co4Rate_noCommonRate] at hzero
  revert hzero
  decide

end Sys2Proof.Machine
end

section
/-! The stages CO6 to CO9 of cast-on, retries, the plan, and the end of a stage (12, R305 to R327, R358). -/

namespace Sys2Proof.Machine

open Sys2Proof

section
variable {s : State}

/-! ### Lanes and light -/

section
variable (hat : s.atStage 6 = true)
include hat

theorem execCastOnCo6_trains {lanes os : List LaneOutcome} {n : Nat} {u : State}
    (hos : (lanes.filter (fun o => decide (o.lane < 384) && o.partner.isSome)).map s.laneEnd = os)
    (hn : countIf os s.laneQuick = n)
    (hu : (List.range 24).foldl (fun (v : State) p => v.trainPort os (decide (s.cast.run = .refclk)) (p / 12) (p % 12))
      (s.qualify os) = u) : ∃ d, execCastOnCo6 lanes s = .next (((u.setFast 1 n (os.length - n)).saveLanes os).endStage
        { result := if (byResult os 3).isEmpty then 0 else 1, d := d, fast := decide (n ≠ 0) }) := by
  subst hos hn hu
  refine ⟨?data, ?next⟩
  case next =>
    rw [execCastOnCo6, hat, if_neg (by decide)]
    simp only [List.length_eq_zero_iff, List.isEmpty_iff]
    rfl

end

section
variable {sources : List (Option SourceTaps)} {gauges : List (List Byte × Bool)} {temps : List (BitVec 16)}
  {lanes : List LaneOutcome}

theorem execCastOnCo7_waits (hawaited : s.ecsAwaited = true) (hearly : s.passed s.cast.stageStart (stageLimit 7) = false) :
    execCastOnCo7 sources gauges temps lanes s = .next s := by
  rw [execCastOnCo7, hawaited, hearly]
  exact if_pos (by simp)

variable (hat : s.atStage 7 = true) (hpresent : s.ecsAwaited = false)
include hat hpresent

theorem execCastOnCo7_noSource (hmissing : (List.range 4).any (fun x => (s.co7Source sources x).isNone) = true) :
    ∃ d, execCastOnCo7 sources gauges temps lanes s =
      .next ((s.checkSources sources).endStage { result := 2, fault := 9, d := d }) := by
  refine ⟨?data, ?next⟩
  case next =>
    rw [execCastOnCo7, hat, hpresent, if_neg (by simp)]
    dsimp only
    rw [hmissing, if_pos rfl]
    rfl

section
variable (hall : (List.range 4).any (fun x => (s.co7Source sources x).isNone) = false) {valid : List Nat}
  (hvalid : (List.range 4).filter (s.gaugeValid gauges) = valid) {u v : State}
  (hu : s.co7Start sources valid gauges temps = u) {ys : List Yarn} (hys : u.co7Yarns = ys)
  (hv : ys.foldl State.seekYarn u = v) {os : List LaneOutcome}
  (hos : (if ys.isEmpty then [] else (opticalOnes lanes).map s.laneEnd) = os)
include hall hvalid hu hys hv hos

theorem execCastOnCo7_noEngine (hsome : valid ≠ []) (hnone : valid.filter (fun n => (v.engine n).run) = []) :
    ∃ d, execCastOnCo7 sources gauges temps lanes s =
      .next ((v.qualify os).endStage { result := 2, fault := 10, d := d }) := by
  refine ⟨?data, ?next⟩
  case next =>
    rw [execCastOnCo7, hat, hpresent, if_neg (by simp)]
    dsimp only
    rw [hall, if_neg Bool.false_ne_true, hvalid, hu, hys, hv, hos, hnone, if_pos (by simpa using hsome)]
    rfl

theorem execCastOnCo7_lights {n : Nat} (hn : countIf ys v.yarnFast = n)
    (hstarted : valid = [] ∨ valid.filter (fun n => (v.engine n).run) ≠ []) : ∃ res d, (res = 0 ∨ res = 1) ∧
      execCastOnCo7 sources gauges temps lanes s = .next
        (((((v.qualify os).setFast 2 n (ys.length - n)).saveLanes os).saveYarns ys).endStage
          { result := res, d := d, fast := decide (n ≠ 0) }) := by
  refine ⟨?result, ?data, ?small, ?next⟩
  case next =>
    rw [execCastOnCo7, hat, hpresent, if_neg (by simp)]
    dsimp only
    rw [hall, if_neg Bool.false_ne_true, hvalid, hu, hys, hv, hos, hn, if_neg (by simpa [or_iff_not_imp_left] using hstarted)]
  case small =>
    split
    · exact Or.inl rfl
    · exact Or.inr rfl

end

end

/-! ### Discovery and the flock -/

section
variable {lanes : List LaneOutcome} {p : Plan} (hat : s.atStage 8 = true) (howned : s.flash.owned = true)
  (hplan : s.flash.settings.plan = some p) (hrun : s.cast.run ≠ .joining)
include hat howned hplan hrun

theorem execCastOnCo8_discovers {c : Coord} (hc : s.coordOfDigest s.ownDigest = some c) :
    execCastOnCo8 lanes s = .next (s.runCo8 p c lanes) := by
  rw [execCastOnCo8, hat, howned, if_neg (by decide), hplan]
  dsimp only
  rw [if_neg hrun, hc]

theorem execCastOnCo8_notInPlan (hc : s.coordOfDigest s.ownDigest = none) :
    ∃ d, execCastOnCo8 lanes s = .next (s.endStage { result := 2, fault := 11, d := d }) := by
  refine ⟨?data, ?next⟩
  case next =>
    rw [execCastOnCo8, hat, howned, if_neg (by decide), hplan]
    dsimp only
    rw [if_neg hrun, hc]
    rfl

end

theorem execCastOnCo9_joins (hat : s.atStage 9 = true) : execCastOnCo9 s = .next
    (if s.joinFlock.twin.paired && !s.joinFlock.twin.handshake then s.joinFlock else s.joinFlock.endCo9) := by
  rw [execCastOnCo9, hat, if_neg (by decide)]

/-! ### Limits and retries -/

theorem execStageTimeout_fails {st : Nat} (hst : st < 8) (hat : s.atStage st = true) (hsource : st ≠ 7 ∨ s.ecsAwaited = false)
    (hpassed : s.passed s.cast.stageStart (stageLimit st) = true) : execStageTimeout s = .next
      (s.endStage { result := 2, fault := 1, d := List.replicate 7 0xFFFFFFFF }) := by
  have hstage : s.cast.stage.toNat = st := by
    simp only [State.atStage, Bool.and_eq_true, decide_eq_true_eq] at hat
    obtain ⟨⟨-, hstage⟩, -⟩ := hat
    exact hstage
  have hfault : (if decide (st = 8) && !s.flash.owned then sfNoOwner
      else if decide (st = 7) && s.ecsAwaited then sfNoEcs else sfTimeout) = 1 := by
    rw [if_neg (by simp; omega), if_neg (by simpa [or_iff_not_imp_left] using hsource)]
    rfl
  rw [execStageTimeout]
  rw [hstage, if_neg (show st ≠ 8 by omega), hfault, doIf_true (by rw [hat, hpassed]; rfl), if_neg (by simp; omega)]
  rfl

theorem execCastRetry_goesOn (haux : s.pwr.aux = true) (hheld : s.cast.held = true) (hsound : s.shep.hard = false) {first : Nat}
    (hfirst : (if s.cast.hold = 1 then 0 else if s.cast.hold = 2 then 2 else s.cast.failedStage.toNat) = first) :
    ∃ u, execCastRetry s = .next u ∧ u.cast.running = true ∧ u.cast.retried = true ∧ u.cast.held = false ∧
      u.cast.stage = BitVec.ofNat 4 first := by
  subst hfirst
  exact ⟨_, doIf_true (by rw [haux, hheld, hsound]; rfl), rfl, rfl, rfl, rfl⟩

theorem execPlanWaitRetry_goesOn (hon : s.shepOn = true) (hheld : s.cast.held = true) (hwait : s.cast.planWait = true)
    (hhold : s.cast.hold = 3) (hsound : s.shep.hard = false) (hstart : s.passed s.cast.stageStart 1000000000 = true)
    (hretry : s.passed s.cast.lastRetry 1000000000 = true) : ∃ u, execPlanWaitRetry s = .next u ∧ u.cast.running = true ∧
      u.cast.stage = 8 ∧ u.cast.retried = true ∧ u.cast.lastRetry = s.tb := by
  have hstart : s.passed s.cast.stageStart ticks10s = true := hstart
  have hretry : s.passed s.cast.lastRetry ticks10s = true := hretry
  refine ⟨_, doIf_true ?_, rfl, rfl, rfl, rfl⟩
  rw [hon, hheld, hwait, decide_eq_true hhold, hsound, hstart, hretry]
  rfl

theorem execHoldReport_reports (hon : s.shepOn = true) (howned : s.flash.owned = true) (hheld : s.cast.held = true)
    (hhold : s.cast.hold = 2 ∨ s.cast.hold = 3) (hpassed : s.passed s.cast.lastReport 6000000000 = true) :
    execHoldReport s = .next (({ s with cast := { s.cast with lastReport := s.tb } } : State).sendCtl 5
      (s.ownDigest.toNat :: (reportBytes (s.report s.cast.failedStage.toNat)).map (·.toNat))) := by
  have hpassed : s.passed s.cast.lastReport ticksMin = true := hpassed
  rw [execHoldReport]
  exact doIf_true (by rw [hon, howned, hheld, decide_eq_true hhold, hpassed]; rfl)

/-! ### The plan -/

section
variable {r : Nat} {blk : Block} {plan : Plan} {dg : BitVec 256} (hstarts : StartsEarly s r 0x25 blk)
  (howned : s.flash.owned = true)
include hstarts howned

theorem execPlanLoad_signed {ok : Bool} (hok : s.planOk plan = ok) : execPlanLoad r true true plan dg s = .next
    (if !ok then (started s r).complete r (blkTag blk) stAuth
      else ((started s r).acceptPlan plan dg).complete r (blkTag blk) stOk) := by
  have howned : (started s r).flash.owned = true := howned
  have hok : (started s r).planOk plan = ok := hok
  rw [execPlanLoad, hostCmd_startsEarly hstarts]
  rw [if_neg (by decide), howned, if_neg (by decide), if_neg (by decide), hok]

theorem execPlanLoad_unsigned :
    execPlanLoad r true false plan dg s = .next (((started s r).authFail 4).complete r (blkTag blk) stAuth) := by
  have howned : (started s r).flash.owned = true := howned
  rw [execPlanLoad, hostCmd_startsEarly hstarts]
  rw [if_neg (by decide), howned, if_neg (by decide), if_pos (by decide)]

end

theorem execPlanMessage_accepts {h : CtlHdr} {plan : Plan} {dg : BitVec 256} (haux : s.pwr.aux = true)
    (howned : s.flash.owned = true) (hhold : s.cast.hold ≠ 1) (hcheck : s.ctlFail h = none) (hok : s.planOk plan = true) :
    execPlanMessage h true plan dg s = .next ((s.seqAccept h true).acceptPlan plan dg) := by
  have hok : (s.seqAccept h true).planOk plan = true := hok
  rw [execPlanMessage, ctlMsg_passes haux howned hhold hcheck]
  rw [if_neg (by decide), hok, if_pos rfl]

/-! ### The end of a stage -/

section
variable {e : StageEnd}

/-- The state in which a stage that ends has its report. -/
def State.reportedStage (s : State) (e : StageEnd) : State := { s.writeReport e with
  cast := { (s.writeReport e).cast with degraded := (s.writeReport e).cast.degraded || decide (e.result = 1) } }

theorem State.endStage_fails (hresult : e.result = 2) : s.endStage e = (s.reportedStage e).holdState e := by
  rw [State.endStage, if_pos hresult]
  rfl

section
variable (hresult : e.result = 0 ∨ e.result = 1)
include hresult

theorem State.endStage_paddock (hstage : s.cast.stage = 7) (hrun : s.cast.run = .main)
    (hready : (s.reportedStage e).padReady = true) : s.endStage e = (s.reportedStage e).enterPaddock := by
  rw [State.endStage]
  dsimp only
  rw [if_neg (by rcases hresult with h | h <;> rw [h] <;> decide), if_neg (by rcases hresult with h | h <;> rw [h] <;> decide),
    ← State.reportedStage, hready, decide_eq_true ⟨hstage, hrun⟩, Bool.true_and, if_pos rfl]

variable (hpaddock : s.cast.stage ≠ 7 ∨ s.cast.run ≠ .main ∨ (s.reportedStage e).padReady = false)
include hpaddock

omit hresult in
theorem notToPaddock : (decide (s.cast.stage = 7 ∧ s.cast.run = .main) && (s.reportedStage e).padReady) = false := by
  rcases hpaddock with hstage | hrun | hready
  · rw [decide_eq_false fun h => hstage h.1, Bool.false_and]
  · rw [decide_eq_false fun h => hrun h.2, Bool.false_and]
  · rw [hready, Bool.and_false]

theorem State.endStage_next {n : Nat}
    (hnext : (s.reportedStage e).cast.run.next (s.reportedStage e).cast.stage.toNat = some n) :
    s.endStage e = (s.reportedStage e).startStage n := by
  have hnext : (s.writeReport e).cast.run.next (s.writeReport e).cast.stage.toNat = some n := hnext
  rw [State.endStage]
  dsimp only
  rw [if_neg (by rcases hresult with h | h <;> rw [h] <;> decide), if_neg (by rcases hresult with h | h <;> rw [h] <;> decide),
    ← State.reportedStage, notToPaddock hpaddock, if_neg Bool.false_ne_true, hnext]

theorem State.endStage_last (hnext : (s.reportedStage e).cast.run.next (s.reportedStage e).cast.stage.toNat = none) :
    s.endStage e = (s.reportedStage e).endRun := by
  have hnext : (s.writeReport e).cast.run.next (s.writeReport e).cast.stage.toNat = none := hnext
  rw [State.endStage]
  dsimp only
  rw [if_neg (by rcases hresult with h | h <;> rw [h] <;> decide), if_neg (by rcases hresult with h | h <;> rw [h] <;> decide),
    ← State.reportedStage, notToPaddock hpaddock, if_neg Bool.false_ne_true, hnext]

end

end

end

/-- Settles O56: each stage from CO6, each retry, the plan and the end of a stage has its equation. -/
theorem castOnStagesCo6ToEnd : Obligations.CastOnStagesCo6ToEnd := by
  refine ⟨fun s => ⟨?co6, ?awaited, ?co7, ?co8, ?co9, ?limit, ?retry, ?planWait, ?report, ?plan, ?message⟩,
    fun s e => ⟨State.endStage_fails, ?paddock, ?next, ?last, rfl, rfl, rfl, rfl, ?holds, ?runs⟩⟩
  case co6 => exact fun hat lanes => execCastOnCo6_trains hat rfl rfl rfl
  case awaited =>
    exact fun hat hawaited hearly a b c d => (execCastOnCo7_waits hawaited hearly : execCastOnCo7 a b c d s = _)
  case co7 =>
    intro hat hpresent sources gauges temps lanes
    exact ⟨fun hmissing => execCastOnCo7_noSource hat hpresent hmissing, fun hall =>
      ⟨fun hsome hnone => execCastOnCo7_noEngine hat hpresent hall rfl rfl rfl rfl rfl hsome hnone,
        fun hstarted => execCastOnCo7_lights hat hpresent hall rfl rfl rfl rfl rfl rfl hstarted⟩⟩
  case co8 =>
    exact fun hat howned lanes p hplan =>
      ⟨fun c hrun hc => (execCastOnCo8_discovers hat howned hplan hrun hc : execCastOnCo8 lanes s = _),
        fun hrun hc => execCastOnCo8_notInPlan hat howned hplan hrun hc⟩
  case co9 =>
    intro hat
    refine ⟨fun hjoined => ?_, fun hpaired hwaits => ?_⟩
    · exact ((execCastOnCo9_joins hat).trans (congrArg _ (if_neg (by rcases hjoined with h | h <;> simp [h]))) :
        execCastOnCo9 s = _)
    · exact ((execCastOnCo9_joins hat).trans (congrArg _ (if_pos (by simp [hpaired, hwaits]))) : execCastOnCo9 s = _)
  case limit =>
    exact fun st hst hat hsource hpassed => (execStageTimeout_fails hst hat hsource hpassed : execStageTimeout s = _)
  case retry =>
    intro haux hheld hsound
    obtain ⟨u, hu, hrunning, hretried, hnotHeld, hstage⟩ := execCastRetry_goesOn haux hheld hsound rfl
    refine ⟨u, _, hu, hrunning, hretried, hnotHeld, hstage, fun hhold => ?_, fun hhold => ?_, fun hhold => ?_⟩
    · rw [if_pos hhold]
      rfl
    · rw [hhold]
      rfl
    · rw [hhold]
      exact (BitVec.ofNat_toNat 4 _).trans (BitVec.setWidth_eq _)
  case planWait =>
    exact fun hon hheld hwait hhold hsound hstart hretry => execPlanWaitRetry_goesOn hon hheld hwait hhold hsound hstart hretry
  case report =>
    exact fun hon howned hheld hhold hpassed => (execHoldReport_reports hon howned hheld hhold hpassed : execHoldReport s = _)
  case plan =>
    exact fun r blk plan dg hstarts howned =>
      ⟨fun hok => (execPlanLoad_signed hstarts howned hok : execPlanLoad r true true plan dg s = _),
        fun hok => (execPlanLoad_signed hstarts howned hok : execPlanLoad r true true plan dg s = _),
        (execPlanLoad_unsigned hstarts howned : execPlanLoad r true false plan dg s = _)⟩
  case message =>
    exact fun h plan dg haux howned hhold hcheck hok =>
      (execPlanMessage_accepts haux howned hhold hcheck hok : execPlanMessage h true plan dg s = _)
  case paddock => exact fun hresult hstage hrun hready => State.endStage_paddock hresult hstage hrun hready
  case next => exact fun ⟨hresult, hpaddock⟩ n hnext => State.endStage_next hresult hpaddock hnext
  case last => exact fun ⟨hresult, hpaddock⟩ hnext => State.endStage_last hresult hpaddock hnext
  case holds => exact fun st => ⟨rfl, rfl, rfl, rfl, rfl, rfl, rfl, rfl, rfl, rfl, rfl, rfl, rfl⟩
  case runs => decide

end Sys2Proof.Machine
end

section
/-! What a read of BAR0 returns and leaves, the status indicator and ALERT_N (00, R7, R8; 15, R386; 16, R406, R414). -/

namespace Sys2Proof.Machine

open Sys2Proof

/-! ### A read at an offset -/

section
variable {off width : Nat} {s : State}

/-- The state in which an access that BAR0 does not take is counted. -/
def State.refusedAccess (s : State) : State := { s with gate := { s.gate with badAccess := stickAdd s.gate.badAccess 1 } }

theorem State.readAt_refused (hbad : (!decide (width = 4 ∨ width = 8) || decide (off % width ≠ 0)) = true) :
    s.readAt off width = (0, s.refusedAccess) := if_pos hbad

theorem State.readAt_width (hfour : width ≠ 4) (height : width ≠ 8) : s.readAt off width = (0, s.refusedAccess) :=
  State.readAt_refused (by rw [decide_eq_false (not_or_intro hfour height)]; rfl)

theorem State.readAt_misaligned (hoff : off % width ≠ 0) : s.readAt off width = (0, s.refusedAccess) :=
  State.readAt_refused (by rw [decide_eq_true hoff, Bool.or_true])

theorem State.readAt_nowhere (hblk : blkAt off = none) : s.readAt off width = (0, s.refusedAccess) := by
  rw [State.readAt, hblk]
  exact ite_self _

section
variable {b : Blk} {n o : Nat} (hblk : blkAt off = some (b, n, o))
include hblk

theorem State.readAt_dark (hoff : s.blkOn b n = false) (hwidth : width = 4 ∨ width = 8) (halign : off % width = 0) :
    s.readAt off width = (if width = 8 then BitVec.allOnes 64 else 0xFFFFFFFF,
      { s with gate := { s.gate with domainOff := true } }) := by
  rw [State.readAt, hblk, if_neg (by simp [hwidth, halign])]
  dsimp only
  rw [hoff, if_pos (by decide)]
  rfl

theorem State.readAt_keeps (hon : s.blkOn b n = true) (htally : b ≠ .tally) :
    (s.readAt off width).2 = s ∨ s.readAt off width = (0, s.refusedAccess) := by
  by_cases hbad : (!decide (width = 4 ∨ width = 8) || decide (off % width ≠ 0)) = true
  · exact Or.inr (State.readAt_refused hbad)
  · rw [State.readAt, hblk, if_neg hbad]
    dsimp only
    rw [hon, if_neg (by decide)]
    cases s.readBlk b n o width with
    | none => exact Or.inr rfl
    | some v => exact Or.inl (if_neg fun h => htally h.1)

end

end

/-! ### A wide register, whole and by halves -/

section
variable {b : Blk} {n o : Nat} {d : RegDef} {is : List Nat} {s : State}

theorem State.readWord_lower (hlower : regAt b n o = some (d, is, false)) :
    s.readWord b n o = some ((s.readReg b n d is).setWidth 32) := by
  rw [State.readWord, hlower]
  exact congrArg (fun v => some (BitVec.setWidth 32 v)) (BitVec.ushiftRight_zero _)

theorem State.readWord_upper (hupper : regAt b n o = some (d, is, true)) :
    s.readWord b n o = some ((s.readReg b n d is >>> 32).setWidth 32) := by
  rw [State.readWord, hupper]
  rfl

theorem halves_append (v : Word) :
    ((v >>> 32).setWidth 32).setWidth 64 <<< 32 ||| (v.setWidth 32).setWidth 64 = v := by
  ext i hi
  by_cases h : i < 32
  · simp [h, BitVec.getLsbD_eq_getElem hi]
  · have hback : 32 + (i - 32) = i := by omega
    have hupper : i - 32 < 32 := by omega
    simp [h, hback, hupper, hi]

/-- The mask of the lower half, bit by bit. -/
theorem getLsbD_lowerMask (i : Nat) : (0xFFFFFFFF : Word).getLsbD i = decide (i < 32) := by
  rw [show (0xFFFFFFFF : Word) = BitVec.ofNat 64 (2 ^ 32 - 1) by decide, BitVec.getLsbD_ofNat, Nat.testBit_two_pow_sub_one,
    ← Bool.decide_and]
  exact decide_eq_decide.2 ⟨fun h => h.2, fun h => ⟨by omega, h⟩⟩

theorem lower_half (v : Word) : (0 : Word) <<< 32 ||| (v.setWidth 32).setWidth 64 = v &&& 0xFFFFFFFF := by
  refine BitVec.eq_of_getLsbD_eq fun i hi => ?_
  rw [BitVec.getLsbD_and, getLsbD_lowerMask]
  by_cases h : i < 32 <;> simp [h, hi]

theorem upper_half (v : Word) : (0 : Word) <<< 32 ||| ((v >>> 32).setWidth 32).setWidth 64 = v >>> 32 := by
  refine BitVec.eq_of_getLsbD_eq fun i hi => ?_
  by_cases h : i < 32
  · simp [h, hi]
  · have hpast : 64 ≤ 32 + i := by omega
    simp [h, BitVec.getLsbD_of_ge v (32 + i) hpast]

theorem State.readBlk_whole (hlower : regAt b n o = some (d, is, false)) (hupper : regAt b n (o + 4) = some (d, is, true)) :
    s.readBlk b n o 8 = some (s.readReg b n d is) := by
  rw [State.readBlk, if_pos rfl, State.readWord_lower hlower, State.readWord_upper hupper]
  exact congrArg some (halves_append _)

theorem State.readBlk_lower (hlower : regAt b n o = some (d, is, false)) :
    s.readBlk b n o 4 = some (s.readReg b n d is &&& 0xFFFFFFFF) := by
  rw [State.readBlk, if_neg (show (4 : Nat) ≠ 8 by decide), State.readWord_lower hlower]
  exact congrArg some (lower_half _)

theorem State.readBlk_upper (hupper : regAt b n o = some (d, is, true)) :
    s.readBlk b n o 4 = some (s.readReg b n d is >>> 32) := by
  rw [State.readBlk, if_neg (show (4 : Nat) ≠ 8 by decide), State.readWord_upper hupper]
  exact congrArg some (upper_half _)

end

/-! ### A write of a register of the Gate, and what is read after it -/

section
variable {off : Nat} {d : RegDef} {s : State} {v : Word}

/-- A word of a write as the register takes it. -/
def lowerWrite (v : Word) : Wr := { m := 0xFFFFFFFF, v := (v.setWidth 32).setWidth 64 }

theorem getLsbD_lowerWrite (v : Word) {i : Nat} (hi : i < 32) : (lowerWrite v).v.getLsbD i = v.getLsbD i := by
  rw [lowerWrite, BitVec.getLsbD_setWidth, BitVec.getLsbD_setWidth, decide_eq_true hi, decide_eq_true (by omega)]
  rfl

theorem clr_lowerWrite (old : Bool) (v : Word) {lo : Nat} (hlo : lo < 32) :
    (lowerWrite v).clr old lo = (old && !v.getLsbD lo) := by
  rw [Wr.clr, getLsbD_lowerWrite v hlo, lowerWrite, getLsbD_lowerMask, decide_eq_true hlo, Bool.true_and]

theorem fld_lowerWrite {w : Nat} (old : BitVec w) (v : Word) {lo : Nat} (hlo : lo + w ≤ 32) :
    (lowerWrite v).fld old lo = (v >>> lo).setWidth w := by
  refine BitVec.eq_of_getLsbD_eq fun i hi => ?_
  have hmask : (lowerWrite v).m.getLsbD (lo + i) = true := by
    rw [lowerWrite, getLsbD_lowerMask, decide_eq_true (by omega)]
  rw [Wr.fld, BitVec.getLsbD_setWidth, BitVec.getLsbD_ushiftRight, BitVec.getLsbD_or, BitVec.getLsbD_and, BitVec.getLsbD_and,
    BitVec.getLsbD_not, hmask, getLsbD_lowerWrite v (by omega), BitVec.getLsbD_setWidth, BitVec.getLsbD_ushiftRight]
  simp

/-- A write of a word of a Gate register leaves what the register takes, and at most counts a write of RSV bits. -/
theorem State.writeAt_gate (hblk : blkAt off = some (.gate, 0, off)) (hreg : regAt .gate 0 off = some (d, [], false))
    (halign : off % 4 = 0) (hid : ¬ (d.id = .testCtl ∨ d.id = .testStat ∨ d.id = .testPat)) :
    ∃ n, s.writeAt off 4 false v = (s.writeGate d.id 0 (lowerWrite v)).updGate fun g => { g with rsvWrite := n } := by
  have hword : ∃ rsv, s.writeWord .gate 0 off false (v.setWidth 32) = some (s.writeGate d.id 0 (lowerWrite v), rsv) := by
    rw [State.writeWord, hreg]
    refine ⟨_, congrArg some (Prod.ext ?_ rfl)⟩
    dsimp only
    rw [if_neg Bool.false_ne_true, BitVec.shiftLeft_zero, BitVec.shiftLeft_zero, State.writeReg]
    exact if_neg hid
  obtain ⟨rsv, hword⟩ := hword
  rw [State.writeAt, if_neg (by simp [halign]), hblk]
  dsimp only
  rw [show s.blkOn .gate 0 = true from rfl, if_pos rfl, State.writeBlk, hword]
  cases rsv with
  | true => exact ⟨_, rfl⟩
  | false => exact ⟨_, rfl⟩

theorem State.readAt_gate (hblk : blkAt off = some (.gate, 0, off)) (hreg : regAt .gate 0 off = some (d, [], false))
    (halign : off % 4 = 0) : (s.readAt off 4).1 = s.readGate d.off 0 &&& 0xFFFFFFFF := by
  rw [State.readAt, if_neg (by simp [halign]), hblk]
  dsimp only
  rw [show s.blkOn .gate 0 = true from rfl, if_neg (by decide), State.readBlk_lower hreg]
  rfl

end

section
variable (s : State) (v : Word)

theorem blkAt_irqCtl : blkAt 0x104 = some (.gate, 0, 0x104) := by decide

theorem regAt_irqCtl : regAt .gate 0 0x104 = some (⟨0x104, false, [], 0xFFFF0FC0, .gateIrqCtl⟩, [], false) := rfl

theorem readGate_irqCtl : s.readGate 0x104 0 = pk [(0, s.gate.miscVector.toNat), (12, s.gate.irqEnable.toNat)] := rfl

theorem readGate_irqCause : s.readGate 0x108 0 =
    pk [(0, fb s.gate.irqMailbox), (1, fb s.gate.irqRing), (2, fb s.gate.irqHold), (3, fb s.gate.irqFatal)] := rfl

/-- The bits of the two RW fields of the register. -/
theorem getLsbD_irqCtlMask :
    ∀ i : Fin 64, (0xF03F : Word).getLsbD i = (decide (i.val < 6) || decide (12 ≤ i.val ∧ i.val < 16)) := by decide

theorem irqCtl_fields (v : Word) : pk [(0, ((v >>> 0).setWidth 6).toNat), (12, ((v >>> 12).setWidth 4).toNat)] &&& 0xFFFFFFFF
    = v &&& 0xF03F := by
  refine BitVec.eq_of_getLsbD_eq fun i hi => ?_
  rw [BitVec.getLsbD_and, BitVec.getLsbD_and, getLsbD_lowerMask, getLsbD_irqCtlMask ⟨i, hi⟩]
  simp only [pk, List.foldl_cons, List.foldl_nil, BitVec.ofNat_toNat, BitVec.getLsbD_or, BitVec.getLsbD_shiftLeft,
    BitVec.getLsbD_setWidth, BitVec.getLsbD_ushiftRight]
  by_cases hlow : i < 6
  · simp [hlow, show i < 12 by omega, show i < 32 by omega, hi]
  · by_cases hmid : i < 12
    · simp [hlow, hmid, show ¬ 12 ≤ i by omega]
    · by_cases hhigh : i < 16
      · simp [hlow, hmid, hhigh, show 12 ≤ i by omega, show i < 32 by omega, show i - 12 < 4 by omega, show i - 12 < 64 by omega, hi,
          show 12 + (i - 12) = i by omega]
      · simp [hlow, hmid, hhigh, show ¬ i - 12 < 4 by omega]

theorem State.read_writeAt_irqCtl : ((s.writeAt 0x104 4 false v).readAt 0x104 4).1 = v &&& 0xF03F := by
  obtain ⟨n, hwrite⟩ := State.writeAt_gate (s := s) (v := v) blkAt_irqCtl regAt_irqCtl rfl (by decide)
  rw [State.readAt_gate blkAt_irqCtl regAt_irqCtl rfl, hwrite, readGate_irqCtl]
  show pk [(0, ((lowerWrite v).fld s.gate.miscVector 0).toNat), (12, ((lowerWrite v).fld s.gate.irqEnable 12).toNat)] &&& _ = _
  rw [fld_lowerWrite _ v (by decide), fld_lowerWrite _ v (by decide)]
  exact irqCtl_fields v

theorem getLsbD_irqCause : ∀ (a b c d : Bool) (i : Fin 64),
    (pk [(0, fb a), (1, fb b), (2, fb c), (3, fb d)]).getLsbD i =
      (decide (i.val = 0) && a || decide (i.val = 1) && b || decide (i.val = 2) && c || decide (i.val = 3) && d) := by decide

theorem irqCause_cleared (a b c d : Bool) (v : Word) :
    pk [(0, fb (a && !v.getLsbD 0)), (1, fb (b && !v.getLsbD 1)), (2, fb (c && !v.getLsbD 2)), (3, fb (d && !v.getLsbD 3))]
      &&& 0xFFFFFFFF = pk [(0, fb a), (1, fb b), (2, fb c), (3, fb d)] &&& 0xFFFFFFFF &&& ~~~v := by
  refine BitVec.eq_of_getLsbD_eq fun i hi => ?_
  rw [BitVec.getLsbD_and, BitVec.getLsbD_and, BitVec.getLsbD_and, getLsbD_irqCause _ _ _ _ ⟨i, hi⟩,
    getLsbD_irqCause _ _ _ _ ⟨i, hi⟩, getLsbD_lowerMask, BitVec.getLsbD_not, decide_eq_true hi]
  obtain rfl | rfl | rfl | rfl | hpast : i = 0 ∨ i = 1 ∨ i = 2 ∨ i = 3 ∨ 4 ≤ i := by omega
  · simp
  · simp
  · simp
  · simp
  · simp [show i ≠ 0 by omega, show i ≠ 1 by omega, show i ≠ 2 by omega, show i ≠ 3 by omega]

theorem State.read_writeAt_irqCause :
    ((s.writeAt 0x108 4 false v).readAt 0x108 4).1 = (s.readAt 0x108 4).1 &&& ~~~v := by
  obtain ⟨n, hwrite⟩ := State.writeAt_gate (s := s) (v := v) blkAt_irqCause regAt_irqCause rfl (by decide)
  rw [State.readAt_gate blkAt_irqCause regAt_irqCause rfl, State.readAt_gate blkAt_irqCause regAt_irqCause rfl, hwrite,
    readGate_irqCause, readGate_irqCause, ← irqCause_cleared]
  show pk [(0, fb ((lowerWrite v).clr s.gate.irqMailbox 0)), (1, fb ((lowerWrite v).clr s.gate.irqRing 1)),
    (2, fb ((lowerWrite v).clr s.gate.irqHold 2)), (3, fb ((lowerWrite v).clr s.gate.irqFatal 3))] &&& _ = _
  rw [clr_lowerWrite _ v (by decide), clr_lowerWrite _ v (by decide), clr_lowerWrite _ v (by decide),
    clr_lowerWrite _ v (by decide)]

theorem blkAt_tbTime : blkAt 0x200 = some (.gate, 0, 0x200) := by decide

theorem regAt_tbTime : regAt .gate 0 0x200 = some (⟨0x200, true, [], 0x0, .ro⟩, [], false) ∧
    regAt .gate 0 (0x200 + 4) = some (⟨0x200, true, [], 0x0, .ro⟩, [], true) := ⟨rfl, rfl⟩

theorem State.readAt_tbTime : (s.readAt 0x200 8).1 = s.tb := by
  rw [State.readAt, if_neg (by decide), blkAt_tbTime]
  dsimp only
  rw [show s.blkOn .gate 0 = true from rfl, if_neg (by decide), State.readBlk_whole regAt_tbTime.1 regAt_tbTime.2]
  rfl

/-! ### The status indicator and ALERT_N -/

theorem State.statusIndicator_on (haux : s.pwr.aux = true) : s.statusIndicator =
    if s.pwr.mainBarred then .blue
    else if s.shep.hard || s.cast.held then .amber
    else if s.shep.penned || s.shep.paddock then .amberBlink
    else if s.cast.running then .greenBlink
    else if s.cast.ready then .green
    else .dark := by
  rw [State.statusIndicator, haux, if_neg (by decide)]

theorem State.alertLow_iff : s.alertLow = true ↔ s.pwr.aux = true ∧ s.cast.hold ≠ 1 ∧
    (s.gate.irqFatal = true ∨ s.gate.irqHold = true ∨ s.shep.penned = true) := by
  simp only [State.alertLow, Bool.and_eq_true, Bool.or_eq_true, decide_eq_true_eq, or_assoc]
  exact and_assoc.trans (and_congr_right fun _ => and_comm)

end

/-- Settles O60: each kind of access has its equation, and the indicator follows Table 16-1 row by row. -/
theorem registerReads : Obligations.RegisterReads := by
  refine ⟨fun off width s => ⟨State.readAt_width, State.readAt_misaligned, State.readAt_nowhere,
      fun b n o hblk => State.readAt_dark hblk, fun b n o hblk => State.readAt_keeps hblk⟩,
    fun b n o d is s hlower hupper =>
      ⟨State.readBlk_whole hlower hupper, State.readBlk_lower hlower, State.readBlk_upper hupper⟩,
    fun v s => ⟨s.readAt_tbTime, s.read_writeAt_irqCtl v, s.read_writeAt_irqCause v, rfl⟩,
    fun s => ⟨?off, ?on, s.alertLow_iff⟩⟩
  case off =>
    intro haux
    rw [State.statusIndicator, haux]
    rfl
  case on =>
    intro haux
    rw [s.statusIndicator_on haux]
    refine ⟨fun h => if_pos h, fun hbarred => ?_⟩
    rw [if_neg (hbarred ▸ Bool.false_ne_true)]
    refine ⟨fun hstopped => if_pos (Bool.or_eq_true_iff.2 hstopped), fun hsound hheld => ?_⟩
    rw [if_neg (by simp [hsound, hheld])]
    refine ⟨fun haway => if_pos (Bool.or_eq_true_iff.2 haway), fun hpenned hpaddock => ?_⟩
    rw [if_neg (by simp [hpenned, hpaddock])]
    refine ⟨fun h => if_pos h, fun hidle hready => ?_⟩
    rw [if_neg (hidle ▸ Bool.false_ne_true), if_pos hready]

end Sys2Proof.Machine
end

section
/-! The operations of the model that leave memory alone (00 to 16), one lemma each: what `memView` shows is the same
after them. -/

namespace Sys2Proof.Machine

open Sys2Proof

/-! ### How a view is read

A lemma here that is true by unfolding has the proof `(rfl)`: the bare `rfl` would make it a rule of `dsimp`, and the
hypothesis of `State.memView_fold` could not be proved by it. -/

/-- A state given by its fields shows four of them. -/
@[simp] theorem State.memView_mk : ∀
    pending free tb pwr gate bands partMem ecs rings dies tiles ctxs istore images partJob jobs jobHolds faultRecs mem
    bad upsets keys lineKeys mds ueReports fabs hurTimeout links engines skeins olanes slotInfo elems shep obs twin cast
    sec flash tally tests mgmt raised out,
    (State.mk
    pending free tb pwr gate bands partMem ecs rings dies tiles ctxs istore images partJob jobs jobHolds faultRecs mem
    bad upsets keys lineKeys mds ueReports fabs hurTimeout links engines skeins olanes slotInfo elems shep obs twin cast
    sec flash tally tests mgmt raised out).memView
    = (mem, bad, lineKeys, upsets) := by
  intros
  rfl

@[simp] theorem State.memView_eta (s : State) : (s.mem, s.bad, s.lineKeys, s.upsets) = s.memView := rfl

@[simp] theorem State.memView_ite {c : Prop} [Decidable c] (a b : State) :
    (if c then a else b).memView = if c then a.memView else b.memView := apply_ite State.memView c a b

@[simp] theorem State.memView_fold {β : Type} {f : State → β → State} (hf : ∀ s b, (f s b).memView = s.memView)
    (l : List β) (s : State) : (l.foldl f s).memView = s.memView := memView_foldl hf l s

/-! ### Fields, tables and outputs -/

@[simp] theorem State.setRing_view (s : State) (r : Nat) (v : Ring) : (s.setRing r v).memView = s.memView := (rfl)
@[simp] theorem State.updRing_view (s : State) (r : Nat) (f : Ring → Ring) : (s.updRing r f).memView = s.memView :=
    (rfl)
@[simp] theorem State.setDie_view (s : State) (n : Nat) (v : TileDie) : (s.setDie n v).memView = s.memView := (rfl)
@[simp] theorem State.updDie_view (s : State) (n : Nat) (f : TileDie → TileDie) : (s.updDie n f).memView = s.memView :=
    (rfl)
@[simp] theorem State.setTile_view (s : State) (t : Nat) (v : Tile) : (s.setTile t v).memView = s.memView := (rfl)
@[simp] theorem State.setCtx_view (s : State) (t c : Nat) (v : Ctx) : (s.setCtx t c v).memView = s.memView := (rfl)
@[simp] theorem State.setJob_view (s : State) (j : Nat) (v : Job) : (s.setJob j v).memView = s.memView := (rfl)
@[simp] theorem State.updJob_view (s : State) (j : Nat) (f : Job → Job) : (s.updJob j f).memView = s.memView := (rfl)
@[simp] theorem State.setMd_view (s : State) (n : Nat) (v : MemDie) : (s.setMd n v).memView = s.memView := (rfl)
@[simp] theorem State.updMd_view (s : State) (n : Nat) (f : MemDie → MemDie) : (s.updMd n f).memView = s.memView :=
    (rfl)
@[simp] theorem State.setFab_view (s : State) (n : Nat) (v : Fab) : (s.setFab n v).memView = s.memView := (rfl)
@[simp] theorem State.setEngine_view (s : State) (n : Nat) (v : Engine) : (s.setEngine n v).memView = s.memView := (rfl)
@[simp] theorem State.setSkein_view (s : State) (q : Nat) (v : Skein) : (s.setSkein q v).memView = s.memView := (rfl)
@[simp] theorem State.setOlane_view (s : State) (q j : Nat) (v : OLane) : (s.setOlane q j v).memView = s.memView :=
    (rfl)
@[simp] theorem State.setSlotI_view (s : State) (q k : Nat) (v : SlotInfo) : (s.setSlotI q k v).memView = s.memView :=
    (rfl)
@[simp] theorem State.updSlotI_view (s : State) (q k : Nat) (f : SlotInfo → SlotInfo) :
    (s.updSlotI q k f).memView = s.memView := (rfl)
@[simp] theorem State.setElem_view (s : State) (n e : Nat) (v : Elem) : (s.setElem n e v).memView = s.memView := (rfl)
@[simp] theorem State.setObs_view (s : State) (m : Nat) (v : Obs) : (s.setObs m v).memView = s.memView := (rfl)
@[simp] theorem State.updObs_view (s : State) (m : Nat) (f : Obs → Obs) : (s.updObs m f).memView = s.memView := (rfl)
@[simp] theorem State.setBand_view (s : State) (b : Nat) (v : Band) : (s.setBand b v).memView = s.memView := (rfl)
@[simp] theorem State.setPart_view (s : State) (p : Nat) (v : PartMem) : (s.setPart p v).memView = s.memView := (rfl)
@[simp] theorem State.setEcs_view (s : State) (x : Nat) (v : Ecs) : (s.setEcs x v).memView = s.memView := (rfl)
@[simp] theorem State.updEcs_view (s : State) (x : Nat) (f : Ecs → Ecs) : (s.updEcs x f).memView = s.memView := (rfl)
@[simp] theorem State.setTest_view (s : State) (fd lane : Nat) (v : LaneTest) :
    (s.setTest fd lane v).memView = s.memView := (rfl)
@[simp] theorem State.setCkptJob_view (s : State) (j : Nat) (v : Ckpt) : (s.setCkptJob j v).memView = s.memView := (rfl)
@[simp] theorem State.updCkptJob_view (s : State) (j : Nat) (f : Ckpt → Ckpt) :
    (s.updCkptJob j f).memView = s.memView := (rfl)
@[simp] theorem State.setHeldJob_view (s : State) (h : Nat) (v : Held) : (s.setHeldJob h v).memView = s.memView := (rfl)
@[simp] theorem State.updHeldJob_view (s : State) (h : Nat) (f : Held → Held) :
    (s.updHeldJob h f).memView = s.memView := (rfl)
@[simp] theorem State.stuck_view {w : Nat} (s : State) (off : Nat) (old new : BitVec w) :
    (s.stuck off old new).memView = s.memView := (rfl)
@[simp] theorem State.msix_view (s : State) (v : BitVec 6) : (s.msix v).memView = s.memView := by simp [State.msix]
@[simp] theorem State.miscSignal_view (s : State) (c : Nat) : (s.miscSignal c).memView = s.memView := by
  simp [State.miscSignal]
@[simp] theorem State.misc_view (s : State) (c : Nat) : (s.misc c).memView = s.memView := by simp [State.misc]
@[simp] theorem State.dropEvent_view (s : State) (r : Nat) (ring : Ring) : (s.dropEvent r ring).memView = s.memView :=
    (rfl)
@[simp] theorem State.event_view (s : State) (r : Nat) (kind : Byte) (detail : List (Nat × Nat × Nat)) :
    (s.event r kind detail).memView = s.memView := by
  simp [State.event]

@[simp] theorem State.complete_view (s : State) (r : Nat) (tag : BitVec 16) (st : Status)
    (detail : List (Nat × Nat × Nat)) : (s.complete r tag st detail).memView = s.memView := by
  unfold State.complete
  dsimp only
  split <;> simp

/-! ### Packets and links out of the module -/

@[simp] theorem State.countHold_view (s : State) (fd h : Nat) : (s.countHold fd h).memView = s.memView := (rfl)
@[simp] theorem State.sendOnLink_view (s : State) (fd k : Nat) (kind : Byte) (arg : Word) (payload : List Byte) :
    (s.sendOnLink fd k kind arg payload).memView = s.memView := by
  simp [State.sendOnLink]
@[simp] theorem State.datagrams_view (s : State) (bytes : List Byte) : (s.datagrams bytes).memView = s.memView := by
  simp [State.datagrams]
@[simp] theorem State.flockPackets_view (s : State) (b : FlockBody) (bytes : List Byte) :
    (s.flockPackets b bytes).memView = s.memView := by
  simp [State.flockPackets]
@[simp] theorem State.drainSend_view (s : State) (reason : Byte) : (s.drainSend reason).memView = s.memView := by
  simp [State.drainSend]

/-! ### Stops and faults -/

@[simp] theorem State.wake_view (s : State) (t c : Nat) : (s.wake t c).memView = s.memView := by simp [State.wake]
@[simp] theorem State.stopAll_view (s : State) : s.stopAll.memView = s.memView := by simp [State.stopAll]
@[simp] theorem State.faultRecord_view (s : State) (t c : Nat) (code : BitVec 4) (pc : BitVec 15) (word : Word) :
    (s.faultRecord t c code pc word).memView = s.memView := (rfl)
@[simp] theorem State.faultCtx_view (s : State) (t c : Nat) (code : BitVec 4) (pc : BitVec 15) (word : Word) :
    (s.faultCtx t c code pc word).memView = s.memView := by
  simp [State.faultCtx]
@[simp] theorem State.setBudget_view (s : State) (i : Nat) (v : Word) : (s.setBudget i v).memView = s.memView := (rfl)
@[simp] theorem State.hardWith_view (s : State) (kind code : Byte) : (s.hardWith kind code).memView = s.memView := by
  simp [State.hardWith]

/-! ### Memory -/

@[simp] theorem State.updStack_view (s : State) (n k : Nat) (f : Stack → Stack) :
    (s.updStack n k f).memView = s.memView := (rfl)
@[simp] theorem State.rotateKey_view (s : State) (o : Nat) : (s.rotateKey o).memView = s.memView := (rfl)

@[simp] theorem State.markGran_view (s : State) (g : Nat) : (s.markGran g).memView = s.memView := by
  unfold State.markGran
  split <;> simp

@[simp] theorem State.markDirty_view (s : State) (a n : Nat) : (s.markDirty a n).memView = s.memView := by
  simp [State.markDirty]
@[simp] theorem State.eraseChan_view (s : State) (m k c : Nat) : (s.eraseChan m k c).memView = s.memView := by
  simp [State.eraseChan]
@[simp] theorem State.correct_view (s : State) (m k c : Nat) : (s.correct m k c).memView = s.memView := by
  simp [State.correct]
@[simp] theorem State.correctWord_view (s : State) (u : Nat) : (s.correctWord u).memView = s.memView := (rfl)
@[simp] theorem State.countRmw_view (s : State) (m : Nat) : (s.countRmw m).memView = s.memView := (rfl)

/-! ### Stage instructions -/

@[simp] theorem State.charge_view (s : State) (t c : Nat) : (s.charge t c).memView = s.memView := (rfl)

/-! ### Links and lanes -/

@[simp] theorem State.resend_view (s : State) (fd k : Nat) : (s.resend fd k).memView = s.memView := by
  unfold State.resend
  dsimp only
  split
  · rfl
  · exact memView_foldl (fun _ _ => State.sendFlit_view ..) _ _

@[simp] theorem State.linkUp_view (s : State) (fd k : Nat) : (s.linkUp fd k).memView = s.memView := by
  simp [State.linkUp]
@[simp] theorem State.renumber_view (s : State) (fd k : Nat) : (s.renumber fd k).memView = s.memView := by
  simp [State.renumber]
@[simp] theorem State.freeMember_view (s : State) (fd k i : Nat) : (s.freeMember fd k i).memView = s.memView := by
  simp [State.freeMember]
@[simp] theorem State.dropLane_view (s : State) (fd k lane : Nat) : (s.dropLane fd k lane).memView = s.memView := by
  simp [State.dropLane]
@[simp] theorem State.noteRemoval_view (s : State) (fd lane : Nat) : (s.noteRemoval fd lane).memView = s.memView :=
    (rfl)
@[simp] theorem State.removeElec_view (s : State) (fd i : Nat) : (s.removeElec fd i).memView = s.memView := by
  simp [State.removeElec]

@[simp] theorem State.removeStrand_view (s : State) (fd i : Nat) : (s.removeStrand fd i).memView = s.memView := by
  unfold State.removeStrand
  split <;> simp

@[simp] theorem State.laneOut_view (s : State) (q j : Nat) (why : BitVec 4) :
    (s.laneOut q j why).memView = s.memView := by
  simp [State.laneOut]

/-! ### Fences and failed links -/

@[simp] theorem State.fenceCoord_view (s : State) (c : Coord) (on : Bool) :
    (s.fenceCoord c on).memView = s.memView := by
  simp [State.fenceCoord]
@[simp] theorem State.endDrain_view (s : State) (fd k : Nat) : (s.endDrain fd k).memView = s.memView := by
  simp [State.endDrain]
@[simp] theorem State.endDrains_view (s : State) (c : Coord) : (s.endDrains c).memView = s.memView := by
  simp [State.endDrains]
@[simp] theorem State.fenceLink_view (s : State) (fd k : Nat) (on : Bool) : (s.fenceLink fd k on).memView = s.memView :=
    (rfl)

@[simp] theorem State.fenceModule_view (s : State) (c : Coord) : (s.fenceModule c).memView = s.memView := by
  unfold State.fenceModule
  rw [State.endDrains_view, memView_foldl (fun _ _ => by rfl), State.fenceCoord_view]

@[simp] theorem State.liftCoord_view (s : State) (c : Coord) : (s.liftCoord c).memView = s.memView := by
  simp [State.liftCoord]
@[simp] theorem State.discardLink_view (s : State) (fd k : Nat) : (s.discardLink fd k).memView = s.memView := by
  simp [State.discardLink]
@[simp] theorem State.failLink_view (s : State) (fd k : Nat) : (s.failLink fd k).memView = s.memView := by
  simp [State.failLink]
@[simp] theorem State.clearOwn_view (s : State) (fd k : Nat) (c : Coord) : (s.clearOwn fd k c).memView = s.memView := by
  simp [State.clearOwn]

@[simp] theorem State.joinStrand_view (s : State) (fd i : Nat) (c : Coord) (digest : Word) (rev : Byte) :
    (s.joinStrand fd i c digest rev).memView = s.memView := by
  unfold State.joinStrand
  dsimp only
  split <;> simp

/-! ### Firmware, identity and trust -/

@[simp] theorem State.logEntry_view (s : State) (i : Nat) (type : Byte) (comp : BitVec 16) (d : BitVec 256)
    (info : BitVec 96) : (s.logEntry i type comp d info).memView = s.memView := by
  simp [State.logEntry]
@[simp] theorem State.measure_view (s : State) (i : Nat) (d : BitVec 256) (comp : BitVec 16) (info : BitVec 96) :
    (s.measure i d comp info).memView = s.memView := by
  simp [State.measure]
@[simp] theorem State.measReset_view (s : State) (p : Nat) : (s.measReset p).memView = s.memView := by
  simp [State.measReset]
@[simp] theorem State.setSlot_view (s : State) (i : Nat) (v : Slot) : (s.setSlot i v).memView = s.memView := (rfl)
@[simp] theorem State.judgeSlot_view (s : State) (n : Nat) (sigOk : Bool) : (s.judgeSlot n sigOk).memView = s.memView :=
    (rfl)
@[simp] theorem State.slotWrite_view (s : State) (n off : Nat) (bytes : List Byte) :
    (s.slotWrite n off bytes).memView = s.memView := (rfl)
@[simp] theorem State.sendCtl_view (s : State) (type : Byte) (body : List Nat) :
    (s.sendCtl type body).memView = s.memView := by
  simp [State.sendCtl]
@[simp] theorem State.authFail_view (s : State) (i : Nat) : (s.authFail i).memView = s.memView := (rfl)
@[simp] theorem State.seqAccept_view (s : State) (h : CtlHdr) (keep : Bool) :
    (s.seqAccept h keep).memView = s.memView := by
  simp [State.seqAccept]
@[simp] theorem State.forceReset_view (s : State) : s.forceReset.memView = s.memView := by simp [State.forceReset]
@[simp] theorem State.rejectTrial_view (s : State) (now : Bool) : (s.rejectTrial now).memView = s.memView := by
  simp [State.rejectTrial]
@[simp] theorem State.refuseLower_view (s : State) : s.refuseLower.memView = s.memView := by simp [State.refuseLower]
@[simp] theorem State.enroll_view (s : State) (key root : List Byte) : (s.enroll key root).memView = s.memView := by
  simp [State.enroll]
@[simp] theorem State.disown_view (s : State) : s.disown.memView = s.memView := (rfl)
@[simp] theorem State.setDist_view (s : State) (d : Option Dist) : (s.setDist d).memView = s.memView := (rfl)
@[simp] theorem State.chunkBad_view (s : State) : s.chunkBad.memView = s.memView := (rfl)
@[simp] theorem State.endDist_view (s : State) (d : Dist) (sigOk : Bool) : (s.endDist d sigOk).memView = s.memView := by
  simp [State.endDist]
@[simp] theorem State.askHolder_view (s : State) (d : Dist) (i : Nat) : (s.askHolder d i).memView = s.memView := by
  simp [State.askHolder]
@[simp] theorem State.signRefused_view (s : State) : s.signRefused.memView = s.memView := by simp [State.signRefused]
@[simp] theorem State.spdmAnswer_view (s : State) (via : Nat) (code : Byte) (bytes : List Byte) (sig : Option Word) :
    (s.spdmAnswer via code bytes sig).memView = s.memView := by
  simp [State.spdmAnswer]

/-- The answer of a signature is the state with one index spent. -/
theorem State.sign_view {s t : State} {i : Word} (h : s.sign = some (i, t)) : t.memView = s.memView := by
  unfold State.sign at h
  split at h
  · cases h
  · injection h with h
    injection h with _ h
    subst h
    dsimp only
    split <;> simp

@[simp] theorem State.signedAnswer_view (s : State) (via : Nat) (code : Byte) (bytes : List Byte) :
    (s.signedAnswer via code bytes).memView = s.memView := by
  unfold State.signedAnswer
  split
  case h_1 i t h => simp [State.sign_view h]
  case h_2 => simp

/-! ### Host and management interfaces -/

@[simp] theorem State.fetch_view (s : State) (r : Nat) (b : Block) : (s.fetch r b).memView = s.memView := by
  unfold State.fetch
  dsimp only
  split <;> simp

@[simp] theorem State.ringError_view (s : State) (r : Nat) (cause : BitVec 2) :
    (s.ringError r cause).memView = s.memView := by
  simp [State.ringError]
@[simp] theorem State.writeEntry_view (s : State) (r : Nat) (c : Cpl) : (s.writeEntry r c).memView = s.memView := by
  simp [State.writeEntry]
@[simp] theorem State.abortRing_view (s : State) (r : Nat) (keep : Option (BitVec 16)) :
    (s.abortRing r keep).memView = s.memView := (rfl)
@[simp] theorem State.abortPartitions_view (s : State) : s.abortPartitions.memView = s.memView := by
  simp [State.abortPartitions]
@[simp] theorem State.flr_view (s : State) : s.flr.memView = s.memView := by simp [State.flr]
@[simp] theorem State.pcieUp_view (s : State) : s.pcieUp.memView = s.memView := by simp [State.pcieUp]
@[simp] theorem mctpReply_view (s : State) (cmd : Byte) (bytes : List Byte) :
    (mctpReply s cmd bytes).memView = s.memView := by
  simp [mctpReply]

/-! ### The store, the stacks and the BAR2 window -/

@[simp] theorem State.linkFixed_view (s : State) (l n : Nat) : (s.linkFixed l n).memView = s.memView := by
  simp [State.linkFixed]
@[simp] theorem State.giveBand_view (s : State) (b : Nat) (o : BitVec 4) : (s.giveBand b o).memView = s.memView := (rfl)
@[simp] theorem State.writeBand_view (s : State) (firmware : Bool) (b : Nat) (o : BitVec 4) :
    (s.writeBand firmware b o).memView = s.memView := by
  simp [State.writeBand]
@[simp] theorem State.bar2Count_view (s : State) : s.bar2Count.memView = s.memView := (rfl)

/-! ### MEM descriptors and the SYS class -/

@[simp] theorem State.stageEvent_view (s : State) (t c : Nat) (code : BitVec 16) (v : Word) :
    (s.stageEvent t c code v).memView = s.memView := by
  simp [State.stageEvent]
@[simp] theorem State.postEvents_view (s : State) (t c : Nat) : (s.postEvents t c).memView = s.memView := by
  simp [State.postEvents]
@[simp] theorem State.memDone_view (s : State) (t c tag : Nat) (status : BitVec 8) :
    (s.memDone t c tag status).memView = s.memView := by
  simp [State.memDone]
@[simp] theorem State.fabDone_view (s : State) (t c tag : Nat) (status : BitVec 8) :
    (s.fabDone t c tag status).memView = s.memView := by
  simp [State.fabDone]

/-! ### Stream channels -/

@[simp] theorem State.chDropped_view (s : State) (t : Nat) : (s.chDropped t).memView = s.memView := (rfl)
@[simp] theorem State.chOverrun_view (s : State) (t c : Nat) (src : Coord × Nat × Nat × Nat) :
    (s.chOverrun t c src).memView = s.memView := by
  simp [State.chOverrun]
@[simp] theorem State.chCredit_view (s : State) (t c ep n : Nat) (job : BitVec 16) (gen : Byte) :
    (s.chCredit t c ep n job gen).memView = s.memView := by
  simp [State.chCredit]

@[simp] theorem State.freeCredits_view (s : State) (t c ep n : Nat) : (s.freeCredits t c ep n).memView = s.memView := by
  unfold State.freeCredits
  dsimp only
  split <;> simp

@[simp] theorem State.chTake_view (s : State) (t c ep : Nat) : (s.chTake t c ep).memView = s.memView := by
  simp [State.chTake]

/-! ### Reductions -/

@[simp] theorem State.jobEvent_view (s : State) (job : BitVec 16) (kind : Byte) (detail : List (Nat × Nat × Nat)) :
    (s.jobEvent job kind detail).memView = s.memView := by
  simp [State.jobEvent]
@[simp] theorem State.stale_memView (s : State) (j n : Nat) : (s.stale_ j n).memView = s.memView := (rfl)
@[simp] theorem State.updRed_view (s : State) (j key : Nat) (f : Red → Red) : (s.updRed j key f).memView = s.memView :=
    (rfl)
@[simp] theorem State.redSend_view (s : State) (j : Nat) (kind : Byte) (dst : Coord) (h : BitVec 12) (arg : Word)
    (payload : List Byte) : (s.redSend j kind dst h arg payload).memView = s.memView := by
  simp [State.redSend]

@[simp] theorem State.redEndMembers_view (s : State) (j : Nat) (h : BitVec 12) (g : Byte) (status : BitVec 8) :
    (s.redEndMembers j h g status).memView = s.memView := by
  unfold State.redEndMembers
  exact memView_foldl (fun _ _ => by rfl) _ _

@[simp] theorem State.redFail_view (s : State) (j : Nat) (h : BitVec 12) (g : Byte) (status : Nat) (up : Bool) :
    (s.redFail j h g status up).memView = s.memView := by
  unfold State.redFail
  dsimp only
  split <;> simp

@[simp] theorem State.redJoin_view (s : State) (j : Nat) (h : BitVec 12) (g : Byte) (c : Contrib) :
    (s.redJoin j h g c).memView = s.memView := by
  unfold State.redJoin
  dsimp only
  repeat' split
  all_goals simp

@[simp] theorem State.redDownTo_view (s : State) (j : Nat) (h : BitVec 12) (g : Byte) (i : Nat) (c : Contrib)
    (bytes : List Byte) : (s.redDownTo j h g i c bytes).memView = s.memView := by
  simp [State.redDownTo]

/-! ### Hurdles -/

@[simp] theorem State.updHur_view (s : State) (j : Nat) (h : BitVec 12) (f : Hur → Hur) :
    (s.updHur j h f).memView = s.memView := (rfl)
@[simp] theorem State.commitReleased_view (s : State) (j : Nat) : (s.commitReleased j).memView = s.memView := by
  simp [State.commitReleased]
@[simp] theorem State.sendRelease_view (s : State) (j : Nat) (h : BitVec 12) (g : Byte) (co : Coord) :
    (s.sendRelease j h g co).memView = s.memView := by
  simp [State.sendRelease]
@[simp] theorem State.hurRelease_view (s : State) (j : Nat) (h : BitVec 12) :
    (s.hurRelease j h).memView = s.memView := by
  simp [State.hurRelease]

@[simp] theorem State.hurAdvance_view (s : State) (j : Nat) (h : BitVec 12) :
    (s.hurAdvance j h).memView = s.memView := by
  unfold State.hurAdvance
  dsimp only
  repeat' split
  all_goals simp

@[simp] theorem State.hurCount_view (s : State) (j : Nat) (h : BitVec 12) (n : Nat) (kid : Option Coord) :
    (s.hurCount j h n kid).memView = s.memView := by
  simp [State.hurCount]

@[simp] theorem State.countArrival_view (s : State) (t : Nat) (x : Ctx) (h : BitVec 12) (g : Byte) :
    (s.countArrival t x h g).memView = s.memView := by
  unfold State.countArrival
  dsimp only
  split <;> simp

@[simp] theorem State.arriveAt_view (s : State) (t c : Nat) (h : BitVec 12) (mems fabs : List Nat) :
    (s.arriveAt t c h mems fabs).memView = s.memView := by
  simp [State.arriveAt]

@[simp] theorem State.plainJoin_view (s : State) (t c : Nat) (h : BitVec 12) :
    (s.plainJoin t c h).memView = s.memView := by
  unfold State.plainJoin
  dsimp only
  split <;> simp

@[simp] theorem State.hurArrive_view (s : State) (t c : Nat) (h : BitVec 12) :
    (s.hurArrive t c h).memView = s.memView := by
  simp [State.hurArrive]
@[simp] theorem State.hurReport_view (s : State) (j : Nat) (h : BitVec 12) : (s.hurReport j h).memView = s.memView := by
  simp [State.hurReport]
@[simp] theorem State.setHurTimeout_view (s : State) (ticks : BitVec 32) :
    (s.setHurTimeout ticks).memView = s.memView := by
  simp [State.setHurTimeout]
@[simp] theorem State.dropEarly_view (s : State) (j : Nat) : (s.dropEarly j).memView = s.memView := (rfl)

@[simp] theorem State.nameHurdles_view (s : State) (job : BitVec 16) (gen : Byte) (hs : List HurRec) :
    (s.nameHurdles job gen hs).memView = s.memView := by
  unfold State.nameHurdles
  split <;> simp

/-! ### Waiting contexts and failed tiles -/

@[simp] theorem State.outFault_view (s t : State) : (s.outFault t).memView = t.memView := by
  unfold State.outFault
  split <;> simp

/-! ### Chains -/

@[simp] theorem State.writeCode_view (s : State) (t base : Nat) (b : List Byte) (off n : Nat) :
    (s.writeCode t base b off n).memView = s.memView := by
  induction n generalizing s base off with
  | zero => rfl
  | succ n ih =>
    rw [State.writeCode, ih]
    rfl

@[simp] theorem State.loadCtx_view (s : State) (b : List Byte) (r : CtxRec) (chain job : BitVec 16) (gen : Byte)
    (peers : List Coord) (ch : List ChanRec) (code : Nat) :
    (s.loadCtx b r chain job gen peers ch code).memView = s.memView := by
  simp [State.loadCtx]
@[simp] theorem State.freeSlots_view (s : State) : s.freeSlots.memView = s.memView := by simp [State.freeSlots]
@[simp] theorem State.ownPart_view (s : State) (p : Nat) (job : BitVec 16) : (s.ownPart p job).memView = s.memView := by
  simp [State.ownPart]
@[simp] theorem State.startCtx_view (s : State) (t c : Nat) : (s.startCtx t c).memView = s.memView := by
  simp [State.startCtx]
@[simp] theorem State.startAll_view (s : State) (cs : List (Nat × Nat)) : (s.startAll cs).memView = s.memView := by
  simp [State.startAll]

@[simp] theorem State.unload_view (s : State) (p : Nat) (chain : BitVec 16) :
    (s.unload p chain).memView = s.memView := by
  unfold State.unload
  exact memView_foldl (fun _ _ => by rfl) _ _

@[simp] theorem State.unloadCmd_view (s : State) (r : Nat) (blk : Block) (tag : BitVec 16) :
    (s.unloadCmd r blk tag).memView = s.memView := by
  simp [State.unloadCmd]

/-! ### The Crook -/

@[simp] theorem State.unlit_view (s : State) (n e : Nat) : (s.unlit n e).memView = s.memView := by
  unfold State.unlit
  split <;> simp

@[simp] theorem State.ringOut_view (s : State) (n e : Nat) (why : BitVec 4) :
    (s.ringOut n e why).memView = s.memView := by
  unfold State.ringOut
  split <;> simp

@[simp] theorem State.refuseMove_view (s : State) (n e reason : Nat) : (s.refuseMove n e reason).memView = s.memView :=
    (rfl)
@[simp] theorem State.keepSkein_view (s : State) (q : Nat) : (s.keepSkein q).memView = s.memView := (rfl)
@[simp] theorem State.assignLane_view (s : State) (n e : Nat) (k : BitVec 3) (j : Nat) :
    (s.assignLane n e k j).memView = s.memView := by
  simp [State.assignLane]
@[simp] theorem State.markFaulted_view (s : State) (n e : Nat) : (s.markFaulted n e).memView = s.memView := (rfl)

@[simp] theorem State.takeover_view (s : State) (q : Nat) (tx : Bool) (j : Nat) (k : BitVec 3) :
    (s.takeover q tx j k).memView = s.memView := by
  unfold State.takeover
  dsimp only
  repeat' split
  all_goals simp

@[simp] theorem State.autoPark_view (s : State) (n e : Nat) (again : Option (BitVec 3)) (retry : Bool) :
    (s.autoPark n e again retry).memView = s.memView := by
  simp [State.autoPark]

@[simp] theorem State.faultElem_view (s : State) (n e : Nat) : (s.faultElem n e).memView = s.memView := by
  unfold State.faultElem
  dsimp only
  split <;> simp

@[simp] theorem State.lineFail_view (s : State) (n e : Nat) (r : Run) : (s.lineFail n e r).memView = s.memView := by
  unfold State.lineFail
  dsimp only
  repeat' split
  all_goals simp

@[simp] theorem State.sendTrain_view (s : State) (q j : Nat) : (s.sendTrain q j).memView = s.memView := (rfl)
@[simp] theorem State.beginTrain_view (s : State) (q j : Nat) : (s.beginTrain q j).memView = s.memView := (rfl)

@[simp] theorem State.ringTracks_view (s : State) (n e : Nat) : (s.ringTracks n e).memView = s.memView := by
  unfold State.ringTracks
  dsimp only
  split <;> simp

@[simp] theorem State.moveArrived_view (s : State) (n e : Nat) (r : Run) :
    (s.moveArrived n e r).memView = s.memView := by
  unfold State.moveArrived
  dsimp only
  repeat' split
  all_goals simp

@[simp] theorem State.applyCoef_view (s : State) (n : Nat) (v : Bool × Nat × Nat × BitVec 32) :
    (s.applyCoef n v).memView = s.memView := by
  simp [State.applyCoef]

@[simp] theorem State.slotZero_view (s : State) (n : Nat) (smp : CrookSample) :
    (s.slotZero n smp).memView = s.memView := by
  unfold State.slotZero
  dsimp only
  rw [memView_foldl (fun _ _ => by rfl)]
  split <;> split <;> simp

@[simp] theorem State.crookPut_view (s : State) (n : Nat) (outs : List (Nat × ElemOut)) :
    (s.crookPut n outs).memView = s.memView := by
  simp [State.crookPut]

@[simp] theorem State.crookEnds_view (s : State) (n : Nat) (outs : List (Nat × ElemOut)) :
    (s.crookEnds n outs).memView = s.memView := by
  unfold State.crookEnds
  refine memView_foldl (fun s b => ?_) _ _
  split <;> simp

@[simp] theorem State.ringPower_view (s : State) (n i : Nat) : (s.ringPower n i).memView = s.memView := by
  simp [State.ringPower]

@[simp] theorem State.crookB_view (s : State) (n : Nat) : (s.crookB n).memView = s.memView := by
  unfold State.crookB
  split
  · exact memView_foldl (fun _ _ => by rfl) _ _
  · exact memView_foldl (fun _ _ => by rfl) _ _

@[simp] theorem State.crookAdapt_view (s : State) (n p : Nat) (smp : CrookSample) :
    (s.crookAdapt n p smp).memView = s.memView := by
  simp [State.crookAdapt]

/-! ### Element commands -/

@[simp] theorem State.badCmd_view (s : State) (n : Nat) : (s.badCmd n).memView = s.memView := (rfl)

@[simp] theorem State.leaveLane_view (s : State) (n e : Nat) (keep : Option Nat) :
    (s.leaveLane n e keep).memView = s.memView := by
  unfold State.leaveLane
  split <;> simp

@[simp] theorem State.beginMove_view (s : State) (n e : Nat) (slot : Option (BitVec 3)) (lane : BitVec 2)
    (seek : Bool) : (s.beginMove n e slot lane seek).memView = s.memView := by
  unfold State.beginMove
  dsimp only
  split <;> simp

@[simp] theorem State.tryMove_view (s : State) (n e : Nat) (slot : Option (BitVec 3)) (lane : BitVec 2) (seek : Bool)
    (earlier : List (Nat × BitVec 4)) (others : List (Nat × BitVec 4 × BitVec 4)) :
    (s.tryMove n e slot lane seek earlier others).memView = s.memView := by
  unfold State.tryMove
  dsimp only
  split <;> simp

@[simp] theorem State.moveCmd_view (s : State) (n e : Nat) (cmd : BitVec 4) (slot : BitVec 3) (lane : BitVec 2) :
    (s.moveCmd n e cmd slot lane).memView = s.memView := by
  simp [State.moveCmd]
@[simp] theorem State.selCmd_view (s : State) (n e : Nat) (slot : Option (BitVec 3)) :
    (s.selCmd n e slot).memView = s.memView := by
  simp [State.selCmd]
@[simp] theorem State.holdCmd_view (s : State) (n e : Nat) : (s.holdCmd n e).memView = s.memView := by
  simp [State.holdCmd]
@[simp] theorem State.releaseCmd_view (s : State) (n e : Nat) : (s.releaseCmd n e).memView = s.memView := by
  simp [State.releaseCmd]
@[simp] theorem State.testCmd_view (s : State) (n e : Nat) : (s.testCmd n e).memView = s.memView := by
  simp [State.testCmd]
@[simp] theorem State.clearCmd_view (s : State) (n e : Nat) : (s.clearCmd n e).memView = s.memView := (rfl)

@[simp] theorem State.runCmd_view (s : State) (n e : Nat) (cmd : BitVec 4) (slot : BitVec 3) (lane : BitVec 2) :
    (s.runCmd n e cmd slot lane).memView = s.memView := by
  unfold State.runCmd
  dsimp only
  repeat' split
  all_goals simp

@[simp] theorem State.elemCmd_view (s : State) (n e : Nat) (cmd : BitVec 4) (slot : BitVec 3) (lane : BitVec 2) :
    (s.elemCmd n e cmd slot lane).memView = s.memView := by
  simp [State.elemCmd]

@[simp] theorem State.nextCmds_view (s : State) (n : Nat) : (s.nextCmds n).memView = s.memView := by
  unfold State.nextCmds
  refine memView_foldl (fun s b => ?_) _ _
  split
  · simp
  · rfl

@[simp] theorem State.runQueued_view (s : State) (n e : Nat) (q : Queued) :
    (s.runQueued n e q).memView = s.memView := by
  simp [State.runQueued]

@[simp] theorem State.expectMove_view (s : State) (n : Nat) (m : Move) : (s.expectMove n m).memView = s.memView := by
  unfold State.expectMove
  split <;> simp

@[simp] theorem State.setMove_view (s : State) (n : Nat) (m : Move) (earlier : List (Nat × BitVec 4))
    (others : List (Nat × BitVec 4 × BitVec 4)) : (s.setMove n m earlier others).memView = s.memView := by
  simp [State.setMove]

@[simp] theorem State.holdEngine_view (s : State) (n : Nat) (why : BitVec 4) (parkedToo : Bool) :
    (s.holdEngine n why parkedToo).memView = s.memView := by
  unfold State.holdEngine
  dsimp only
  rw [memView_foldl (fun _ _ => by rfl), memView_foldl (fun s b => ?_)]
  split
  · rfl
  · simp

@[simp] theorem State.startProgs_view (s : State) (n : Nat) : (s.startProgs n).memView = s.memView := (rfl)

/-! ### Light paths -/

@[simp] theorem State.ecsControl_view (s : State) (x : Nat) (v : Byte) : (s.ecsControl x v).memView = s.memView := (rfl)
@[simp] theorem State.setFeedRef_view (s : State) (q : Nat) (secondary : Bool) (v : FeedRef) :
    (s.setFeedRef q secondary v).memView = s.memView := (rfl)
@[simp] theorem State.lineReset_view (s : State) (q : Nat) : (s.lineReset q).memView = s.memView := by
  simp [State.lineReset]

@[simp] theorem State.dropRefs_view (s : State) (x : Nat) : (s.dropRefs x).memView = s.memView := by
  unfold State.dropRefs
  dsimp only
  simp

@[simp] theorem State.takeRefs_view (s : State) (x : Nat) : (s.takeRefs x).memView = s.memView := by
  simp [State.takeRefs]
@[simp] theorem State.darkBus_view (s : State) (q : Nat) : (s.darkBus q).memView = s.memView := by simp [State.darkBus]
@[simp] theorem State.loseFeeds_view (s : State) (x : Nat) (fibres : BitVec 4) :
    (s.loseFeeds x fibres).memView = s.memView := by
  simp [State.loseFeeds]

@[simp] theorem State.loadReach_view (s : State) : s.loadReach.memView = s.memView := by
  unfold State.loadReach
  dsimp only
  rw [memView_foldl (fun _ _ => by rfl), memView_foldl (fun _ _ => by rfl), memView_foldl (fun _ _ => by rfl)]

@[simp] theorem State.loadOptics_view (s : State) : s.loadOptics.memView = s.memView := by
  unfold State.loadOptics
  dsimp only
  rw [memView_foldl (fun _ _ => by rfl), memView_foldl (fun _ _ => by rfl), State.loadReach_view]

@[simp] theorem State.retrainStrand_view (s : State) (fd i : Nat) : (s.retrainStrand fd i).memView = s.memView := by
  unfold State.retrainStrand
  dsimp only
  split <;> simp

@[simp] theorem State.quiesceSkein_view (s : State) (q : Nat) : (s.quiesceSkein q).memView = s.memView := by
  simp [State.quiesceSkein]
@[simp] theorem State.releaseLane_view (s : State) (q j : Nat) : (s.releaseLane q j).memView = s.memView := by
  simp [State.releaseLane]
@[simp] theorem State.litLine_view (s : State) (q k : Nat) : (s.litLine q k).memView = s.memView := by
  simp [State.litLine]
@[simp] theorem State.darkLine_view (s : State) (q k : Nat) : (s.darkLine q k).memView = s.memView := (rfl)
@[simp] theorem State.fadeLines_view (s : State) (q : Nat) : (s.fadeLines q).memView = s.memView := by
  simp [State.fadeLines]
@[simp] theorem State.fadeSet_view (s : State) (q level : Nat) : (s.fadeSet q level).memView = s.memView := (rfl)

@[simp] theorem State.switchSource_view (s : State) (q : Nat) (secondary : Bool) :
    (s.switchSource q secondary).memView = s.memView := by
  unfold State.switchSource
  dsimp only
  split <;> simp [memView_foldl (fun (s : State) (b : Nat) => State.updElem_view s _ _ _)]

@[simp] theorem State.scheduled_view (s : State) (q : Nat) : (s.scheduled q).memView = s.memView := by
  simp [State.scheduled]

@[simp] theorem State.stallLanes_view (s : State) (q : Nat) : (s.stallLanes q).memView = s.memView := by
  unfold State.stallLanes
  refine memView_foldl (fun s b => ?_) _ _
  split
  · dsimp only
    split <;> simp
  · rfl

/-! ### Checkpoints and the twin -/

@[simp] theorem State.failCommit_view (s : State) (j : Nat) (reason : BitVec 4) :
    (s.failCommit j reason).memView = s.memView := by
  simp [State.failCommit]

@[simp] theorem State.commitReady_view (s : State) (j : Nat) (byHolder : Bool) :
    (s.commitReady j byHolder).memView = s.memView := by
  unfold State.commitReady
  dsimp only
  split <;> simp

@[simp] theorem State.sendUnits_view (s : State) (job : BitVec 16) (gen : Byte) (g : Nat) (back : Bool) (arg : Word)
    (data : List Byte) : (s.sendUnits job gen g back arg data).memView = s.memView := by
  simp [State.sendUnits]
@[simp] theorem State.sendLead_view (s : State) (job : BitVec 16) (gen : Byte) (back : Bool) (arg : Word) (total : Nat)
    (set : List Byte) : (s.sendLead job gen back arg total set).memView = s.memView := by
  simp [State.sendLead]
@[simp] theorem State.streamGran_view (s : State) (j g : Nat) (full : Bool) :
    (s.streamGran j g full).memView = s.memView := by
  simp [State.streamGran]
@[simp] theorem State.streamLead_view (s : State) (j : Nat) (full : Bool) :
    (s.streamLead j full).memView = s.memView := by
  simp [State.streamLead]
@[simp] theorem State.streamAll_view (s : State) (j : Nat) (full : Bool) (gs : List Nat) :
    (s.streamAll j full gs).memView = s.memView := by
  simp [State.streamAll]

@[simp] theorem State.promote_view (s : State) (h : Nat) : (s.promote h).memView = s.memView := by
  unfold State.promote
  dsimp only
  split <;> simp

@[simp] theorem State.abandonExport_view (s : State) (h : Nat) : (s.abandonExport h).memView = s.memView := by
  simp [State.abandonExport]
@[simp] theorem State.ackGran_view (s : State) (p : Packet) (lead back sealed bad : Bool) :
    (s.ackGran p lead back sealed bad).memView = s.memView := by
  simp [State.ackGran]
@[simp] theorem State.sealVersion_view (s : State) (h : Nat) : (s.sealVersion h).memView = s.memView := (rfl)
@[simp] theorem State.wakeMemory_view (s : State) : s.wakeMemory.memView = s.memView := by simp [State.wakeMemory]
@[simp] theorem State.holdLead_view (s : State) (h : Nat) (p : Packet) : (s.holdLead h p).memView = s.memView := (rfl)

@[simp] theorem State.holdUnit_view (s : State) (h : Nat) (p : Packet) : (s.holdUnit h p).memView = s.memView := by
  unfold State.holdUnit
  dsimp only
  split <;> simp

@[simp] theorem State.openVersion_view (s : State) (p : Packet) : (s.openVersion p).1.memView = s.memView := by
  unfold State.openVersion
  dsimp only
  repeat' split
  all_goals simp

@[simp] theorem State.holdGran_view (s : State) (p : Packet) (uncorrectable : Bool) :
    (s.holdGran p uncorrectable).memView = s.memView := by
  unfold State.holdGran
  have hv := (s.wakeMemory.openVersion_view p).trans s.wakeMemory_view
  generalize s.wakeMemory.openVersion p = o at hv
  obtain ⟨s1, _ | h⟩ := o
  · exact hv
  · dsimp only at hv ⊢
    repeat' split
    all_goals simp [hv]

@[simp] theorem State.restoreEnd_view (s : State) (j : Nat) (st : Status) :
    (s.restoreEnd j st).memView = s.memView := by
  unfold State.restoreEnd
  dsimp only
  split <;> simp

@[simp] theorem State.sendHeld_view (s : State) (h : Nat) (v : Version) (g : Nat) :
    (s.sendHeld h v g).memView = s.memView := by
  simp [State.sendHeld]
@[simp] theorem State.heldLead_view (s : State) (h : Nat) (v : Version) : (s.heldLead h v).memView = s.memView := by
  simp [State.heldLead]
@[simp] theorem State.sendRestore_view (s : State) (h : Nat) (v : Version) (gs : List Nat) :
    (s.sendRestore h v gs).memView = s.memView := by
  simp [State.sendRestore]
@[simp] theorem State.restoreRow_view (s : State) (h : Nat) (row : Word) (gen : Byte) :
    (s.restoreRow h row gen).memView = s.memView := by
  simp [State.restoreRow]

@[simp] theorem State.serveRestore_view (s : State) (p : Packet) : (s.serveRestore p).memView = s.memView := by
  unfold State.serveRestore
  dsimp only
  repeat' split
  all_goals simp

@[simp] theorem State.askRestore_view (s : State) (j : Nat) : (s.askRestore j).memView = s.memView := by
  simp [State.askRestore]
@[simp] theorem State.regran_view (s : State) (j g : Nat) : (s.regran j g).memView = s.memView := by simp [State.regran]

@[simp] theorem State.reheld_view (s : State) (p : Packet) (gs : List Nat) : (s.reheld p gs).memView = s.memView := by
  unfold State.reheld
  repeat' split
  all_goals simp

@[simp] theorem State.resendGran_view (s : State) (p : Packet) (acks : Bool) :
    (s.resendGran p acks).memView = s.memView := by
  unfold State.resendGran
  dsimp only
  split <;> simp

@[simp] theorem State.goTwinless_view (s : State) : s.goTwinless.memView = s.memView := by simp [State.goTwinless]

/-! ### Power domains going off -/

@[simp] theorem State.transitOff_view (s : State) : s.transitOff.memView = s.memView := (rfl)
@[simp] theorem State.sourcesSafe_view (s : State) : s.sourcesSafe.memView = s.memView := by simp [State.sourcesSafe]

@[simp] theorem State.abortMain_view (s : State) : s.abortMain.memView = s.memView := by
  unfold State.abortMain
  dsimp only
  simp

/-! ### The flock -/

@[simp] theorem State.updObsC_view (s : State) (c : Coord) (f : Obs → Obs) : (s.updObsC c f).memView = s.memView := by
  simp [State.updObsC]
@[simp] theorem State.learnBell_view (s : State) : s.learnBell.memView = s.memView := by simp [State.learnBell]
@[simp] theorem State.flockDrop_view (s : State) (i : Nat) : (s.flockDrop i).memView = s.memView := (rfl)
@[simp] theorem State.dropRequest_view (s : State) (c : Coord) : (s.dropRequest c).memView = s.memView := by
  simp [State.dropRequest]
@[simp] theorem State.noteSender_view (s : State) (h : FlockHdr) : (s.noteSender h).memView = s.memView := by
  simp [State.noteSender]
@[simp] theorem State.beginBindOff_view (s : State) (cmd : Option (Nat × BitVec 16)) :
    (s.beginBindOff cmd).memView = s.memView := by
  simp [State.beginBindOff]
@[simp] theorem State.enterOrder_view (s : State) (c : Coord) (slot : Nat) :
    (s.enterOrder c slot).memView = s.memView := by
  simp [State.enterOrder]

@[simp] theorem State.evaluate_view (s : State) (r : ExpelReq) : (s.evaluate r).memView = s.memView := by
  unfold State.evaluate
  dsimp only
  split <;> simp

@[simp] theorem State.evaluateAll_view (s : State) : s.evaluateAll.memView = s.memView := by simp [State.evaluateAll]
@[simp] theorem State.setRoute_view (s : State) (fd : Nat) (c : Coord) (e : RouteEntry) :
    (s.setRoute fd c e).memView = s.memView := (rfl)

@[simp] theorem State.variantRoutes_view (s : State) (c : Coord) : (s.variantRoutes c).memView = s.memView := by
  unfold State.variantRoutes
  split <;> simp

@[simp] theorem State.moveAll_view (s : State) (n : Nat) (others : List (Nat × BitVec 4 × BitVec 4)) (ms : List Move)
    (earlier : List (Nat × BitVec 4)) : (s.moveAll n others ms earlier).memView = s.memView := by
  induction ms generalizing s earlier with
  | nil => rfl
  | cons m ms ih => rw [State.moveAll, ih, State.setMove_view]

@[simp] theorem State.variantMoves_view (s : State) (c : Coord) : (s.variantMoves c).memView = s.memView := by
  unfold State.variantMoves
  repeat' split
  · rfl
  · rfl
  · refine memView_foldl (fun s b => ?_) _ _
    dsimp only
    split <;> simp

@[simp] theorem State.applyVariant_view (s : State) (c : Coord) : (s.applyVariant c).memView = s.memView := by
  simp [State.applyVariant]
@[simp] theorem State.allFull_view (s : State) : s.allFull.memView = s.memView := by simp [State.allFull]
@[simp] theorem State.twinAfter_view (s : State) (c prev : Coord) : (s.twinAfter c prev).memView = s.memView := by
  simp [State.twinAfter]

@[simp] theorem State.unblank_view (s : State) : s.unblank.memView = s.memView := by
  unfold State.unblank
  dsimp only
  split
  · exact memView_foldl (fun _ _ => by rfl) _ _
  · rfl

@[simp] theorem State.setSpare_view (s : State) (on : Bool) : (s.setSpare on).memView = s.memView := (rfl)
@[simp] theorem State.applyPen_view (s : State) (c : Coord) : (s.applyPen c).memView = s.memView := by
  simp [State.applyPen]
@[simp] theorem State.acceptVerdict_view (s : State) (c : Coord) (classes : BitVec 4) (term : BitVec 32) :
    (s.acceptVerdict c classes term).memView = s.memView := by
  simp [State.acceptVerdict]
@[simp] theorem State.ownReports_view (s : State) : s.ownReports.memView = s.memView := by simp [State.ownReports]
@[simp] theorem State.applyUnpen_view (s : State) (c : Coord) (digest : Word) :
    (s.applyUnpen c digest).memView = s.memView := (rfl)
@[simp] theorem State.sendUnpen_view (s : State) (c : Coord) (digest : Word) :
    (s.sendUnpen c digest).memView = s.memView := by
  simp [State.sendUnpen]

@[simp] theorem State.nameAccusers_view (s : State) (jobs : List (BitVec 16)) :
    (s.nameAccusers jobs).memView = s.memView := by
  unfold State.nameAccusers
  exact memView_foldl (fun _ _ => State.raise_view ..) _ _

@[simp] theorem State.startProbe_view (s : State) (c : Coord) (tile : BitVec 16) :
    (s.startProbe c tile).memView = s.memView := by
  unfold State.startProbe
  dsimp only
  split <;> simp

@[simp] theorem State.orderProbe_view (s : State) (c : Coord) (job : BitVec 16) (tile : BitVec 16) :
    (s.orderProbe c job tile).memView = s.memView := by
  simp [State.orderProbe]
@[simp] theorem State.takeAccuse_view (s : State) (c : Coord) (job : BitVec 16) (tile : BitVec 16) :
    (s.takeAccuse c job tile).memView = s.memView := by
  simp [State.takeAccuse]
@[simp] theorem State.noteNamed_view (s : State) (c : Coord) (tile : BitVec 16) :
    (s.noteNamed c tile).memView = s.memView := by
  simp [State.noteNamed]
@[simp] theorem State.countUnsub_view (s : State) (c : Coord) (n : Nat) : (s.countUnsub c n).memView = s.memView := by
  simp [State.countUnsub]
@[simp] theorem State.ownRequest_view (s : State) (score : Byte) : (s.ownRequest score).memView = s.memView := by
  simp [State.ownRequest]
@[simp] theorem State.eachLane_view (s : State) (f : LaneTest → LaneTest) : (s.eachLane f).memView = s.memView := by
  simp [State.eachLane]
@[simp] theorem State.graduateReport_view (s : State) : s.graduateReport.memView = s.memView := by
  simp [State.graduateReport]
@[simp] theorem State.nameVacancy_view (s : State) (g : BitVec 7) : (s.nameVacancy g).memView = s.memView := by
  simp [State.nameVacancy]

/-! ### The link layer -/

@[simp] theorem State.sendNak_view (s : State) (fd k : Nat) : (s.sendNak fd k).memView = s.memView := (rfl)
@[simp] theorem State.nakGap_view (s : State) (fd k : Nat) : (s.nakGap fd k).memView = s.memView := by
  simp [State.nakGap]
@[simp] theorem State.countFec_view (s : State) (fd k : Nat) (h : FlitHdr) : (s.countFec fd k h).memView = s.memView :=
    (rfl)
@[simp] theorem State.countCrc_view (s : State) (fd k : Nat) : (s.countCrc fd k).memView = s.memView := (rfl)
@[simp] theorem State.seqGap_view (s : State) (fd k : Nat) (seq : BitVec 12) :
    (s.seqGap fd k seq).memView = s.memView := by
  simp [State.seqGap]
@[simp] theorem State.acceptData_view (s : State) (fd k : Nat) (d : FlitData) :
    (s.acceptData fd k d).memView = s.memView := by
  simp [State.acceptData]
@[simp] theorem State.announce_view (s : State) (fd k : Nat) : (s.announce fd k).memView = s.memView := (rfl)
@[simp] theorem State.setDisc_view (s : State) (fd k : Nat) (st : BitVec 3) : (s.setDisc fd k st).memView = s.memView :=
    (rfl)
@[simp] theorem State.unpenLink_view (s : State) (fd k : Nat) : (s.unpenLink fd k).memView = s.memView := by
  simp [State.unpenLink]

@[simp] theorem State.settleLink_view (s : State) (fd k : Nat) : (s.settleLink fd k).memView = s.memView := by
  unfold State.settleLink
  dsimp only
  repeat' split
  all_goals simp

@[simp] theorem State.misroute_view (s : State) (q j : Nat) (tx : Bool) : (s.misroute q j tx).memView = s.memView := by
  simp [State.misroute]

@[simp] theorem State.laneServes_view (s : State) (fd i : Nat) (t : TrainInfo) :
    (s.laneServes fd i t).memView = s.memView := by
  unfold State.laneServes
  dsimp only
  split <;> simp

@[simp] theorem State.trainOptical_view (s : State) (fd i : Nat) (t : TrainInfo) :
    (s.trainOptical fd i t).memView = s.memView := by
  unfold State.trainOptical
  split <;> simp

@[simp] theorem State.trainElec_view (s : State) (fd k : Nat) (t : TrainInfo) :
    (s.trainElec fd k t).memView = s.memView := by
  simp [State.trainElec]
@[simp] theorem State.crossedLink_view (s : State) (fd k : Nat) (digest : Word) :
    (s.crossedLink fd k digest).memView = s.memView := by
  simp [State.crossedLink]
@[simp] theorem State.fabricLoss_view (s : State) (p : Packet) (ep hur : Nat) :
    (s.fabricLoss p ep hur).memView = s.memView := by
  simp [State.fabricLoss]

@[simp] theorem State.dropped_view (s : State) (fd : Nat) (p : Packet) : (s.dropped fd p).memView = s.memView := by
  unfold State.dropped
  split <;> simp

/-! ### Tally, black box and lane tests -/

@[simp] theorem State.record_view (s : State) (tb : Word) (e : Event) (refused : Bool) :
    (s.record tb e refused).memView = s.memView := by
  unfold State.record
  dsimp only
  repeat' split
  all_goals simp

@[simp] theorem State.applyStaged_view (s : State) : s.applyStaged.memView = s.memView := by simp [State.applyStaged]

@[simp] theorem State.ringArrive_view (s : State) (x : Entry) : (s.ringArrive x).1.memView = s.memView := by
  unfold State.ringArrive
  dsimp only
  repeat' split
  all_goals simp

@[simp] theorem State.arrive_view (s : State) (e : Event) : (s.arrive e).1.memView = s.memView := by
  unfold State.arrive
  dsimp only
  generalize ht : State.ringArrive _ _ = o
  have hv := congrArg (fun o => o.1.memView) ht
  rw [State.ringArrive_view] at hv
  obtain ⟨s1, skipped⟩ := o
  dsimp only at hv ⊢
  repeat' split
  all_goals simp [← hv]

@[simp] theorem State.own_view (s : State) (code : BitVec 16) (sev : BitVec 3) (v : BitVec 32) :
    (s.own code sev v).memView = s.memView := by
  simp [State.own]
@[simp] theorem State.endStaging_view (s : State) : s.endStaging.memView = s.memView := by simp [State.endStaging]
@[simp] theorem State.latch_view (s : State) (i : BitVec 13) : (s.latch i).memView = s.memView := (rfl)

/-! ### Stages of cast-on and the sideband -/

@[simp] theorem State.postReport_view (s : State) (st : Nat) : (s.postReport st).memView = s.memView := by
  simp [State.postReport]
@[simp] theorem State.writeReport_view (s : State) (e : StageEnd) : (s.writeReport e).memView = s.memView := by
  simp [State.writeReport]

@[simp] theorem State.endIslandCmds_view (s : State) (st : Status) : (s.endIslandCmds st).memView = s.memView := by
  unfold State.endIslandCmds
  exact memView_foldl (fun _ _ => State.complete_view ..) _ _

@[simp] theorem State.freeBusy_view (s : State) (p : Nat → Bool) : (s.freeBusy p).memView = s.memView := by
  simp [State.freeBusy]
@[simp] theorem State.setMode_view (s : State) (m : BitVec 2) : (s.setMode m).memView = s.memView := by
  simp [State.setMode]
@[simp] theorem State.sideHeard_view (s : State) (f : SideFrame) (lost : Nat) :
    (s.sideHeard f lost).memView = s.memView := (rfl)
@[simp] theorem State.sendHandshake_view (s : State) : s.sendHandshake.memView = s.memView := by
  simp [State.sendHandshake]
@[simp] theorem State.bindOffEvents_view (s : State) : s.bindOffEvents.memView = s.memView := by
  simp [State.bindOffEvents]

/-! ### CO0 to CO5 -/

@[simp] theorem State.frogTrial_view (s : State) : s.frogTrial.memView = s.memView := by
  unfold State.frogTrial
  dsimp only
  split <;> simp

@[simp] theorem State.transitUp_view (s : State) : s.transitUp.memView = s.memView := by simp [State.transitUp]
@[simp] theorem State.memoryUp_view (s : State) : s.memoryUp.memView = s.memView := by simp [State.memoryUp]
@[simp] theorem State.startWindows_view (s : State) : s.startWindows.memView = s.memView := by simp [State.startWindows]

@[simp] theorem State.ramp_view (s : State) : s.ramp.memView = s.memView := by
  unfold State.ramp
  dsimp only
  split <;> simp

@[simp] theorem State.applyDie_view (s : State) (es : List Repair) (die : Nat) :
    (s.applyDie es die).memView = s.memView := by
  simp [State.applyDie]
@[simp] theorem State.co3Maps_view (s : State) (defects : List Repair) (digest : BitVec 256) :
    (s.co3Maps defects digest).memView = s.memView := by
  simp [State.co3Maps]
@[simp] theorem State.saveItems_view (s : State) (trained : List SavedItem) (failed : List Nat) :
    (s.saveItems trained failed).memView = s.memView := (rfl)
@[simp] theorem State.setFast_view (s : State) (c fast full : Nat) : (s.setFast c fast full).memView = s.memView :=
    (rfl)
@[simp] theorem State.trainStack_view (s : State) (bad : List (Nat × Nat)) (k : Nat) :
    (s.trainStack bad k).memView = s.memView := (rfl)
@[simp] theorem State.co4Train_view (s : State) (quals : List (Nat × Nat × BitVec 5)) :
    (s.co4Train quals).memView = s.memView := by
  simp [State.co4Train]

/-! ### CO6 to CO9 -/

@[simp] theorem State.setLaneq_view (s : State) (o : LaneOutcome) : (s.setLaneq o).memView = s.memView := (rfl)
@[simp] theorem State.qualify_view (s : State) (os : List LaneOutcome) : (s.qualify os).memView = s.memView := by
  simp [State.qualify]
@[simp] theorem State.saveLanes_view (s : State) (os : List LaneOutcome) : (s.saveLanes os).memView = s.memView := (rfl)
@[simp] theorem State.trainLink_view (s : State) (os : List LaneOutcome) (again : Bool) (fd k : Nat) :
    (s.trainLink os again fd k).memView = s.memView := by
  simp [State.trainLink]
@[simp] theorem State.trainPort_view (s : State) (os : List LaneOutcome) (again : Bool) (fd p : Nat) :
    (s.trainPort os again fd p).memView = s.memView := by
  simp [State.trainPort]

@[simp] theorem State.placeTaps_view (s : State) (x : Nat) (t : SourceTaps) :
    (s.placeTaps x t).memView = s.memView := by
  unfold State.placeTaps
  exact memView_foldl (fun _ _ => memView_foldl (fun _ _ => by rfl) _ _) _ _

@[simp] theorem State.checkSource_view (s : State) (x : Nat) (t : SourceTaps) :
    (s.checkSource x t).memView = s.memView := by
  simp [State.checkSource]
@[simp] theorem State.gaugeElem_view (s : State) (n e : Nat) : (s.gaugeElem n e).memView = s.memView := (rfl)

@[simp] theorem State.startEngine_view (s : State) (n : Nat) : (s.startEngine n).memView = s.memView := by
  unfold State.startEngine
  dsimp only
  rw [State.startProgs_view, memView_foldl (fun _ _ => State.gaugeElem_view ..), memView_foldl (fun _ _ => by rfl)]
  rfl

@[simp] theorem State.chooseFeed_view (s : State) (q : Nat) : (s.chooseFeed q).memView = s.memView := by
  simp [State.chooseFeed]
@[simp] theorem State.ownRings_view (s : State) (q : Nat) : (s.ownRings q).memView = s.memView := by
  simp [State.ownRings]
@[simp] theorem State.seekRing_view (s : State) (q j : Nat) (tx : Bool) (k : BitVec 3) :
    (s.seekRing q j tx k).memView = s.memView := by
  simp [State.seekRing]
@[simp] theorem State.seekYarn_view (s : State) (y : Yarn) : (s.seekYarn y).memView = s.memView := by
  simp [State.seekYarn]

@[simp] theorem State.checkSources_view (s : State) (sources : List (Option SourceTaps)) :
    (s.checkSources sources).memView = s.memView := by
  unfold State.checkSources
  refine memView_foldl (fun s b => ?_) _ _
  split <;> simp

@[simp] theorem State.measureUnit_view (s : State) (gauges : List (List Byte × Bool)) :
    (s.measureUnit gauges).memView = s.memView := by
  simp [State.measureUnit]

@[simp] theorem State.co7Start_view (s : State) (sources : List (Option SourceTaps)) (valid : List Nat)
    (gauges : List (List Byte × Bool)) (temps : List (BitVec 16)) :
    (s.co7Start sources valid gauges temps).memView = s.memView := by
  unfold State.co7Start
  dsimp only
  rw [memView_foldl (fun _ _ => by simp), memView_foldl (fun _ _ => State.startEngine_view ..)]
  simp [memView_foldl (fun (s : State) (b : Nat) => State.updEngine_view s _ _)]

@[simp] theorem State.saveYarns_view (s : State) (ys : List Yarn) : (s.saveYarns ys).memView = s.memView := (rfl)
@[simp] theorem State.planBudget_view (s : State) (p : Plan) : (s.planBudget p).memView = s.memView := (rfl)
@[simp] theorem State.loadRoutes_view (s : State) (p : Plan) : (s.loadRoutes p).memView = s.memView := by
  simp [State.loadRoutes]
@[simp] theorem State.loadTwin_view (s : State) : s.loadTwin.memView = s.memView := by simp [State.loadTwin]
@[simp] theorem State.planNow_view (s : State) (p : Plan) : (s.planNow p).memView = s.memView := by simp [State.planNow]
@[simp] theorem State.acceptPlan_view (s : State) (p : Plan) (digest : BitVec 256) :
    (s.acceptPlan p digest).memView = s.memView := by
  simp [State.acceptPlan]
@[simp] theorem State.retrainPorts_view (s : State) (os : List LaneOutcome) :
    (s.retrainPorts os).memView = s.memView := by
  simp [State.retrainPorts]
@[simp] theorem State.discover_view (s : State) : s.discover.memView = s.memView := by simp [State.discover]
@[simp] theorem State.sendReady_view (s : State) : s.sendReady.memView = s.memView := by simp [State.sendReady]
@[simp] theorem State.refence_view (s : State) : s.refence.memView = s.memView := by simp [State.refence]
@[simp] theorem State.takePlan_view (s : State) (p : Plan) (c : Coord) : (s.takePlan p c).memView = s.memView := by
  simp [State.takePlan]
@[simp] theorem State.beforeCo8_view (s : State) (p : Plan) (c : Coord) (os : List LaneOutcome) :
    (s.beforeCo8 p c os).memView = s.memView := by
  simp [State.beforeCo8]

/-! ### Power, resets and the timebase -/

@[simp] theorem State.dropBindOff_view (s : State) (st : Status) : (s.dropBindOff st).memView = s.memView := by
  unfold State.dropBindOff
  dsimp only
  split <;> simp

@[simp] theorem State.applyProt_view (s : State) (p : Nat) : (s.applyProt p).memView = s.memView := (rfl)
@[simp] theorem State.measurePower_view (s : State) (watts : Nat) (hotQuarterC : Int) :
    (s.measurePower watts hotQuarterC).memView = s.memView := (rfl)
@[simp] theorem State.loseLock_view (s : State) : s.loseLock.memView = s.memView := by simp [State.loseLock]
@[simp] theorem State.clearRefclk_view (s : State) : s.clearRefclk.memView = s.memView := by simp [State.clearRefclk]

/-! ### Control messages -/

@[simp] theorem State.orderMode_view (s : State) (m : BitVec 2) : (s.orderMode m).memView = s.memView := by
  simp [State.orderMode]
@[simp] theorem State.orderErased_view (s : State) (k c : Nat) (swept : Bool) :
    (s.orderErased k c swept).memView = s.memView := by
  simp [State.orderErased]
@[simp] theorem State.orderHard_view (s : State) : s.orderHard.memView = s.memView := (rfl)
@[simp] theorem State.orderRefs_view (s : State) : s.orderRefs.memView = s.memView := by simp [State.orderRefs]

/-! ### Register writes -/

@[simp] theorem State.updGate_view (s : State) (f : Gate → Gate) : (s.updGate f).memView = s.memView := (rfl)
@[simp] theorem State.writeMsix_view (s : State) (i : Nat) (x : Wr) : (s.writeMsix i x).memView = s.memView := by
  simp [State.writeMsix]
@[simp] theorem State.badAccess_view (s : State) (fw : Bool) : (s.badAccess fw).memView = s.memView := by
  simp [State.badAccess]

end Sys2Proof.Machine
end

section
/-! The canonical form of memory under the operations that write memory (06, R6, R127 to R132). -/

namespace Sys2Proof.Machine

open Sys2Proof

/-! ### The form, read off the view -/

/-- The canonical form, of what it speaks of alone. -/
def memCanon (v : Tab Byte × Tab Bool × Tab Nat × Tab (List Nat)) : Bool :=
  (tabWf memDef v.1 && tabWf (fun _ => false) v.2.1) && (tabWf (fun _ => 0) v.2.2.1 && tabWf (fun _ => []) v.2.2.2)

theorem Memory.wf_eq_canon (s : State) : Memory.wf s = memCanon s.memView := rfl

section
variable {s : State} (h : memCanon s.memView = true)
include h

theorem State.canon_fold {β : Type} {f : State → β → State}
    (hf : ∀ s b, memCanon s.memView = true → memCanon (f s b).memView = true) (l : List β) :
    memCanon (l.foldl f s).memView = true := Memory.wf_foldl hf l h

@[simp] theorem State.setCells_canon (a : Nat) (l : List Byte) : memCanon (s.setCells a l).memView = true :=
  State.setCells_wf a l h

@[simp] theorem State.setBad_canon (u : Nat) (v : Bool) : memCanon
    (s.setBad u v).memView = true := State.setBad_wf u v h

@[simp] theorem State.setFlips_canon (u : Nat) (v : List Nat) : memCanon (s.setFlips u v).memView = true :=
  State.setFlips_wf u v h

@[simp] theorem State.reportUe_canon (u : Nat) (x : Byte) : memCanon (s.reportUe u x).memView = true :=
  State.reportUe_wf u x h

@[simp] theorem State.garble_canon (l : Nat) (bs : List Nat) : memCanon (s.garble l bs).memView = true :=
  State.garble_wf l bs h

@[simp] theorem State.fixUnit_canon (u : Nat) : memCanon (s.fixUnit u).memView = true := State.fixUnit_wf u h

@[simp] theorem State.fixRange_canon (a n : Nat) : memCanon (s.fixRange a n).memView = true := State.fixRange_wf a n h

@[simp] theorem State.readRange_canon (a n : Nat) (x : Byte) : memCanon (s.readRange a n x).1.memView = true :=
  State.readRange_wf a n x h

@[simp] theorem State.writeRange_canon (a : Nat) (l : List Byte) (x : Byte) :
    memCanon (s.writeRange a l x).1.memView = true := State.writeRange_wf a l x h

@[simp] theorem State.clearRange_canon (lo hi : Nat) : memCanon (s.clearRange lo hi).memView = true :=
  State.clearRange_wf lo hi h

@[simp] theorem State.upset_canon (e : Nat × Nat) : memCanon (s.upset e).memView = true := State.upset_wf e h

@[simp] theorem State.memoryOff_canon : memCanon s.memoryOff.memView = true := State.memoryOff_wf h

end

/-! ### Units, transfers and the host's window -/

@[simp] theorem State.freeBytes_view (s : State) (n : Nat) : (s.freeBytes n).1.memView = s.memView := (rfl)

section
variable {s : State} (h : memCanon s.memView = true)
include h

@[simp] theorem State.readUnit_canon (u : Nat) (x : Byte) : memCanon (s.readUnit u x).1.memView = true := by
  unfold State.readUnit
  split <;> simp [h]

@[simp] theorem State.readXfer_canon (a n : Nat) : memCanon (s.readXfer a n).1.memView = true := by
  have hr := State.readRange_canon h a n 0
  unfold State.readXfer
  split <;> rename_i heq <;> rw [heq] at hr
  · exact hr
  · simpa using hr

@[simp] theorem State.readRows_canon (len : Nat) (l : List Nat) : memCanon (s.readRows len l).1.memView = true := by
  induction l generalizing s with
  | nil => exact h
  | cons a as ih =>
    have hr := State.readXfer_canon h a len
    rw [State.readRows]
    split <;> rename_i heq <;> rw [heq] at hr
    · exact ih hr
    · simpa using hr

@[simp] theorem State.scrambleAfter_canon (a : Nat) (l : List Byte) : memCanon
    (s.scrambleAfter a l).memView = true := by
  unfold State.scrambleAfter
  refine State.canon_fold h (fun s u h => ?_) _
  split
  · exact h
  · exact State.setCells_canon (s := { s with free := s.free + 1 }) h _ _

@[simp] theorem State.writeXfer_canon (a : Nat) (l : List Byte) : memCanon (s.writeXfer a l).1.memView = true := by
  have hw := State.writeRange_canon h a l 1
  unfold State.writeXfer
  split <;> rename_i heq <;> rw [heq] at hw
  · exact hw
  · exact State.scrambleAfter_canon hw a l

@[simp] theorem State.writeRows_canon (len : Nat) (l : List Byte) (as : List Nat) :
    memCanon (s.writeRows len l as).1.memView = true := by
  induction as generalizing s l with
  | nil => rw [State.writeRows]; exact h
  | cons a as ih =>
    have hw := State.writeXfer_canon h a (l.take len)
    rw [State.writeRows]
    split <;> rename_i heq <;> rw [heq] at hw
    · exact ih hw _
    · refine State.canon_fold hw (fun s b h => ?_) _
      exact State.setCells_canon (s := { s with free := s.free + 1 }) h _ _

end

@[simp] theorem State.flushMerge_canon {s : State} (m : Merge) (h : memCanon s.memView = true) :
    memCanon (s.flushMerge m).memView = true := by
  unfold State.flushMerge
  refine State.canon_fold h (fun s w h => ?_) _
  have hw := State.writeRange_canon h (m.line + w.1) w.2 3
  split <;> rename_i heq <;> rw [heq] at hw
  · exact hw
  · exact hw

@[simp] theorem State.flushWhere_canon {s : State} (p : Merge → Bool) (h : memCanon s.memView = true) :
    memCanon (s.flushWhere p).memView = true := by
  unfold State.flushWhere
  refine State.canon_fold ?_ (fun s m h => State.flushMerge_canon m h) _
  simp [h]

@[simp] theorem State.bar2Part_canon {s : State} (a : Nat) (l : List Byte) (h : memCanon s.memView = true) : memCanon
    (s.bar2Part a l).memView = true := by
  unfold State.bar2Part
  dsimp only
  repeat' split
  all_goals simp [h]

@[simp] theorem State.chWrite_canon {s : State} (t c ep : Nat) (v : Vec) (last : Bool) (h : memCanon s.memView = true) :
    memCanon (s.chWrite t c ep v last).memView = true := by
  unfold State.chWrite
  dsimp only
  rw [State.updCtx_view]
  exact State.writeRange_canon h _ _ _

@[simp] theorem State.chDeliver_canon {s : State} (t c ep : Nat) (job : BitVec 16) (gen : Byte) (v : Vec) (last : Bool)
    (src : Coord × Nat × Nat × Nat) (h : memCanon s.memView = true) : memCanon
    (s.chDeliver t c ep job gen v last src).memView = true := by
  unfold State.chDeliver
  dsimp only
  repeat' split
  all_goals simp [h]

@[simp] theorem State.chDrain_canon {s : State} (t c ep n : Nat) (h : memCanon s.memView = true) :
    memCanon (s.chDrain t c ep n).memView = true := by
  induction n generalizing s with
  | zero => exact h
  | succ n ih =>
    rw [State.chDrain]
    split
    · exact h
    · exact ih (State.chWrite_canon t c ep _ _ (by simpa using h))

@[simp] theorem State.chSend_canon {s : State} (t c ep : Nat) (v : Vec) (last : Bool) (h : memCanon s.memView = true) :
    memCanon (s.chSend t c ep v last).memView = true := by
  unfold State.chSend
  dsimp only
  split <;> simp [h]

@[simp] theorem State.redLand_canon {s : State} (j : Nat) (x : BitVec 12) (g : Byte) (i : Nat) (bytes : List Byte)
    (h : memCanon s.memView = true) : memCanon (s.redLand j x g i bytes).memView = true := by
  unfold State.redLand
  refine State.canon_fold h (fun s m h => ?_) _
  repeat' split
  · exact h
  · exact State.writeRange_canon h _ _ _
  · exact h

/-- A table moved entry by entry is canonical. -/
theorem tabMove_wf {α : Type} [DecidableEq α] {d : Nat → α} (f : Nat → Option Nat) (t : Tab α) :
    tabWf d (t.foldl (fun t p => match f p.1 with | some a => tabSet d t a p.2 | none => t) []) = true := by
  have hkeep : ∀ (l u : Tab α), tabWf d u = true →
      tabWf d (l.foldl (fun t p => match f p.1 with | some a => tabSet d t a p.2 | none => t) u) = true := by
    intro l
    induction l with
    | nil => exact fun u hu => hu
    | cons p l ih =>
      intro u hu
      rw [List.foldl_cons]
      refine ih _ ?_
      split
      · exact tabSet_wf _ hu
      · exact hu
  exact hkeep t [] rfl

@[simp] theorem State.applyMap_canon {s : State} (die row : Nat) (m : RowMap) (h : memCanon s.memView = true) : memCanon
    (s.applyMap die row m).memView = true := by
  unfold State.applyMap
  dsimp only
  refine State.canon_fold ?_ (fun s c h => ?_) _
  · exact Memory.wf_mk h (fun _ => tabMove_wf _ _) (fun _ => tabMove_wf _ _) id (fun _ => tabMove_wf _ _)
  · split
    · exact h
    · exact h

@[simp] theorem State.writeMap_canon {s : State} (die row : Nat) (m : RowMap) (h : memCanon s.memView = true) : memCanon
    (s.writeMap die row m).memView = true := by
  unfold State.writeMap
  split <;> simp [h]

@[simp] theorem State.applyPending_canon {s : State} (die row : Nat) (h : memCanon s.memView = true) : memCanon
    (s.applyPending die row).memView = true := by
  unfold State.applyPending
  repeat' split
  all_goals simp [h]

@[simp] theorem State.tileLost_canon {s : State} (die row p : Nat) (h : memCanon s.memView = true) : memCanon
    (s.tileLost die row p).memView = true := by
  unfold State.tileLost
  dsimp only
  repeat' split
  all_goals simp [h]

@[simp] theorem State.logicalLost_canon {s : State} (t : Nat) (h : memCanon s.memView = true) : memCanon
    (s.logicalLost t).memView = true := by
  simp [State.logicalLost, h]

@[simp] theorem State.failTile_canon {s : State} (t : Nat) (h : memCanon s.memView = true) : memCanon
    (s.failTile t).memView = true := by
  unfold State.failTile
  dsimp only
  split <;> simp [h]

@[simp] theorem State.applyDue_canon {s : State} (p : Nat) (h : memCanon s.memView = true) : memCanon
    (s.applyDue p).memView = true := by
  unfold State.applyDue
  exact State.canon_fold h (fun s b h => by simp [h]) _

@[simp] theorem State.writeImage_canon {s : State} (r : Nat) (job : BitVec 16) (gen : Byte) (b : List Byte)
    (peers : List Coord) (h : memCanon s.memView = true) : memCanon
    (s.writeImage r job gen b peers).memView = true := by
  unfold State.writeImage
  simp only [State.measure_view, State.ownPart_view, State.nameHurdles_view, State.memView_mk, State.memView_eta]
  rw [memView_foldl (fun _ _ => State.loadCtx_view ..)]
  exact State.canon_fold (State.canon_fold h (fun _ _ h => State.writeRange_canon h _ _ _) _)
    (fun _ _ h => State.writeRange_canon h _ _ _) _

@[simp] theorem State.commitRun_canon {s : State} (j : Nat) (h : memCanon s.memView = true) : memCanon
    (s.commitRun j).memView = true := by
  unfold State.commitRun
  dsimp only
  repeat' split
  all_goals simp [h]

@[simp] theorem State.putGran_canon {s : State} (g : Nat) (data : List Byte) (h : memCanon s.memView = true) : memCanon
    (s.putGran g data).memView = true := by
  simp [State.putGran, h]

@[simp] theorem State.putGrans_canon {s : State} (l : List (Nat × List Byte)) (h : memCanon s.memView = true) :
    memCanon (l.foldl (fun (s : State) e => s.putGran e.1 e.2) s).memView = true :=
  State.canon_fold h (fun _ _ h => State.putGran_canon _ _ h) l

@[simp] theorem State.restoreGran_canon {s : State} (p : Packet) (uncorrectable : Bool)
    (h : memCanon s.memView = true) : memCanon (s.restoreGran p uncorrectable).memView = true := by
  unfold State.restoreGran
  dsimp only
  repeat' split
  all_goals simp [h]

@[simp] theorem State.islandOff_canon {s : State} (p : Nat) (h : memCanon s.memView = true) : memCanon
    (s.islandOff p).memView = true := by
  unfold State.islandOff
  rw [State.freeSlots_view, ← Memory.wf_eq_canon]
  exact Memory.wf_mk h (tabFilter_wf _) (tabFilter_wf _) id (tabFilter_wf _)

@[simp] theorem State.mainOff_canon {s : State} (h : memCanon s.memView = true) :
    memCanon s.mainOff.memView = true := by
  unfold State.mainOff
  simp only [State.memView_mk, State.memView_eta]
  refine State.memoryOff_canon ?_
  rw [State.transitOff_view]
  exact State.canon_fold h (fun _ p h => State.islandOff_canon p h) _

@[simp] theorem State.runFrom_view (s : State) (r : CastRun) (first : Nat) : (s.runFrom r first).memView = s.memView :=
    (rfl)
@[simp] theorem State.startRun_view (s : State) (r : CastRun) : (s.startRun r).memView = s.memView := (rfl)
@[simp] theorem State.queueIsland_view (s : State) (p : Nat) (cmd : Option (Nat × BitVec 16)) :
    (s.queueIsland p cmd).memView = s.memView := by
  simp [State.queueIsland]
@[simp] theorem State.takeCoord_view (s : State) (c : Coord) : (s.takeCoord c).memView = s.memView := by
  simp [State.takeCoord]
@[simp] theorem State.applyAdmit_view (s : State) (c prev : Coord) (digest : Word) :
    (s.applyAdmit c prev digest).memView = s.memView := by
  simp [State.applyAdmit]

@[simp] theorem State.sendAdmit_view (s : State) (c : Coord) : (s.sendAdmit c).memView = s.memView := by
  unfold State.sendAdmit
  dsimp only
  split <;> simp

@[simp] theorem State.verdictCheck_view (s : State) (m : Nat) : (s.verdictCheck m).memView = s.memView := by
  simp [State.verdictCheck]
@[simp] theorem State.verdictAll_view (s : State) : s.verdictAll.memView = s.memView := by simp [State.verdictAll]
@[simp] theorem State.gossipNow_view (s : State) : s.gossipNow.memView = s.memView := by simp [State.gossipNow]

@[simp] theorem State.probedTile_canon {s : State} (t : Nat) (h : memCanon s.memView = true) : memCanon
    (s.probedTile t).memView = true := by
  unfold State.probedTile
  split <;> simp [h]

@[simp] theorem State.probeOutcome_canon {s : State} (c prober : Coord) (result : Byte) (dies : BitVec 40)
    (h : memCanon s.memView = true) : memCanon (s.probeOutcome c prober result dies).memView = true := by
  unfold State.probeOutcome
  dsimp only
  generalize hs : List.foldl _ _ _ = s2
  have h2 : memCanon s2.memView = true := by
    rw [← hs, memView_foldl (fun _ _ => State.jobEvent_view ..)]
    exact h
  repeat' split
  · simp [h2]
  · simp [h2]
  · exact State.canon_fold h2 (fun _ t h => State.probedTile_canon t h) _
  · exact h2
  · simp [h2]
  · exact h2
  · simp [h2]
  · exact h2

@[simp] theorem State.reportProbe_canon {s : State} (r : ProbeRun) (h : memCanon s.memView = true) : memCanon
    (s.reportProbe r).memView = true := by
  simp [State.reportProbe, h]

@[simp] theorem State.probeAnswered_canon {s : State} (c : Coord) (f : ProbeRun → ProbeRun)
    (h : memCanon s.memView = true) : memCanon (s.probeAnswered c f).memView = true := by
  unfold State.probeAnswered
  dsimp only
  repeat' split
  all_goals simp [h]

@[simp] theorem State.enterPaddock_canon {s : State} (h : memCanon s.memView = true) :
    memCanon s.enterPaddock.memView = true := by
  unfold State.enterPaddock
  dsimp only
  split <;> simp [h]

@[simp] theorem State.sweepMemory_canon {s : State} (h : memCanon s.memView = true) :
    memCanon s.sweepMemory.memView = true := by
  exact Memory.wf_mk h (tabFilter_wf _) (tabFilter_wf _) (fun _ => rfl) (tabFilter_wf _)

@[simp] theorem State.nextPhase_canon {s : State} (h : memCanon s.memView = true) :
    memCanon s.nextPhase.memView = true := by
  unfold State.nextPhase
  dsimp only
  split <;> simp [h]

@[simp] theorem State.serviceOff_canon {s : State} (h : memCanon s.memView = true) :
    memCanon s.serviceOff.memView = true := by
  simp [State.serviceOff, h]

@[simp] theorem State.serviceAct_canon {s : State} (h : memCanon s.memView = true) :
    memCanon s.serviceAct.memView = true := by
  unfold State.serviceAct
  dsimp only
  split <;> simp [h]

@[simp] theorem State.serviceHeld_canon {s : State} (h : memCanon s.memView = true) :
    memCanon s.serviceHeld.memView = true := by
  unfold State.serviceHeld
  split <;> simp [h]

@[simp] theorem State.holdState_canon {s : State} (e : StageEnd) (h : memCanon s.memView = true) : memCanon
    (s.holdState e).memView = true := by
  unfold State.holdState
  dsimp only
  repeat' split
  all_goals simp [h]

@[simp] theorem State.startStage_view (s : State) (n : Nat) : (s.startStage n).memView = s.memView := (rfl)

@[simp] theorem State.nextIsland_view (s : State) : s.nextIsland.memView = s.memView := by
  unfold State.nextIsland
  dsimp only
  split <;> simp

@[simp] theorem State.endRun_canon {s : State} (h : memCanon s.memView = true) : memCanon s.endRun.memView = true := by
  unfold State.endRun
  dsimp only
  repeat' split
  all_goals simp [h]

@[simp] theorem State.endStage_canon {s : State} (e : StageEnd) (h : memCanon s.memView = true) : memCanon
    (s.endStage e).memView = true := by
  unfold State.endStage
  dsimp only
  repeat' split
  all_goals simp [h]

@[simp] theorem State.endCo9_canon {s : State} (h : memCanon s.memView = true) : memCanon s.endCo9.memView = true := by
  unfold State.endCo9
  exact State.endStage_canon _ h

@[simp] theorem State.shakeHands_canon {s : State} (h : memCanon s.memView = true) :
    memCanon s.shakeHands.memView = true := by
  unfold State.shakeHands
  dsimp only
  split <;> simp [h]

@[simp] theorem State.chooseSlot_view (s : State) (info : Nat → ImageInfo) :
    (s.chooseSlot info).1.memView = s.memView := by
  unfold State.chooseSlot
  dsimp only
  repeat' split
  all_goals rfl

@[simp] theorem State.migrate_view (s : State) (fmt : BitVec 16) : (s.migrate fmt).1.memView = s.memView := by
  unfold State.migrate
  dsimp only
  repeat' split
  all_goals rfl

@[simp] theorem State.bootImage_canon {s : State} (n : Nat) (i : ImageInfo) (late : Bool)
    (h : memCanon s.memView = true) : memCanon (s.bootImage n i late).memView = true := by
  unfold State.bootImage
  refine State.endStage_canon _ ?_
  simp [h]

@[simp] theorem State.zeroSlices_canon {s : State} (h : memCanon s.memView = true) :
    memCanon s.zeroSlices.memView = true := by
  unfold State.zeroSlices
  refine State.canon_fold h (fun u p h => ?_) _
  split
  · exact State.clearRange_canon h _ _
  · exact h

@[simp] theorem State.coreFailed_canon {s : State} (t : Nat) (h : memCanon s.memView = true) : memCanon
    (s.coreFailed t).memView = true := by
  unfold State.coreFailed
  dsimp only
  split
  · exact h
  · refine State.tileLost_canon _ _ _ ?_
    cases RowMap.logical _ _ with
    | none => exact h
    | some c => exact h

@[simp] theorem State.co5Test_canon {s : State} (bad : List Nat) (h : memCanon s.memView = true) : memCanon
    (s.co5Test bad).memView = true := by
  unfold State.co5Test
  refine State.canon_fold ?_ (fun _ t h => State.coreFailed_canon t h) _
  rw [memView_foldl (fun _ _ => State.updDie_view ..), State.measure_view]
  exact h

@[simp] theorem State.endCo8_canon {s : State} (p : Plan) (os : List LaneOutcome) (ys : List Yarn)
    (h : memCanon s.memView = true) : memCanon (s.endCo8 p os ys).memView = true := by
  unfold State.endCo8
  dsimp only
  split <;> simp [h]

@[simp] theorem State.runCo8_canon {s : State} (p : Plan) (c : Coord) (os : List LaneOutcome)
    (h : memCanon s.memView = true) : memCanon (s.runCo8 p c os).memView = true := by
  simp [State.runCo8, h]
@[simp] theorem State.joinFlock_view (s : State) : s.joinFlock.memView = s.memView := by simp [State.joinFlock]
@[simp] theorem State.fresh_canon (s : State) : memCanon s.fresh.memView = true := by rfl
@[simp] theorem State.auxUp_canon (s : State) : memCanon s.auxUp.memView = true := by simp [State.auxUp]

@[simp] theorem State.cutStage_canon {s : State} (h : memCanon s.memView = true) :
    memCanon s.cutStage.memView = true := by
  unfold State.cutStage
  dsimp only
  split <;> simp [h]

@[simp] theorem State.rampAgain_view (s : State) : s.rampAgain.memView = s.memView := (rfl)

@[simp] theorem State.afterDrain_canon {s : State} (c : DrainCause) (h : memCanon s.memView = true) :
    memCanon (s.afterDrain c).memView = true := by
  unfold State.afterDrain
  repeat' split
  all_goals simp [h]

@[simp] theorem State.powerOff_canon {s : State} (h : memCanon s.memView = true) :
    memCanon s.powerOff.memView = true := by
  unfold State.powerOff
  split
  · exact h
  · refine State.afterDrain_canon _ ?_
    simp [h]

@[simp] theorem State.loseMain_canon {s : State} (h : memCanon s.memView = true) :
    memCanon s.loseMain.memView = true := by
  simp [State.loseMain, h]
@[simp] theorem State.resetPart_canon {s : State} (p : Nat) (h : memCanon s.memView = true) : memCanon
    (s.resetPart p).memView = true := by
  simp [State.resetPart, h]

@[simp] theorem State.queueIslands_view (s : State) (r : Nat) (tag : BitVec 16) (ps : List Nat) :
    (s.queueIslands r tag ps).memView = s.memView := by
  unfold State.queueIslands
  split <;> simp

@[simp] theorem State.unassign_canon {s : State} (p : Nat) (h : memCanon s.memView = true) : memCanon
    (s.unassign p).memView = true := by
  unfold State.unassign
  dsimp only
  generalize hs : List.foldl _ _ _ = s2
  have h2 : memCanon s2.memView = true := by
    rw [← hs, memView_foldl (fun _ _ => State.complete_view ..)]
    exact h
  repeat' split
  all_goals simp [h2]

@[simp] theorem State.moveBytes_canon {s : State} (r : Nat) (tag : BitVec 16) (host a n : Nat) (toModule : Bool)
    (bytes : List Byte) (h : memCanon s.memView = true) : memCanon
    (s.moveBytes r tag host a n toModule bytes).memView = true := by
  have hw := State.writeRange_canon h a (bytes.take n) 3
  have hr := State.readRange_canon h a n 3
  unfold State.moveBytes
  dsimp only
  split
  · split <;> rename_i heq <;> rw [heq] at hw
    · exact hw
    · simpa using hw
  · split <;> rename_i heq <;> rw [heq] at hr
    · simpa using hr
    · simpa using hr

end Sys2Proof.Machine
end

section
/-! The canonical form of memory under the shapes that the commands share. -/

namespace Sys2Proof.Machine

open Sys2Proof

/-! ### Results and effects -/

/-- The next state, if there is one, has canonical memory. -/
def LeavesCanon (r : Res) : Prop := ∀ u, r = .next u → memCanon u.memView = true

@[simp] theorem leavesCanon_next (u : State) : LeavesCanon (.next u) ↔ memCanon u.memView = true :=
  ⟨fun h => h u rfl, fun h v e => by cases e; exact h⟩

@[simp] theorem leavesCanon_refused (r : Refusal) : LeavesCanon (.refused r) := by
  intro u e
  cases e

@[simp] theorem leavesCanon_ite {c : Prop} [Decidable c] (a b : Res) :
    LeavesCanon (if c then a else b) ↔ if c then LeavesCanon a else LeavesCanon b := by
  split <;> rfl

theorem resState_canon {r : Res} {s : State} (hr : LeavesCanon r) (hm : memCanon s.memView = true) :
    memCanon (resState r s).memView = true := by
  unfold resState
  split
  · exact hr _ rfl
  · exact hm

@[simp] theorem Fx.after_done (s : State) : (Fx.done s).after = s := rfl
@[simp] theorem Fx.after_skip (s : State) (n : Nat) : (Fx.skip s n).after = s := rfl
@[simp] theorem Fx.after_taken (s : State) (n : BitVec 15) : (Fx.taken s n).after = s := rfl
@[simp] theorem Fx.after_fault (s : State) (n : BitVec 4) : (Fx.fault s n).after = s := rfl
@[simp] theorem Fx.after_starve (s : State) (n : BitVec 4) : (Fx.starve s n).after = s := rfl
@[simp] theorem Fx.after_yield (s : State) : (Fx.yield s).after = s := rfl
@[simp] theorem Fx.after_halt (s : State) : (Fx.halt s).after = s := rfl

@[simp] theorem Fx.after_ite {c : Prop} [Decidable c] (a b : Fx) :
    (if c then a else b).after = if c then a.after else b.after := apply_ite Fx.after c a b

@[simp] theorem memCanon_ite {c : Prop} [Decidable c] (v w : Tab Byte × Tab Bool × Tab Nat × Tab (List Nat)) :
    memCanon (if c then v else w) = if c then memCanon v else memCanon w := apply_ite memCanon c v w

/-- Settling an effect touches contexts alone. -/
theorem Fx.settle_view (fx : Fx) (t c pc : Nat) (w : Word) : (fx.settle t c pc w).memView = fx.after.memView := by
  cases fx <;> simp [Fx.settle]

/-! ### The stage's instructions -/

@[simp] theorem State.hurPassed_view (s : State) (t c : Nat) (h : BitVec 12) (g : Byte) :
    (s.hurPassed t c h g).memView = s.memView := (rfl)

@[simp] theorem State.sendXfer_view (s : State) (t c tag : Nat) (x : Ctx) (xf : Xfer) (kind : Byte) :
    (s.sendXfer t c tag x xf kind).memView = s.memView := memView_foldl (fun _ _ => State.sendPacket_view ..) _ _

@[simp] theorem State.takeSlot_view (s : State) (job : BitVec 16) (gen : Byte) :
    (s.takeSlot job gen).1.memView = s.memView := by
  unfold State.takeSlot
  repeat' split
  all_goals rfl

@[simp] theorem State.skips_view (s : State) (n : Nat) : (s.skips n).memView = s.memView := by
  induction n generalizing s with
  | zero => rfl
  | succ n ih => rw [State.skips, ih, State.own_view]

@[simp] theorem State.order_view (s : State) (o : CtlOrder) : (s.order o).memView = s.memView := by
  cases o with
  | ownerRelease sigOk => simp [State.order]
  | _ => simp [State.order]

section
variable {s : State} (hm : memCanon s.memView = true)
include hm

@[simp] theorem stage_canon {m fn t : Nat} {o : Op} {f : State → Nat → Fx}
    (hf : ∀ c, memCanon (f (s.charge t c) c).after.memView = true) : LeavesCanon (stage m fn t o s f) := by
  unfold stage
  dsimp only
  repeat' split
  all_goals simp [hm, hf, Fx.settle_view]

@[simp] theorem stageReg_canon {m fn t : Nat} {o : Op} {f : State → Ctx → Ctx} : LeavesCanon (stageReg m fn t o s f) :=
  stage_canon hm fun _ => by simp [hm]

@[simp] theorem sca2_canon {fn t : Nat} {op : Word → Word → Word} {f : ScaForm} {o : Op} :
    LeavesCanon (sca2 fn op t f o s) := stageReg_canon hm

@[simp] theorem vecBin_canon {fn t : Nat} {draw : Bool} {fi : Nat → Int → Int → Int} {ff : FVal → FVal → FVal × FlagSet}
    {o : Op} : LeavesCanon (vecBin fn draw fi ff t o s) := stageReg_canon hm

@[simp] theorem vecBits_canon {fn t : Nat} {op : Vec → Vec → Vec} {o : Op} : LeavesCanon (vecBits fn op t o s) :=
  stageReg_canon hm

@[simp] theorem vecUn_canon {fn t : Nat} {fi : Int → Int} {ff : Nat → Nat → Nat} {o : Op} :
    LeavesCanon (vecUn fn fi ff t o s) := stageReg_canon hm

@[simp] theorem ctxRead_canon {t c ea n : Nat} {k : State → List Byte → Fx}
    (hk : ∀ a bs, memCanon (k (s.readRange a n 0).1 bs).after.memView = true) :
    memCanon (ctxRead s t c ea n k).after.memView = true := by
  have hr := State.readRange_canon hm (winAddr t (s.ctx t c) ea) n 0
  have hk := hk (winAddr t (s.ctx t c) ea)
  unfold ctxRead
  dsimp only
  split
  · exact hm
  · split <;> rename_i heq <;> rw [heq] at hr hk
    · exact hk _
    · exact hr

@[simp] theorem ctxWrite_canon {t c : Nat} {ws : List (Nat × List Byte)} {k : State → Fx}
    (hk : ∀ u, memCanon u.memView = true → memCanon (k u).after.memView = true) :
    memCanon (ctxWrite s t c ws k).after.memView = true := by
  unfold ctxWrite
  dsimp only
  repeat' split
  · exact hm
  · exact State.reportUe_canon hm _ _
  · exact hk _ (State.canon_fold hm (fun _ _ h => State.writeRange_canon h _ _ _) _)

@[simp] theorem chRead_canon {t c ep : Nat} {k : State → Vec → Fx}
    (hk : ∀ a v, memCanon (k (s.readRange a 256 0).1 v).after.memView = true) :
    memCanon (chRead s t c ep k).after.memView = true := by
  have hr := State.readRange_canon hm (((s.ctx t c).inEp ep).addr t ((s.ctx t c).inEp ep).head) 256 0
  have hk := hk (((s.ctx t c).inEp ep).addr t ((s.ctx t c).inEp ep).head)
  -- unfolded as a function: applied, the kernel would evaluate the read
  suffices hfun : ∀ f, f = chRead → memCanon (f s t c ep k).after.memView = true from hfun _ rfl
  intro f hf
  delta chRead at hf
  subst hf
  dsimp only
  generalize s.readRange _ 256 0 = r at hr hk ⊢
  obtain ⟨s1, bs, _ | u⟩ := r
  · exact hk _
  · exact hr

@[simp] theorem hurWaits_canon {t c : Nat} {h : BitVec 12} : memCanon (hurWaits s t c h).after.memView = true := by
  unfold hurWaits
  repeat' split
  all_goals simp [hm]

@[simp] theorem startLoop_canon {t c : Nat} {b : BitVec 47} {n : BitVec 32} :
    memCanon (startLoop s t c b n).after.memView = true := by
  unfold startLoop
  dsimp only
  split <;> simp [hm]

@[simp] theorem memIssue_canon {kind : XferKind} {strided : Bool} {t c : Nat} {o : Op} :
    memCanon (memIssue kind strided t o s c).after.memView = true := by
  simp [memIssue, apply_ite Prod.fst, hm]

@[simp] theorem fabTag_canon {t c tag : Nat} {k : State → Fx}
    (hk : ∀ f, memCanon (k (s.updCtx t c f)).after.memView = true) :
    memCanon (fabTag s t c tag k).after.memView = true := by
  unfold fabTag
  dsimp only
  repeat' split
  all_goals simp [hm, hk]

@[simp] theorem fabIssue_canon {kind : XferKind} {t c : Nat} {o : Op} :
    memCanon (fabIssue kind t o s c).after.memView = true := by
  unfold fabIssue
  refine fabTag_canon hm fun f => ?_
  dsimp only
  iterate 3
    split
    · simp [hm]
  split <;> simp [apply_ite Prod.fst, hm]

@[simp] theorem stoLoad_canon {fn n t : Nat} {signed : Bool} {o : Op} : LeavesCanon (stoLoad fn n signed t o s) :=
  stage_canon hm fun c => ctxRead_canon (by simp [hm]) (by simp [hm])

@[simp] theorem stoStore_canon {fn n t : Nat} {o : Op} : LeavesCanon (stoStore fn n t o s) :=
  stage_canon hm fun c => ctxWrite_canon (by simp [hm]) fun _ h => h

@[simp] theorem chTestIn_canon {fn t : Nat} {o : Op} {f : InEp → Bool} : LeavesCanon (chTestIn fn t o s f) := by
  refine stage_canon hm fun c => ?_
  dsimp only
  split <;> simp [hm]

/-! ### The other commands' shapes -/

@[simp] theorem doIf_canon {c : Bool} {u : State} (hu : memCanon u.memView = true) : LeavesCanon (doIf c s u) := by
  unfold doIf
  split <;> simp [hm, hu]

@[simp] theorem hostCmd_canon {r op : Nat} {early : Bool} {f : Block → BitVec 16 → State → State}
    (hf : ∀ b tag v, memCanon (f b tag (s.setRing r v)).memView = true) : LeavesCanon (hostCmd s r op early f) := by
  unfold hostCmd
  dsimp only
  repeat' split
  all_goals simp [hm, hf]

@[simp] theorem rxPacket_canon {kind : Byte} {fd : Nat} {p : Packet} {part : Option Nat} {f : State → State}
    (hf : memCanon (f s).memView = true) : LeavesCanon (rxPacket kind fd p part s f) := by
  unfold rxPacket
  repeat' split
  all_goals simp [hm, hf]

@[simp] theorem ctlMsg_canon {h : CtlHdr} {keep : Bool} {f : State → State}
    (hf : memCanon (f (s.seqAccept h keep)).memView = true) : LeavesCanon (ctlMsg s h keep f) := by
  unfold ctlMsg
  repeat' split
  all_goals simp [hm, hf]

@[simp] theorem mboxOp_canon {op : Byte} {rom fw : Bool} {f : List Byte → State → State × Byte × List Byte}
    (hf : ∀ req, memCanon (f req s).1.memView = true) : LeavesCanon (mboxOp s op rom fw f) := by
  unfold mboxOp
  dsimp only
  repeat' split
  all_goals simp [hm, hf]

@[simp] theorem i3cReply_canon {bytes : List Byte} : LeavesCanon (i3cReply s bytes) := doIf_canon hm (by simpa using hm)

@[simp] theorem flockRx_canon {h : FlockHdr} {b : FlockBody} {key : Nat} {f : State → State}
    (hf : ∀ sh, memCanon (f (({ s with shep := sh } : State).noteSender h)).memView = true) :
    LeavesCanon (flockRx s h b key f) := by
  unfold flockRx
  iterate 7
    split
    · simp [hm]
  dsimp only
  split <;> simp [hm, hf]

@[simp] theorem takeFlit_canon {type : BitVec 4} {fd k : Nat} {h : FlitHdr} {d : Option FlitData} {f : State → State}
    (hf : ∀ g, memCanon (f ((s.countFec fd k h).updLink fd k g)).memView = true) :
    LeavesCanon (takeFlit type s fd k h d f) := by
  unfold takeFlit
  dsimp only
  repeat' split
  all_goals simp [hm, hf]

@[simp] theorem sideRx_canon {type : Byte} {f : SideFrame} {g : State → State}
    (hg : ∀ sh, memCanon (g { s with shep := sh }).memView = true)
    (hheard : ∀ sh n, memCanon (g (({ s with shep := sh } : State).sideHeard f n)).memView = true) :
    LeavesCanon (sideRx s type f g) := by
  unfold sideRx
  dsimp only
  repeat' split
  all_goals simp [hm, hg, hheard]

end

end Sys2Proof.Machine
end

section
/-! Every command keeps the canonical form of memory. -/

namespace Sys2Proof.Machine

open Sys2Proof

section
variable {s : State} (hm : memCanon s.memView = true)
include hm

/-! ### Firmware, identity and trust -/

@[simp] theorem execImageStage_canon (r : Nat) (dmaOk : Bool) (bytes : List Byte) (sigOk : Bool) :
    LeavesCanon (execImageStage r dmaOk bytes sigOk s) := by
  simp [execImageStage, hm]
@[simp] theorem execActivateImage_canon (r : Nat) : LeavesCanon (execActivateImage r s) := by
  simp [execActivateImage, hm]
@[simp] theorem execControlActivateImage_canon (h : CtlHdr) (slot : Nat) :
    LeavesCanon (execControlActivateImage h slot s) := by
  simp [execControlActivateImage, hm]
@[simp] theorem execSequenceRecord_canon : LeavesCanon (execSequenceRecord s) := by simp [execSequenceRecord, hm]

@[simp] theorem execEpochGraceEnd_canon : LeavesCanon (execEpochGraceEnd s) := by
  unfold execEpochGraceEnd
  dsimp only
  split <;> simp [hm]

@[simp] theorem execMaintenancePoint_canon : LeavesCanon (execMaintenancePoint s) := by
  unfold execMaintenancePoint
  dsimp only
  repeat' split
  all_goals simp [hm]

@[simp] theorem execRejectImage_canon (r : Nat) : LeavesCanon (execRejectImage r s) := by simp [execRejectImage, hm]
@[simp] theorem execFwConfirm_canon (version : BitVec 32) : LeavesCanon (execFwConfirm version s) := by
  simp [execFwConfirm, hm]
@[simp] theorem execTrialDeadline_canon : LeavesCanon (execTrialDeadline s) := by simp [execTrialDeadline, hm]
@[simp] theorem execOwnerEnroll_canon (r : Nat) (dmaOk : Bool) (key root : List Byte) :
    LeavesCanon (execOwnerEnroll r dmaOk key root s) := by
  simp [execOwnerEnroll, hm]
@[simp] theorem execOwnerRelease_canon (r : Nat) (dmaOk sigOk : Bool) :
    LeavesCanon (execOwnerRelease r dmaOk sigOk s) := by
  simp [execOwnerRelease, hm]
@[simp] theorem execDistribute_canon (h : CtlHdr) (digest : BitVec 256) (total : BitVec 12) (slot : Nat)
    (source parent : Coord) : LeavesCanon (execDistribute h digest total slot source parent s) := by
  simp [execDistribute, hm]

@[simp] theorem execChunk_canon (sender : Coord) (c : List Byte) (relay : List Coord) (sigOk : Bool) :
    LeavesCanon (execChunk sender c relay sigOk s) := by
  unfold execChunk
  split
  · simp [hm]
  · have hr : ∀ u : State, (relay.foldl (fun (s : State) m => s.emit (.relay m c)) u).memView = u.memView :=
      memView_foldl (fun _ _ => by rfl) relay
    dsimp only
    repeat' split
    all_goals simp [hm, hr]

@[simp] theorem execChunkRepair_canon : LeavesCanon (execChunkRepair s) := by
  unfold execChunkRepair
  split <;> simp [hm]

@[simp] theorem execRepairHolderTimeout_canon : LeavesCanon (execRepairHolderTimeout s) := by
  unfold execRepairHolderTimeout
  split <;> simp [hm]

@[simp] theorem execReservationRetry_canon (ok : Bool) : LeavesCanon (execReservationRetry ok s) := by
  simp [execReservationRetry, hm]
@[simp] theorem execSpdmGetVersion_canon (via : Nat) : LeavesCanon (execSpdmGetVersion via s) := by
  simp [execSpdmGetVersion, hm]
@[simp] theorem execGetCapabilities_canon (via : Nat) : LeavesCanon (execGetCapabilities via s) := by
  simp [execGetCapabilities, hm]
@[simp] theorem execNegotiateAlgorithms_canon (via : Nat) : LeavesCanon (execNegotiateAlgorithms via s) := by
  simp [execNegotiateAlgorithms, hm]
@[simp] theorem execGetDigests_canon (via : Nat) : LeavesCanon (execGetDigests via s) := by simp [execGetDigests, hm]
@[simp] theorem execGetCertificate_canon (via : Nat) (slot : Nat) (off len : Nat) :
    LeavesCanon (execGetCertificate via slot off len s) := by
  simp [execGetCertificate, hm]
@[simp] theorem execChallenge_canon (via : Nat) (nonce : BitVec 256) : LeavesCanon (execChallenge via nonce s) := by
  simp [execChallenge, hm]
@[simp] theorem execGetMeasurements_canon (via : Nat) (nonce : BitVec 256) (mask : BitVec 32) :
    LeavesCanon (execGetMeasurements via nonce mask s) := by
  simp [execGetMeasurements, hm]
@[simp] theorem execPskExchange_canon (via : Nat) (ok : Bool) : LeavesCanon (execPskExchange via ok s) := by
  simp [execPskExchange, hm]
@[simp] theorem execPskFinish_canon (via : Nat) (ok : Bool) : LeavesCanon (execPskFinish via ok s) := by
  simp [execPskFinish, hm]
@[simp] theorem execSpdmHeartbeat_canon (via : Nat) : LeavesCanon (execSpdmHeartbeat via s) := by
  simp [execSpdmHeartbeat, hm]
@[simp] theorem execEndSession_canon (via : Nat) : LeavesCanon (execEndSession via s) := by simp [execEndSession, hm]
@[simp] theorem execVendorDefinedRequest_canon (via : Nat) (selective : Bool) (keyOk : Bool) :
    LeavesCanon (execVendorDefinedRequest via selective keyOk s) := by
  simp [execVendorDefinedRequest, hm]

/-! ### Host and management interfaces -/

@[simp] theorem execRingPoll_canon (r : Nat) (cmdProd cplCons : BitVec 32) (blocks : List (List Byte)) (dmaOk : Bool) :
    LeavesCanon (execRingPoll r cmdProd cplCons blocks dmaOk s) := by
  unfold execRingPoll
  dsimp only
  repeat' split
  all_goals simp [hm]

@[simp] theorem execRingEnable_canon (r : Nat) (dmaOk : Bool) (cmdProd cmdCons cplProd cplCons : BitVec 32) :
    LeavesCanon (execRingEnable r dmaOk cmdProd cmdCons cplProd cplCons s) := by
  unfold execRingEnable
  dsimp only
  split <;> simp [hm]

@[simp] theorem execRingDisable_canon (r : Nat) : LeavesCanon (execRingDisable r s) := by simp [execRingDisable, hm]

@[simp] theorem execCompletionWrite_canon (r : Nat) (cplCons : BitVec 32) :
    LeavesCanon (execCompletionWrite r cplCons s) := by
  unfold execCompletionWrite
  dsimp only
  repeat' split
  all_goals simp [hm]

@[simp] theorem execCoalesceTimer_canon (r : Nat) : LeavesCanon (execCoalesceTimer r s) := by
  unfold execCoalesceTimer
  dsimp only
  split <;> simp [hm]

@[simp] theorem execNop_canon (r : Nat) : LeavesCanon (execNop r s) := by simp [execNop, hm]
@[simp] theorem execFunctionLevelReset_canon : LeavesCanon (execFunctionLevelReset s) := by
  simp [execFunctionLevelReset, hm]
@[simp] theorem execPerst_canon (low : Bool) : LeavesCanon (execPerst low s) := by simp [execPerst, hm]

@[simp] theorem execDoeRequest_canon (proto : Byte) (req : List Byte) : LeavesCanon (execDoeRequest proto req s) := by
  unfold execDoeRequest
  dsimp only
  repeat' split
  all_goals simp [hm]

@[simp] theorem execDoeAbort_canon : LeavesCanon (execDoeAbort s) := by simp [execDoeAbort, hm]
@[simp] theorem execGetStatus_canon : LeavesCanon (execGetStatus s) := by simp [execGetStatus, hm]

@[simp] theorem execMboxGetMeasurements_canon : LeavesCanon (execMboxGetMeasurements s) := by
  unfold execMboxGetMeasurements
  refine mboxOp_canon hm fun req => ?_
  split
  · exact hm
  · split
    · simp [hm]
    · rename_i heq
      simp [State.sign_view heq, hm]

@[simp] theorem execGetLog_canon : LeavesCanon (execGetLog s) := by simp [execGetLog, apply_ite Prod.fst, hm]
@[simp] theorem execGetCert_canon : LeavesCanon (execGetCert s) := by simp [execGetCert, hm]
@[simp] theorem execRecoveryWrite_canon : LeavesCanon (execRecoveryWrite s) := by
  simp [execRecoveryWrite, apply_ite Prod.fst, hm]
@[simp] theorem execRecoveryCheck_canon (sigOk : Bool) : LeavesCanon (execRecoveryCheck sigOk s) := by
  simp [execRecoveryCheck, apply_ite Prod.fst, hm]
@[simp] theorem execMboxOwnerEnroll_canon : LeavesCanon (execMboxOwnerEnroll s) := by
  simp [execMboxOwnerEnroll, apply_ite Prod.fst, hm]
@[simp] theorem execEntdaa_canon (addr : BitVec 7) : LeavesCanon (execEntdaa addr s) := by simp [execEntdaa, hm]
@[simp] theorem execRstdaa_canon : LeavesCanon (execRstdaa s) := by simp [execRstdaa, hm]
@[simp] theorem execEnec_canon (mask : Byte) : LeavesCanon (execEnec mask s) := by simp [execEnec, hm]
@[simp] theorem execDisec_canon (mask : Byte) : LeavesCanon (execDisec mask s) := by simp [execDisec, hm]
@[simp] theorem execGetpid_canon : LeavesCanon (execGetpid s) := by simp [execGetpid, hm]
@[simp] theorem execGetbcr_canon : LeavesCanon (execGetbcr s) := by simp [execGetbcr, hm]
@[simp] theorem execGetdcr_canon : LeavesCanon (execGetdcr s) := by simp [execGetdcr, hm]

@[simp] theorem execGetstatus_canon : LeavesCanon (execGetstatus s) := by
  unfold execGetstatus
  split <;> simp [hm]

@[simp] theorem execSetmwl_canon (n : BitVec 16) : LeavesCanon (execSetmwl n s) := by simp [execSetmwl, hm]
@[simp] theorem execSetmrl_canon (n : BitVec 16) : LeavesCanon (execSetmrl n s) := by simp [execSetmrl, hm]
@[simp] theorem execGetmwl_canon : LeavesCanon (execGetmwl s) := by simp [execGetmwl, hm]
@[simp] theorem execGetmrl_canon : LeavesCanon (execGetmrl s) := by simp [execGetmrl, hm]
@[simp] theorem execRstact_canon (action : Byte) : LeavesCanon (execRstact action s) := by simp [execRstact, hm]
@[simp] theorem execSetEndpointId_canon (eid : Byte) : LeavesCanon (execSetEndpointId eid s) := by
  simp [execSetEndpointId, hm]
@[simp] theorem execGetEndpointId_canon : LeavesCanon (execGetEndpointId s) := by simp [execGetEndpointId, hm]
@[simp] theorem execGetEndpointUuid_canon : LeavesCanon (execGetEndpointUuid s) := by simp [execGetEndpointUuid, hm]
@[simp] theorem execGetMctpVersionSupport_canon (type : Byte) : LeavesCanon (execGetMctpVersionSupport type s) := by
  simp [execGetMctpVersionSupport, hm]
@[simp] theorem execGetMessageTypeSupport_canon : LeavesCanon (execGetMessageTypeSupport s) := by
  simp [execGetMessageTypeSupport, hm]

/-! ### The store, the stacks and the BAR2 window -/

@[simp] theorem execLineAccess_canon (addr : Nat) (data : Option (Nat × List Byte)) (link : Nat) :
    LeavesCanon (execLineAccess addr data link s) := by
  unfold execLineAccess
  dsimp only
  repeat' split
  all_goals simp [hm]

@[simp] theorem execMemoryScrub_canon (md : Nat) (link : Nat) : LeavesCanon (execMemoryScrub md link s) := by
  unfold execMemoryScrub
  dsimp only
  split <;> simp [hm]

@[simp] theorem execSelfRefreshReturn_canon (md : Nat) : LeavesCanon (execSelfRefreshReturn md s) := by
  unfold execSelfRefreshReturn
  split <;> simp [hm]

@[simp] theorem execStoreScrub_canon (t : Nat) (word : Nat) : LeavesCanon (execStoreScrub t word s) := by
  simp [execStoreScrub, hm]
@[simp] theorem execScrubRowReport_canon (die : Nat) (trow : Nat) (tcol : Nat) (sub : Nat) (row : Nat) :
    LeavesCanon (execScrubRowReport die trow tcol sub row s) := by
  simp [execScrubRowReport, hm]
@[simp] theorem execBandOwnerWrite_canon (firmware : Bool) (band : Nat) (owner : BitVec 4) :
    LeavesCanon (execBandOwnerWrite firmware band owner s) := by
  simp [execBandOwnerWrite, hm]

@[simp] theorem execBar2Read_canon (off : Nat) (len : Nat) : LeavesCanon (execBar2Read off len s) := by
  have hf := State.flushWhere_canon (fun _ => true) hm
  unfold execBar2Read
  dsimp only
  generalize s.flushWhere _ = u at hf ⊢
  have hr := State.readRange_canon hf (u.bar2Addr off) len 3
  repeat' split
  · simp [hm]
  · simp [hm]
  · simp [hf]
  · rename_i heq
    rw [heq] at hr
    simpa using hr
  · rename_i heq
    rw [heq] at hr
    simpa using hr

@[simp] theorem execBar2Write_canon (off : Nat) (bytes : List Byte) : LeavesCanon (execBar2Write off bytes s) := by
  have hw := State.writeRange_canon hm (s.bar2Addr off) bytes 3
  unfold execBar2Write
  dsimp only
  repeat' split
  · simp [hm]
  · simp [hm]
  · rename_i heq
    rw [heq] at hw
    simpa using hw
  · rename_i heq
    rw [heq] at hw
    simpa using hw
  · exact (leavesCanon_next _).mpr (State.canon_fold hm (fun _ _ h => State.bar2Part_canon _ _ h) _)

@[simp] theorem execBar2MergeTimeout_canon : LeavesCanon (execBar2MergeTimeout s) := by simp [execBar2MergeTimeout, hm]

/-! ### Vector instructions -/

@[simp] theorem execVecVadd_canon (t : Nat) (o : Op) : LeavesCanon (execVecVadd t o s) := by simp [execVecVadd, hm]
@[simp] theorem execVecVsub_canon (t : Nat) (o : Op) : LeavesCanon (execVecVsub t o s) := by simp [execVecVsub, hm]
@[simp] theorem execVecVmul_canon (t : Nat) (o : Op) : LeavesCanon (execVecVmul t o s) := by simp [execVecVmul, hm]
@[simp] theorem execVecVmin_canon (t : Nat) (o : Op) : LeavesCanon (execVecVmin t o s) := by simp [execVecVmin, hm]
@[simp] theorem execVecVmax_canon (t : Nat) (o : Op) : LeavesCanon (execVecVmax t o s) := by simp [execVecVmax, hm]
@[simp] theorem execVecVfma_canon (t : Nat) (o : Op) : LeavesCanon (execVecVfma t o s) := by simp [execVecVfma, hm]
@[simp] theorem execVecVand_canon (t : Nat) (o : Op) : LeavesCanon (execVecVand t o s) := by simp [execVecVand, hm]
@[simp] theorem execVecVor_canon (t : Nat) (o : Op) : LeavesCanon (execVecVor t o s) := by simp [execVecVor, hm]
@[simp] theorem execVecVxor_canon (t : Nat) (o : Op) : LeavesCanon (execVecVxor t o s) := by simp [execVecVxor, hm]
@[simp] theorem execVecVshl_canon (t : Nat) (o : Op) : LeavesCanon (execVecVshl t o s) := by simp [execVecVshl, hm]
@[simp] theorem execVecVshr_canon (t : Nat) (o : Op) : LeavesCanon (execVecVshr t o s) := by simp [execVecVshr, hm]
@[simp] theorem execVecVcmp_canon (t : Nat) (o : Op) : LeavesCanon (execVecVcmp t o s) := by simp [execVecVcmp, hm]
@[simp] theorem execVecVsel_canon (t : Nat) (o : Op) : LeavesCanon (execVecVsel t o s) := by simp [execVecVsel, hm]
@[simp] theorem execVecVcvt_canon (t : Nat) (o : Op) : LeavesCanon (execVecVcvt t o s) := by simp [execVecVcvt, hm]
@[simp] theorem execVecVfn_canon (t : Nat) (o : Op) : LeavesCanon (execVecVfn t o s) := by simp [execVecVfn, hm]
@[simp] theorem execVecVred_canon (t : Nat) (o : Op) : LeavesCanon (execVecVred t o s) := by simp [execVecVred, hm]
@[simp] theorem execVecVbcast_canon (t : Nat) (o : Op) : LeavesCanon (execVecVbcast t o s) := by
  simp [execVecVbcast, hm]
@[simp] theorem execVecVext_canon (t : Nat) (o : Op) : LeavesCanon (execVecVext t o s) := by simp [execVecVext, hm]
@[simp] theorem execVecVins_canon (t : Nat) (o : Op) : LeavesCanon (execVecVins t o s) := by simp [execVecVins, hm]
@[simp] theorem execVecVperm_canon (t : Nat) (o : Op) : LeavesCanon (execVecVperm t o s) := by simp [execVecVperm, hm]
@[simp] theorem execVecVmxq_canon (t : Nat) (o : Op) : LeavesCanon (execVecVmxq t o s) := by simp [execVecVmxq, hm]
@[simp] theorem execVecVmxd_canon (t : Nat) (o : Op) : LeavesCanon (execVecVmxd t o s) := by simp [execVecVmxd, hm]
@[simp] theorem execVecVmov_canon (t : Nat) (o : Op) : LeavesCanon (execVecVmov t o s) := by simp [execVecVmov, hm]
@[simp] theorem execVecVzero_canon (t : Nat) (o : Op) : LeavesCanon (execVecVzero t o s) := by simp [execVecVzero, hm]
@[simp] theorem execVecVneg_canon (t : Nat) (o : Op) : LeavesCanon (execVecVneg t o s) := by simp [execVecVneg, hm]
@[simp] theorem execVecVabs_canon (t : Nat) (o : Op) : LeavesCanon (execVecVabs t o s) := by simp [execVecVabs, hm]

/-! ### The store slice -/

@[simp] theorem execStoLdv_canon (t : Nat) (o : Op) : LeavesCanon (execStoLdv t o s) := by
  unfold execStoLdv
  refine stage_canon hm fun c => ?_
  exact ctxRead_canon (by simp [hm]) fun a bs => by simp [hm]

@[simp] theorem execStoStv_canon (t : Nat) (o : Op) : LeavesCanon (execStoStv t o s) := by
  unfold execStoStv
  refine stage_canon hm fun c => ?_
  exact ctxWrite_canon (by simp [hm]) fun _ h => h

@[simp] theorem execStoLdvi_canon (t : Nat) (o : Op) : LeavesCanon (execStoLdvi t o s) := by
  unfold execStoLdvi
  refine stage_canon hm fun c => ?_
  exact ctxRead_canon (by simp [hm]) fun a bs => by simp [hm]

@[simp] theorem execStoStvi_canon (t : Nat) (o : Op) : LeavesCanon (execStoStvi t o s) := by
  unfold execStoStvi
  refine stage_canon hm fun c => ?_
  exact ctxWrite_canon (by simp [hm]) fun _ h => h

@[simp] theorem execStoStvm_canon (t : Nat) (o : Op) : LeavesCanon (execStoStvm t o s) := by
  unfold execStoStvm
  refine stage_canon hm fun c => ?_
  dsimp only
  split
  · simp [hm]
  · exact ctxWrite_canon (by simp [hm]) fun _ h => h

@[simp] theorem execStoGath_canon (t : Nat) (o : Op) : LeavesCanon (execStoGath t o s) := by
  unfold execStoGath
  refine stage_canon hm fun c => ?_
  dsimp only
  split
  · simp [hm]
  · split
    · simp [hm]
    · rw [Fx.after_done, State.updCtx_view]
      refine State.canon_fold (by simp [hm]) (fun _ _ h => ?_) _
      exact State.fixRange_canon h _ _

@[simp] theorem execStoScat_canon (t : Nat) (o : Op) : LeavesCanon (execStoScat t o s) := by
  unfold execStoScat
  refine stage_canon hm fun c => ?_
  exact ctxWrite_canon (by simp [hm]) fun _ h => h

@[simp] theorem execStoLd8_canon (t : Nat) (o : Op) : LeavesCanon (execStoLd8 t o s) := by simp [execStoLd8, hm]
@[simp] theorem execStoLd8u_canon (t : Nat) (o : Op) : LeavesCanon (execStoLd8u t o s) := by simp [execStoLd8u, hm]
@[simp] theorem execStoLd16_canon (t : Nat) (o : Op) : LeavesCanon (execStoLd16 t o s) := by simp [execStoLd16, hm]
@[simp] theorem execStoLd16u_canon (t : Nat) (o : Op) : LeavesCanon (execStoLd16u t o s) := by simp [execStoLd16u, hm]
@[simp] theorem execStoLd32_canon (t : Nat) (o : Op) : LeavesCanon (execStoLd32 t o s) := by simp [execStoLd32, hm]
@[simp] theorem execStoLd32u_canon (t : Nat) (o : Op) : LeavesCanon (execStoLd32u t o s) := by simp [execStoLd32u, hm]
@[simp] theorem execStoLd64_canon (t : Nat) (o : Op) : LeavesCanon (execStoLd64 t o s) := by simp [execStoLd64, hm]
@[simp] theorem execStoSt8_canon (t : Nat) (o : Op) : LeavesCanon (execStoSt8 t o s) := by simp [execStoSt8, hm]
@[simp] theorem execStoSt16_canon (t : Nat) (o : Op) : LeavesCanon (execStoSt16 t o s) := by simp [execStoSt16, hm]
@[simp] theorem execStoSt32_canon (t : Nat) (o : Op) : LeavesCanon (execStoSt32 t o s) := by simp [execStoSt32, hm]
@[simp] theorem execStoSt64_canon (t : Nat) (o : Op) : LeavesCanon (execStoSt64 t o s) := by simp [execStoSt64, hm]

/-! ### MEM descriptors and the SYS class -/

@[simp] theorem execMemGet_canon (t : Nat) (o : Op) : LeavesCanon (execMemGet t o s) := by simp [execMemGet, hm]
@[simp] theorem execMemPut_canon (t : Nat) (o : Op) : LeavesCanon (execMemPut t o s) := by simp [execMemPut, hm]
@[simp] theorem execMemGets_canon (t : Nat) (o : Op) : LeavesCanon (execMemGets t o s) := by simp [execMemGets, hm]
@[simp] theorem execMemPuts_canon (t : Nat) (o : Op) : LeavesCanon (execMemPuts t o s) := by simp [execMemPuts, hm]
@[simp] theorem execMemWait_canon (t : Nat) (o : Op) : LeavesCanon (execMemWait t o s) := by simp [execMemWait, hm]
@[simp] theorem execMemTest_canon (t : Nat) (o : Op) : LeavesCanon (execMemTest t o s) := by simp [execMemTest, hm]
@[simp] theorem execMemStat_canon (t : Nat) (o : Op) : LeavesCanon (execMemStat t o s) := by simp [execMemStat, hm]

@[simp] theorem execMemTransferComplete_canon (t : Nat) (c : Nat) (tag : Nat) :
    LeavesCanon (execMemTransferComplete t c tag s) := by
  unfold execMemTransferComplete
  dsimp only
  repeat' split
  all_goals simp [hm]

@[simp] theorem execSysRow_canon (t : Nat) (o : Op) : LeavesCanon (execSysRow t o s) := by simp [execSysRow, hm]
@[simp] theorem execSysGetflags_canon (t : Nat) (o : Op) : LeavesCanon (execSysGetflags t o s) := by
  simp [execSysGetflags, hm]
@[simp] theorem execSysClrflags_canon (t : Nat) (o : Op) : LeavesCanon (execSysClrflags t o s) := by
  simp [execSysClrflags, hm]
@[simp] theorem execSysSetrm_canon (t : Nat) (o : Op) : LeavesCanon (execSysSetrm t o s) := by simp [execSysSetrm, hm]
@[simp] theorem execSysSetftz_canon (t : Nat) (o : Op) : LeavesCanon (execSysSetftz t o s) := by
  simp [execSysSetftz, hm]
@[simp] theorem execSysSeed_canon (t : Nat) (o : Op) : LeavesCanon (execSysSeed t o s) := by simp [execSysSeed, hm]
@[simp] theorem execSysGetseed_canon (t : Nat) (o : Op) : LeavesCanon (execSysGetseed t o s) := by
  simp [execSysGetseed, hm]
@[simp] theorem execSysEvent_canon (t : Nat) (o : Op) : LeavesCanon (execSysEvent t o s) := by simp [execSysEvent, hm]
@[simp] theorem execSysTile_canon (t : Nat) (o : Op) : LeavesCanon (execSysTile t o s) := by simp [execSysTile, hm]
@[simp] theorem execSysJob_canon (t : Nat) (o : Op) : LeavesCanon (execSysJob t o s) := by simp [execSysJob, hm]
@[simp] theorem execSysTime_canon (t : Nat) (o : Op) : LeavesCanon (execSysTime t o s) := by simp [execSysTime, hm]
@[simp] theorem execSysBeats_canon (t : Nat) (o : Op) : LeavesCanon (execSysBeats t o s) := by simp [execSysBeats, hm]
@[simp] theorem execSysGetrm_canon (t : Nat) (o : Op) : LeavesCanon (execSysGetrm t o s) := by simp [execSysGetrm, hm]

/-! ### Stream channels -/

@[simp] theorem execChCreditSend_canon (t : Nat) (c : Nat) (ep : Nat) : LeavesCanon (execChCreditSend t c ep s) := by
  unfold execChCreditSend
  dsimp only
  split <;> simp [hm]

@[simp] theorem execStrSend_canon (t : Nat) (o : Op) : LeavesCanon (execStrSend t o s) := by simp [execStrSend, hm]

@[simp] theorem execStrRecv_canon (t : Nat) (o : Op) : LeavesCanon (execStrRecv t o s) := by
  unfold execStrRecv
  refine stage_canon hm fun c => ?_
  dsimp only
  iterate 2
    split
    · simp [hm]
  exact chRead_canon (by simp [hm]) fun a v => by simp [hm]

@[simp] theorem execStrFwd_canon (t : Nat) (o : Op) : LeavesCanon (execStrFwd t o s) := by
  unfold execStrFwd
  refine stage_canon hm fun c => ?_
  dsimp only
  iterate 3
    split
    · simp [hm]
  refine chRead_canon (by simp [hm]) fun a v => ?_
  exact State.chSend_canon _ _ _ _ _ (by simp [hm])

@[simp] theorem execStrEos_canon (t : Nat) (o : Op) : LeavesCanon (execStrEos t o s) := by simp [execStrEos, hm]
@[simp] theorem execStrAvail_canon (t : Nat) (o : Op) : LeavesCanon (execStrAvail t o s) := by simp [execStrAvail, hm]
@[simp] theorem execStrCred_canon (t : Nat) (o : Op) : LeavesCanon (execStrCred t o s) := by simp [execStrCred, hm]

@[simp] theorem execChEntry_canon (fd : Nat) (p : Packet) : LeavesCanon (execChEntry fd p s) := by
  unfold execChEntry
  refine rxPacket_canon hm ?_
  dsimp only
  repeat' split
  all_goals simp [hm]

@[simp] theorem execChCredit_canon (fd : Nat) (p : Packet) : LeavesCanon (execChCredit fd p s) := by
  simp [execChCredit, hm]

/-! ### FAB transfers -/

@[simp] theorem execFabPut_canon (t : Nat) (o : Op) : LeavesCanon (execFabPut t o s) := by simp [execFabPut, hm]
@[simp] theorem execFabGet_canon (t : Nat) (o : Op) : LeavesCanon (execFabGet t o s) := by simp [execFabGet, hm]
@[simp] theorem execFabWait_canon (t : Nat) (o : Op) : LeavesCanon (execFabWait t o s) := by simp [execFabWait, hm]
@[simp] theorem execFabTest_canon (t : Nat) (o : Op) : LeavesCanon (execFabTest t o s) := by simp [execFabTest, hm]
@[simp] theorem execFabStat_canon (t : Nat) (o : Op) : LeavesCanon (execFabStat t o s) := by simp [execFabStat, hm]
@[simp] theorem execPut_canon (fd : Nat) (p : Packet) : LeavesCanon (execPut fd p s) := by simp [execPut, hm]

@[simp] theorem execGetReq_canon (fd : Nat) (p : Packet) : LeavesCanon (execGetReq fd p s) := by
  unfold execGetReq
  refine rxPacket_canon hm ?_
  dsimp only
  split
  · simp [hm]
  · split <;> simp [hm]

@[simp] theorem execPutAck_canon (fd : Nat) (p : Packet) : LeavesCanon (execPutAck fd p s) := by simp [execPutAck, hm]

@[simp] theorem execGetData_canon (fd : Nat) (p : Packet) : LeavesCanon (execGetData fd p s) := by
  unfold execGetData
  refine rxPacket_canon hm ?_
  dsimp only
  repeat' split
  all_goals simp [hm]

@[simp] theorem execFabTransferComplete_canon (t : Nat) (c : Nat) (tag : Nat) :
    LeavesCanon (execFabTransferComplete t c tag s) := by
  unfold execFabTransferComplete
  dsimp only
  split <;> simp [hm]

/-! ### Reductions -/

@[simp] theorem execReductionChunkCombine_canon (j : Nat) (h : BitVec 12) (chunk : Nat) :
    LeavesCanon (execReductionChunkCombine j h chunk s) := by
  unfold execReductionChunkCombine
  dsimp only
  repeat' split
  all_goals simp [hm]

@[simp] theorem execRedUp_canon (fd : Nat) (p : Packet) : LeavesCanon (execRedUp fd p s) := by
  unfold execRedUp
  refine rxPacket_canon hm ?_
  dsimp only
  repeat' split
  all_goals simp [hm]

@[simp] theorem execRedDown_canon (fd : Nat) (p : Packet) : LeavesCanon (execRedDown fd p s) := by
  unfold execRedDown
  refine rxPacket_canon hm ?_
  dsimp only
  repeat' split
  all_goals simp [hm]

/-! ### Hurdles -/

@[simp] theorem execReleaseHoldEnd_canon (j : Nat) (h : BitVec 12) : LeavesCanon (execReleaseHoldEnd j h s) := by
  simp [execReleaseHoldEnd, hm]
@[simp] theorem execHurArrive_canon (t : Nat) (o : Op) : LeavesCanon (execHurArrive t o s) := by
  simp [execHurArrive, hm]
@[simp] theorem execHurWait_canon (t : Nat) (o : Op) : LeavesCanon (execHurWait t o s) := by simp [execHurWait, hm]
@[simp] theorem execHurSync_canon (t : Nat) (o : Op) : LeavesCanon (execHurSync t o s) := by simp [execHurSync, hm]
@[simp] theorem execHurGen_canon (t : Nat) (o : Op) : LeavesCanon (execHurGen t o s) := by simp [execHurGen, hm]

@[simp] theorem execArrivalWritesComplete_canon (t : Nat) (c : Nat) (h : BitVec 12) :
    LeavesCanon (execArrivalWritesComplete t c h s) := by
  unfold execArrivalWritesComplete
  dsimp only
  split <;> simp [hm]

@[simp] theorem execHurdleArrival_canon (die : Nat) : LeavesCanon (execHurdleArrival die s) := by
  unfold execHurdleArrival
  dsimp only
  repeat' split
  all_goals simp [hm]

@[simp] theorem execFabRed_canon (t : Nat) (o : Op) : LeavesCanon (execFabRed t o s) := by
  unfold execFabRed
  refine stage_canon hm fun c => ?_
  refine fabTag_canon (by simp [hm]) fun f => ?_
  dsimp only
  iterate 3
    split
    · simp [hm]
  split
  · simp [hm]
  · simp [hm]

@[simp] theorem execHurArrivePacket_canon (p : Packet) : LeavesCanon (execHurArrivePacket p s) := by
  unfold execHurArrivePacket
  refine rxPacket_canon hm ?_
  dsimp only
  repeat' split
  all_goals simp [hm]

@[simp] theorem execHurReleasePacket_canon (p : Packet) : LeavesCanon (execHurReleasePacket p s) := by
  unfold execHurReleasePacket
  refine rxPacket_canon hm ?_
  repeat' split
  all_goals simp [hm]

@[simp] theorem execHurdleTimeout_canon (j : Nat) (h : BitVec 12) : LeavesCanon (execHurdleTimeout j h s) := by
  simp [execHurdleTimeout, hm]
@[simp] theorem execHurTimeoutWrite_canon (ticks : BitVec 32) : LeavesCanon (execHurTimeoutWrite ticks s) := by
  simp [execHurTimeoutWrite, hm]

/-! ### Waiting contexts and failed tiles -/

@[simp] theorem execWaitCauseClear_canon (t : Nat) (c : Nat) : LeavesCanon (execWaitCauseClear t c s) := by
  simp [execWaitCauseClear, hm]
@[simp] theorem execTagHoldEnd_canon (t : Nat) (c : Nat) (tag : Nat) : LeavesCanon (execTagHoldEnd t c tag s) := by
  simp [execTagHoldEnd, hm]
@[simp] theorem execRowMapWrite_canon (die : Nat) (row : Nat) (col : BitVec 4) (healthy : Bool)
    (absent : Option (BitVec 4)) : LeavesCanon (execRowMapWrite die row col healthy absent s) := by
  simp [execRowMapWrite, hm]
@[simp] theorem execPendingMapApply_canon (die : Nat) (row : Nat) : LeavesCanon (execPendingMapApply die row s) := by
  simp [execPendingMapApply, hm]
@[simp] theorem execTileFailure_canon (t : Nat) : LeavesCanon (execTileFailure t s) := by simp [execTileFailure, hm]

@[simp] theorem execTileFaultRecord_canon : LeavesCanon (execTileFaultRecord s) := by
  unfold execTileFaultRecord
  dsimp only
  repeat' split
  all_goals simp [hm]

/-! ### Chains -/

@[simp] theorem execLoadChain_canon (r : Nat) (dmaOk : Bool) (image : List Byte) (peers : List Coord) :
    LeavesCanon (execLoadChain r dmaOk image peers s) := by
  unfold execLoadChain
  refine hostCmd_canon hm fun b tag v => ?_
  dsimp only
  split
  · simp [hm]
  split
  · simp [hm]
  have hf := State.flushWhere_canon (s := s.setRing r v) (fun _ => true) hm
  generalize State.flushWhere _ _ = u at hf ⊢
  have hx : ∀ c : Bool, memCanon (if c then u.readXfer (fieldB b 8 8) (fieldB b 16 4)
      else (u, sliceB image 0 (fieldB b 16 4), true)).1.memView = true := by
    rintro (_ | _)
    · exact hf
    · exact State.readXfer_canon hf _ _
  have hd := State.applyDue_canon r (hx ((nth b 20 0).getLsbD 0))
  split <;> rw [State.complete_view]
  · exact hd
  · exact State.writeImage_canon _ _ _ _ _ hd

@[simp] theorem execStartChain_canon (r : Nat) : LeavesCanon (execStartChain r s) := by
  unfold execStartChain
  refine hostCmd_canon hm fun b tag v => ?_
  have hf := State.flushWhere_canon (s := s.setRing r v) (fun _ => true) hm
  dsimp only
  generalize State.flushWhere _ _ = u at hf ⊢
  have ht := u.takeSlot_view (BitVec.ofNat 16 (fieldB b 10 2)) (BitVec.ofNat 8 (fieldB b 12 1))
  generalize u.takeSlot _ _ = o at ht ⊢
  obtain ⟨u1, _ | j⟩ := o <;> dsimp only at ht ⊢
  · repeat' split
    all_goals simp [ht, hf]
  · repeat' split
    all_goals simp [ht, hf]

@[simp] theorem execStopChain_canon (r : Nat) : LeavesCanon (execStopChain r s) := by simp [execStopChain, hm]

@[simp] theorem execUnloadChain_canon (r : Nat) : LeavesCanon (execUnloadChain r s) := by
  unfold execUnloadChain
  split <;> simp [hm]

/-! ### Element commands -/

@[simp] theorem execElemMove_canon (n e : Nat) (slot : BitVec 3) (lane : BitVec 2) :
    LeavesCanon (execElemMove n e slot lane s) := by
  simp [execElemMove, hm]
@[simp] theorem execElemSeek_canon (n e : Nat) (slot : BitVec 3) (lane : BitVec 2) :
    LeavesCanon (execElemSeek n e slot lane s) := by
  simp [execElemSeek, hm]
@[simp] theorem execElemPark_canon (n e : Nat) : LeavesCanon (execElemPark n e s) := by simp [execElemPark, hm]
@[simp] theorem execElemHold_canon (n e : Nat) : LeavesCanon (execElemHold n e s) := by simp [execElemHold, hm]
@[simp] theorem execElemRelease_canon (n e : Nat) : LeavesCanon (execElemRelease n e s) := by simp [execElemRelease, hm]
@[simp] theorem execElemTest_canon (n e : Nat) : LeavesCanon (execElemTest n e s) := by simp [execElemTest, hm]
@[simp] theorem execElemSel_canon (n e : Nat) (slot : BitVec 3) : LeavesCanon (execElemSel n e slot s) := by
  simp [execElemSel, hm]
@[simp] theorem execElemClear_canon (n e : Nat) : LeavesCanon (execElemClear n e s) := by simp [execElemClear, hm]

@[simp] theorem execQueuedMoveStart_canon (n e : Nat) : LeavesCanon (execQueuedMoveStart n e s) := by
  unfold execQueuedMoveStart
  dsimp only
  split <;> simp [hm]

@[simp] theorem execMoveSet_canon (n : Nat) (ms : List Move) : LeavesCanon (execMoveSet n ms s) := by
  refine doIf_canon hm ?_
  rw [State.moveAll_view, memView_foldl (fun _ _ => State.updSkein_view ..)]
  exact hm

@[simp] theorem execHandoverEvaluation_canon (n e : Nat) : LeavesCanon (execHandoverEvaluation n e s) := by
  unfold execHandoverEvaluation
  dsimp only
  split <;> simp [hm]

@[simp] theorem execSlip_canon (n e : Nat) : LeavesCanon (execSlip n e s) := by simp [execSlip, hm]

@[simp] theorem execFollowingErrorExpiry_canon (n e : Nat) : LeavesCanon (execFollowingErrorExpiry n e s) := by
  unfold execFollowingErrorExpiry
  dsimp only
  repeat' split
  all_goals simp [hm]

@[simp] theorem execNotchRecoveryEnd_canon (n e : Nat) : LeavesCanon (execNotchRecoveryEnd n e s) := by
  simp [execNotchRecoveryEnd, hm]

@[simp] theorem execSlotMiss_canon (n : Nat) : LeavesCanon (execSlotMiss n s) := by
  unfold execSlotMiss
  dsimp only
  repeat' split
  all_goals simp [hm]

@[simp] theorem execRailFault_canon (n : Nat) : LeavesCanon (execRailFault n s) := by simp [execRailFault, hm]

@[simp] theorem execLiveValuesUpdate_canon (n : Nat) : LeavesCanon (execLiveValuesUpdate n s) := by
  refine doIf_canon hm ?_
  rw [memView_foldl (fun _ _ => State.updElem_view ..)]
  exact hm

@[simp] theorem execCoefficientWrite_canon (n : Nat) (bank : Bool) (i : Nat) (w : Nat) (word : BitVec 32) :
    LeavesCanon (execCoefficientWrite n bank i w word s) := by
  simp [execCoefficientWrite, hm]
@[simp] theorem execProgMemWrite_canon (n : Nat) (w : BitVec 10) (word : BitVec 32) :
    LeavesCanon (execProgMemWrite n w word s) := by
  simp [execProgMemWrite, hm]
@[simp] theorem execProgRun_canon (n : Nat) : LeavesCanon (execProgRun n s) := by simp [execProgRun, hm]
@[simp] theorem execProgStop_canon (n : Nat) : LeavesCanon (execProgStop n s) := by simp [execProgStop, hm]
@[simp] theorem execCrookPeriod_canon (n : Nat) (smp : CrookSample) : LeavesCanon (execCrookPeriod n smp s) := by
  simp [execCrookPeriod, hm]

/-! ### Light paths -/

@[simp] theorem execEcsPoll_canon (x : Nat) (rep : Option EcsReport) : LeavesCanon (execEcsPoll x rep s) := by
  unfold execEcsPoll
  dsimp only
  repeat' split
  all_goals simp [hm]

@[simp] theorem execFeedLoss_canon (x : Nat) (f : Nat) : LeavesCanon (execFeedLoss x f s) := by simp [execFeedLoss, hm]
@[simp] theorem execEcsSafeWrite_canon (x : Nat) (v : Bool) : LeavesCanon (execEcsSafeWrite x v s) := by
  simp [execEcsSafeWrite, hm]
@[simp] theorem execReachWrite_canon (e : ReachEntry) : LeavesCanon (execReachWrite e s) := by simp [execReachWrite, hm]
@[simp] theorem execQuiesce_canon (q : Nat) : LeavesCanon (execQuiesce q s) := by simp [execQuiesce, hm]
@[simp] theorem execQuiesceRelease_canon (q : Nat) : LeavesCanon (execQuiesceRelease q s) := by
  simp [execQuiesceRelease, hm]
@[simp] theorem execDarkSlotEvent_canon (q : Nat) : LeavesCanon (execDarkSlotEvent q s) := by
  simp [execDarkSlotEvent, hm]
@[simp] theorem execFadeEvaluation_canon (q : Nat) (ber5 : Bool) : LeavesCanon (execFadeEvaluation q ber5 s) := by
  simp [execFadeEvaluation, hm]
@[simp] theorem execScheduledSwitch_canon (q : Nat) : LeavesCanon (execScheduledSwitch q s) := by
  simp [execScheduledSwitch, hm]

@[simp] theorem execScheduledSwitchTimeout_canon (q : Nat) : LeavesCanon (execScheduledSwitchTimeout q s) := by
  unfold execScheduledSwitchTimeout
  split <;> simp [hm]

@[simp] theorem execImmediateSwitch_canon (q : Nat) : LeavesCanon (execImmediateSwitch q s) := by
  unfold execImmediateSwitch
  dsimp only
  repeat' split
  all_goals simp [hm]

@[simp] theorem execPrimaryReturn_canon (q : Nat) : LeavesCanon (execPrimaryReturn q s) := by
  unfold execPrimaryReturn
  dsimp only
  split <;> simp [hm]

@[simp] theorem execBlank_canon : LeavesCanon (execBlank s) := by simp [execBlank, hm]
@[simp] theorem execBlankLift_canon : LeavesCanon (execBlankLift s) := by simp [execBlankLift, hm]

/-! ### Checkpoints and the twin -/

@[simp] theorem execCommit_canon (j : Nat) : LeavesCanon (execCommit j s) := by simp [execCommit, hm]
@[simp] theorem execCommitTimeout_canon (j : Nat) : LeavesCanon (execCommitTimeout j s) := by
  simp [execCommitTimeout, hm]
@[simp] theorem execCkpt_canon (fd : Nat) (p : Packet) (uncorrectable : Bool) :
    LeavesCanon (execCkpt fd p uncorrectable s) := by
  simp [execCkpt, hm]

@[simp] theorem execCkptAck_canon (fd : Nat) (p : Packet) : LeavesCanon (execCkptAck fd p s) := by
  unfold execCkptAck
  refine rxPacket_canon hm ?_
  dsimp only
  repeat' split
  all_goals simp [hm]

@[simp] theorem execCommitNotice_canon (p : Packet) (row : Word) : LeavesCanon (execCommitNotice p row s) := by
  unfold execCommitNotice
  split <;> simp [hm]

@[simp] theorem execExportComplete_canon (h : Nat) : LeavesCanon (execExportComplete h s) := by
  simp [execExportComplete, hm]

@[simp] theorem execCheckpointConfig_canon (r : Nat) (dmaOk : Bool) (map : List (Nat × Nat)) :
    LeavesCanon (execCheckpointConfig r dmaOk map s) := by
  unfold execCheckpointConfig
  refine hostCmd_canon hm fun b tag v => ?_
  dsimp only
  repeat' split
  all_goals simp [hm]

@[simp] theorem execTink_canon (r : Nat) : LeavesCanon (execTink r s) := by
  unfold execTink
  refine hostCmd_canon hm fun b tag v => ?_
  dsimp only
  split
  · simp [hm]
  have ht := (s.setRing r v).takeSlot_view (BitVec.ofNat 16 (fieldB b 10 2)) (BitVec.ofNat 8 (fieldB b 12 1))
  generalize (s.setRing r v).takeSlot _ _ = o at ht ⊢
  obtain ⟨u, _ | j⟩ := o <;> dsimp only at ht ⊢
  · simp [hm]
  · have hu : memCanon u.memView = true := by simp [ht, hm]
    repeat' split
    all_goals simp [hu]

@[simp] theorem execRestoreComplete_canon (j : Nat) : LeavesCanon (execRestoreComplete j s) := by
  simp [execRestoreComplete, hm]

@[simp] theorem execCheckpointImport_canon (r : Nat) (manifest : List Byte) (grans : List (List Byte)) :
    LeavesCanon (execCheckpointImport r manifest grans s) := by
  unfold execCheckpointImport
  refine hostCmd_canon hm fun b tag v => ?_
  dsimp only
  repeat' split
  all_goals simp [hm]

@[simp] theorem execUeReport_canon : LeavesCanon (execUeReport s) := by
  unfold execUeReport
  dsimp only
  repeat' split
  all_goals simp [hm]

/-! ### The flock -/

@[simp] theorem execGossipSend_canon : LeavesCanon (execGossipSend s) := by simp [execGossipSend, hm]
@[simp] theorem execGossip_canon (h : FlockHdr) (twin : Coord) (es : List GossipEntry) :
    LeavesCanon (execGossip h twin es s) := by
  simp [execGossip, hm]
@[simp] theorem execReportLapse_canon (m : Nat) : LeavesCanon (execReportLapse m s) := by simp [execReportLapse, hm]
@[simp] theorem execGossipLost_canon (m : Nat) : LeavesCanon (execGossipLost m s) := by simp [execGossipLost, hm]
@[simp] theorem execBellwetherLost_canon : LeavesCanon (execBellwetherLost s) := by simp [execBellwetherLost, hm]
@[simp] theorem execClaim_canon (h : FlockHdr) (members : BitVec 16) : LeavesCanon (execClaim h members s) := by
  simp [execClaim, hm]
@[simp] theorem execExpelReq_canon (h : FlockHdr) (score cause : Byte) (ind : List (BitVec 16)) :
    LeavesCanon (execExpelReq h score cause ind s) := by
  simp [execExpelReq, hm]

@[simp] theorem execExpelOrder_canon (h : FlockHdr) (subject : Coord) (slot left : Byte) :
    LeavesCanon (execExpelOrder h subject slot left s) := by
  refine flockRx_canon hm fun sh => ?_
  repeat' split
  all_goals simp [hm]

@[simp] theorem execExpelRefused_canon (h : FlockHdr) (subject : Coord) (reasons : BitVec 4) :
    LeavesCanon (execExpelRefused h subject reasons s) := by
  simp [execExpelRefused, hm]
@[simp] theorem execBudgetSlotExpiry_canon (i : Nat) : LeavesCanon (execBudgetSlotExpiry i s) := by
  simp [execBudgetSlotExpiry, hm]
@[simp] theorem execCounterTrusted_canon : LeavesCanon (execCounterTrusted s) := by simp [execCounterTrusted, hm]
@[simp] theorem execExpelReevaluation_canon : LeavesCanon (execExpelReevaluation s) := by
  simp [execExpelReevaluation, hm]
@[simp] theorem execReserveReport_canon (h : CtlHdr) (reserve : BitVec 16) :
    LeavesCanon (execReserveReport h reserve s) := by
  simp [execReserveReport, hm]

@[simp] theorem execBindOffDeadline_canon : LeavesCanon (execBindOffDeadline s) := by
  unfold execBindOffDeadline
  split <;> simp [hm]

@[simp] theorem execSelfReport_canon (h : FlockHdr) (kind code group : Byte) (detail : Word) :
    LeavesCanon (execSelfReport h kind code group detail s) := by
  simp [execSelfReport, hm]
@[simp] theorem execSuspensionExpiry_canon (m : Nat) : LeavesCanon (execSuspensionExpiry m s) := by
  simp [execSuspensionExpiry, hm]
@[simp] theorem execVerdict_canon (h : FlockHdr) (subject : Coord) (classes : BitVec 4) :
    LeavesCanon (execVerdict h subject classes s) := by
  simp [execVerdict, hm]
@[simp] theorem execPen_canon (h : FlockHdr) (subject : Coord) (cause : Byte) :
    LeavesCanon (execPen h subject cause s) := by
  simp [execPen, hm]
@[simp] theorem execUnpen_canon (h : FlockHdr) (subject : Coord) (digest : Word) :
    LeavesCanon (execUnpen h subject digest s) := by
  simp [execUnpen, hm]
@[simp] theorem execAdmitMsg_canon (h : FlockHdr) (coord prev : Coord) (digest : Word) :
    LeavesCanon (execAdmitMsg h coord prev digest s) := by
  simp [execAdmitMsg, hm]
@[simp] theorem execAccuse_canon (h : FlockHdr) (subject : Coord) (job : BitVec 16) (gen : Byte) (tile : BitVec 16)
    (row : Word) : LeavesCanon (execAccuse h subject job gen tile row s) := by
  simp [execAccuse, hm]
@[simp] theorem execProbeOrder_canon (h : FlockHdr) (subject prober : Coord) (tile : BitVec 16) :
    LeavesCanon (execProbeOrder h subject prober tile s) := by
  simp [execProbeOrder, hm]
@[simp] theorem execProbeResult_canon (h : FlockHdr) (subject : Coord) (result : Byte) (dies : BitVec 40) :
    LeavesCanon (execProbeResult h subject result dies s) := by
  simp [execProbeResult, hm]

@[simp] theorem execProbeDeadline_canon : LeavesCanon (execProbeDeadline s) := by
  unfold execProbeDeadline
  repeat' split
  all_goals simp [hm]

@[simp] theorem execAccuseCommand_canon (r : Nat) : LeavesCanon (execAccuseCommand r s) := by
  simp [execAccuseCommand, hm]
@[simp] theorem execHardFault_canon (code : Byte) : LeavesCanon (execHardFault code s) := by simp [execHardFault, hm]
@[simp] theorem execIndicatorCollect_canon : LeavesCanon (execIndicatorCollect s) := by simp [execIndicatorCollect, hm]
@[simp] theorem execScoreWrite_canon (score : Byte) : LeavesCanon (execScoreWrite score s) := by
  simp [execScoreWrite, hm]

@[simp] theorem execPaddockMainRamp_canon : LeavesCanon (execPaddockMainRamp s) := by
  unfold execPaddockMainRamp
  dsimp only
  split <;> simp [hm]

@[simp] theorem execPaddockPass_canon : LeavesCanon (execPaddockPass s) := by
  unfold execPaddockPass
  dsimp only
  repeat' split
  all_goals simp [hm]

@[simp] theorem execPaddockPassEnd_canon (clean : Bool) (code : Byte) :
    LeavesCanon (execPaddockPassEnd clean code s) := by
  simp [execPaddockPassEnd, hm]
@[simp] theorem execPaddockProgress_canon : LeavesCanon (execPaddockProgress s) := by simp [execPaddockProgress, hm]
@[simp] theorem execPaddockReportRepeat_canon : LeavesCanon (execPaddockReportRepeat s) := by
  simp [execPaddockReportRepeat, hm]

/-! ### The link layer -/

@[simp] theorem execDataFlit_canon (fd : Nat) (k : Nat) (h : FlitHdr) (d : FlitData) :
    LeavesCanon (execDataFlit fd k h d s) := by
  simp [execDataFlit, hm]
@[simp] theorem execAckFlit_canon (fd : Nat) (k : Nat) (h : FlitHdr) : LeavesCanon (execAckFlit fd k h s) := by
  simp [execAckFlit, hm]
@[simp] theorem execNakFlit_canon (fd : Nat) (k : Nat) (h : FlitHdr) : LeavesCanon (execNakFlit fd k h s) := by
  simp [execNakFlit, hm]
@[simp] theorem execIdleFlit_canon (fd : Nat) (k : Nat) (h : FlitHdr) : LeavesCanon (execIdleFlit fd k h s) := by
  simp [execIdleFlit, hm]
@[simp] theorem execAckTimer_canon (fd : Nat) (k : Nat) : LeavesCanon (execAckTimer fd k s) := by
  simp [execAckTimer, hm]
@[simp] theorem execLinkFail_canon (fd : Nat) (k : Nat) : LeavesCanon (execLinkFail fd k s) := by
  simp [execLinkFail, hm]
@[simp] theorem execCommandedRetrain_canon (fd : Nat) (k : Nat) : LeavesCanon (execCommandedRetrain fd k s) := by
  simp [execCommandedRetrain, hm]
@[simp] theorem execLaneRemove_canon (fd : Nat) (lane : Nat) (lost : Bool) (uncorr : Nat) :
    LeavesCanon (execLaneRemove fd lane lost uncorr s) := by
  simp [execLaneRemove, hm]

@[simp] theorem execTrainFlit_canon (fd : Nat) (k : Nat) (h : FlitHdr) (i : TrainInfo) :
    LeavesCanon (execTrainFlit fd k h i s) := by
  unfold execTrainFlit
  dsimp only
  repeat' split
  all_goals simp [hm]

@[simp] theorem execIdentityReportTimeout_canon (fd : Nat) (k : Nat) :
    LeavesCanon (execIdentityReportTimeout fd k s) := by
  simp [execIdentityReportTimeout, hm]
@[simp] theorem execKeepaliveSend_canon (fd : Nat) (k : Nat) : LeavesCanon (execKeepaliveSend fd k s) := by
  simp [execKeepaliveSend, hm]

@[simp] theorem execKeepalive_canon (fd : Nat) (k : Nat) (sender : Coord) (alive : Byte)
    (_penned _draining retrain : Bool) (digest : Word) :
    LeavesCanon (execKeepalive fd k sender alive _penned _draining retrain digest s) := by
  unfold execKeepalive
  dsimp only
  repeat' split
  all_goals simp [hm]

@[simp] theorem execPartnerSilent_canon (fd : Nat) (k : Nat) : LeavesCanon (execPartnerSilent fd k s) := by
  simp [execPartnerSilent, hm]

@[simp] theorem execDrain_canon (fd k : Nat) (src : Coord) (reason : Byte) :
    LeavesCanon (execDrain fd k src reason s) := by
  unfold execDrain
  iterate 2
    split
    · simp [hm]
  rw [leavesCanon_next, memView_foldl (fun _ _ => State.updLink_view ..)]
  exact hm

@[simp] theorem execReady_canon (fd k : Nat) (src : Coord) : LeavesCanon (execReady fd k src s) := by
  unfold execReady
  dsimp only
  split <;> simp [hm]

@[simp] theorem execCoordinateHoldEnd_canon (c : Coord) : LeavesCanon (execCoordinateHoldEnd c s) := by
  simp [execCoordinateHoldEnd, hm]

@[simp] theorem execFenceWrite_canon (coord : Option Coord) (link : Option (Nat × Nat)) (set : Bool) :
    LeavesCanon (execFenceWrite coord link set s) := by
  unfold execFenceWrite
  dsimp only
  repeat' split
  all_goals simp [hm]

@[simp] theorem execTransitPacket_canon (fd : Nat) (k : Nat) (p : Packet) (residence : Nat) :
    LeavesCanon (execTransitPacket fd k p residence s) := by
  simp [execTransitPacket, hm]

@[simp] theorem execRouteEntryWrite_canon (fd : Nat) (overlay : Option (Nat × BitVec 16 × Nat)) (coord : Coord)
    (e : RouteEntry) : LeavesCanon (execRouteEntryWrite fd overlay coord e s) := by
  unfold execRouteEntryWrite
  dsimp only
  split <;> simp [hm]

@[simp] theorem execDrop_canon (fd : Nat) (p : Packet) : LeavesCanon (execDrop fd p s) := by simp [execDrop, hm]

@[simp] theorem execProbe_canon (fd : Nat) (p : Packet) : LeavesCanon (execProbe fd p s) := by
  unfold execProbe
  refine rxPacket_canon hm ?_
  repeat' split
  all_goals simp [hm]

@[simp] theorem execProbeReply_canon (fd : Nat) (p : Packet) : LeavesCanon (execProbeReply fd p s) := by
  simp [execProbeReply, hm]

/-! ### Tally, black box and lane tests -/

@[simp] theorem execTallyEvent_canon (e : Event) : LeavesCanon (execTallyEvent e s) := by
  unfold execTallyEvent
  split <;> simp [hm]

@[simp] theorem execTokenRefill_canon (code : BitVec 16) : LeavesCanon (execTokenRefill code s) := by
  unfold execTokenRefill
  dsimp only
  split <;> simp [hm]

@[simp] theorem execCursorWrite_canon (index : BitVec 13) : LeavesCanon (execCursorWrite index s) := by
  simp [execCursorWrite, hm]
@[simp] theorem execWindowAutoAdvance_canon : LeavesCanon (execWindowAutoAdvance s) := by
  simp [execWindowAutoAdvance, hm]
@[simp] theorem execFreeze_canon : LeavesCanon (execFreeze s) := by simp [execFreeze, hm]
@[simp] theorem execUnfreeze_canon : LeavesCanon (execUnfreeze s) := by simp [execUnfreeze, hm]
@[simp] theorem execFreezeTimeout_canon : LeavesCanon (execFreezeTimeout s) := by simp [execFreezeTimeout, hm]
@[simp] theorem execMirror_canon : LeavesCanon (execMirror s) := by simp [execMirror, hm]
@[simp] theorem execShadowCopyEnd_canon : LeavesCanon (execShadowCopyEnd s) := by simp [execShadowCopyEnd, hm]

@[simp] theorem execMirrorWriteEnd_canon : LeavesCanon (execMirrorWriteEnd s) := by
  unfold execMirrorWriteEnd
  dsimp only
  split <;> simp [hm]

@[simp] theorem execRingWriteEnd_canon : LeavesCanon (execRingWriteEnd s) := by simp [execRingWriteEnd, hm]
@[simp] theorem execBbRelease_canon : LeavesCanon (execBbRelease s) := by simp [execBbRelease, hm]
@[simp] theorem execBbCursorWrite_canon (cursor : BitVec 12) (source : BitVec 2) :
    LeavesCanon (execBbCursorWrite cursor source s) := by
  simp [execBbCursorWrite, hm]
@[simp] theorem execTestStart_canon (fd : Nat) (lane : Nat) : LeavesCanon (execTestStart fd lane s) := by
  simp [execTestStart, hm]
@[simp] theorem execCheckerLock_canon (fd : Nat) (lane : Nat) : LeavesCanon (execCheckerLock fd lane s) := by
  simp [execCheckerLock, hm]
@[simp] theorem execCheckerLockLost_canon (fd : Nat) (lane : Nat) (bits errs efrMax uncorr : Nat) :
    LeavesCanon (execCheckerLockLost fd lane bits errs efrMax uncorr s) := by
  simp [execCheckerLockLost, hm]

/-! ### Stages of cast-on and the sideband -/

@[simp] theorem execHeartbeatSend_canon : LeavesCanon (execHeartbeatSend s) := by simp [execHeartbeatSend, hm]
@[simp] theorem execHeartbeat_canon (f : SideFrame) : LeavesCanon (execHeartbeat f s) := by simp [execHeartbeat, hm]
@[simp] theorem execHeartbeatSilence_canon : LeavesCanon (execHeartbeatSilence s) := by simp [execHeartbeatSilence, hm]
@[simp] theorem execSidebandSelfReport_canon (f : SideFrame) : LeavesCanon (execSidebandSelfReport f s) := by
  simp [execSidebandSelfReport, hm]
@[simp] theorem execHandshake_canon (f : SideFrame) : LeavesCanon (execHandshake f s) := by simp [execHandshake, hm]

@[simp] theorem execBindOff_canon (r : Nat) : LeavesCanon (execBindOff r s) := by
  unfold execBindOff
  refine hostCmd_canon hm fun b tag v => ?_
  repeat' split
  all_goals simp [hm]

@[simp] theorem execBindOffCommit_canon : LeavesCanon (execBindOffCommit s) := by simp [execBindOffCommit, hm]

/-! ### CO0 to CO5 -/

@[simp] theorem execCastOnCo0_canon (status : BitVec 2) (corrections : BitVec 16) (seed : BitVec 256)
    (romVersion : BitVec 32) (romDigest gateDigest shepDigest : BitVec 256) :
    LeavesCanon (execCastOnCo0 status corrections seed romVersion romDigest gateDigest shepDigest s) := by
  unfold execCastOnCo0
  dsimp only
  split <;> simp [hm]

@[simp] theorem execCastOnCo1_canon (a b : ImageInfo) : LeavesCanon (execCastOnCo1 a b s) := by
  unfold execCastOnCo1
  dsimp only
  split
  · simp [hm]
  · have hc := (s.frogTrial.chooseSlot_view fun n => s.slotFacts n (if n = 0 then a else b)).trans s.frogTrial_view
    generalize s.frogTrial.chooseSlot _ = o at hc ⊢
    obtain ⟨u, _ | ⟨n, late⟩⟩ := o <;> dsimp only at hc ⊢ <;> simp [hc, hm]

@[simp] theorem execCastOnCo2_canon (missing : List Nat) (linksChecked linksFailed : Nat) (pgFail : Option (Option Nat))
    (vinMv : BitVec 32) (ramp : BitVec 32) :
    LeavesCanon (execCastOnCo2 missing linksChecked linksFailed pgFail vinMv ramp s) := by
  unfold execCastOnCo2
  dsimp only
  repeat' split
  all_goals simp [hm]

@[simp] theorem execCastOnCo3_canon (record : List Byte) (sigOk : Bool) :
    LeavesCanon (execCastOnCo3 record sigOk s) := by
  unfold execCastOnCo3
  dsimp only
  repeat' split
  all_goals simp [hm]

@[simp] theorem execCastOnCo4_canon (quals : List (Nat × Nat × BitVec 5)) (temps : List (BitVec 16)) :
    LeavesCanon (execCastOnCo4 quals temps s) := by
  unfold execCastOnCo4
  dsimp only
  repeat' split
  all_goals simp [hm]

@[simp] theorem execCastOnCo5_canon (failed : List Nat) (noAck : List Nat) :
    LeavesCanon (execCastOnCo5 failed noAck s) := by
  unfold execCastOnCo5
  dsimp only
  repeat' split
  all_goals simp [hm]

/-! ### CO6 to CO9 -/

@[simp] theorem execCastOnCo6_canon (lanes : List LaneOutcome) : LeavesCanon (execCastOnCo6 lanes s) := by
  unfold execCastOnCo6
  dsimp only
  split <;> simp [hm]

@[simp] theorem execCastOnCo7_canon (sources : List (Option SourceTaps)) (gauges : List (List Byte × Bool))
    (temps : List (BitVec 16)) (lanes : List LaneOutcome) :
    LeavesCanon (execCastOnCo7 sources gauges temps lanes s) := by
  unfold execCastOnCo7
  dsimp only
  repeat' split
  all_goals simp [hm]

@[simp] theorem execPlanLoad_canon (r : Nat) (dmaOk sigOk : Bool) (plan : Plan) (digest : BitVec 256) :
    LeavesCanon (execPlanLoad r dmaOk sigOk plan digest s) := by
  simp [execPlanLoad, hm]
@[simp] theorem execPlanMessage_canon (h : CtlHdr) (sigOk : Bool) (plan : Plan) (digest : BitVec 256) :
    LeavesCanon (execPlanMessage h sigOk plan digest s) := by
  simp [execPlanMessage, hm]

@[simp] theorem execCastOnCo8_canon (lanes : List LaneOutcome) : LeavesCanon (execCastOnCo8 lanes s) := by
  unfold execCastOnCo8
  dsimp only
  repeat' split
  all_goals simp [hm]

@[simp] theorem execCastOnCo9_canon : LeavesCanon (execCastOnCo9 s) := by
  unfold execCastOnCo9
  dsimp only
  repeat' split
  all_goals simp [hm]

@[simp] theorem execStageTimeout_canon : LeavesCanon (execStageTimeout s) := by
  unfold execStageTimeout
  dsimp only
  repeat' split
  all_goals simp [hm]

@[simp] theorem execCastRetry_canon : LeavesCanon (execCastRetry s) := by simp [execCastRetry, hm]
@[simp] theorem execPlanWaitRetry_canon : LeavesCanon (execPlanWaitRetry s) := by simp [execPlanWaitRetry, hm]
@[simp] theorem execHoldReport_canon : LeavesCanon (execHoldReport s) := by simp [execHoldReport, hm]

/-! ### Control and loops -/

@[simp] theorem execCtlNop_canon (t : Nat) (o : Op) : LeavesCanon (execCtlNop t o s) := by simp [execCtlNop, hm]
@[simp] theorem execCtlBr_canon (t : Nat) (o : Op) : LeavesCanon (execCtlBr t o s) := by simp [execCtlBr, hm]
@[simp] theorem execCtlBl_canon (t : Nat) (o : Op) : LeavesCanon (execCtlBl t o s) := by simp [execCtlBl, hm]
@[simp] theorem execCtlJr_canon (t : Nat) (o : Op) : LeavesCanon (execCtlJr t o s) := by simp [execCtlJr, hm]
@[simp] theorem execCtlLoop_canon (t : Nat) (o : Op) : LeavesCanon (execCtlLoop t o s) := by simp [execCtlLoop, hm]
@[simp] theorem execCtlLoopi_canon (t : Nat) (o : Op) : LeavesCanon (execCtlLoopi t o s) := by simp [execCtlLoopi, hm]
@[simp] theorem execCtlBreak_canon (t : Nat) (o : Op) : LeavesCanon (execCtlBreak t o s) := by simp [execCtlBreak, hm]
@[simp] theorem execCtlLidx_canon (t : Nat) (o : Op) : LeavesCanon (execCtlLidx t o s) := by simp [execCtlLidx, hm]
@[simp] theorem execCtlYield_canon (t : Nat) (o : Op) : LeavesCanon (execCtlYield t o s) := by simp [execCtlYield, hm]
@[simp] theorem execCtlHalt_canon (t : Nat) (o : Op) : LeavesCanon (execCtlHalt t o s) := by simp [execCtlHalt, hm]

/-! ### The matrix unit -/

@[simp] theorem execMatLdw_canon (t : Nat) (o : Op) : LeavesCanon (execMatLdw t o s) := by
  unfold execMatLdw
  refine stage_canon hm fun c => ?_
  exact ctxRead_canon (by simp [hm]) fun a bs => by simp [hm]

@[simp] theorem execMatZacc_canon (t : Nat) (o : Op) : LeavesCanon (execMatZacc t o s) := by simp [execMatZacc, hm]
@[simp] theorem execMatAccw_canon (t : Nat) (o : Op) : LeavesCanon (execMatAccw t o s) := by simp [execMatAccw, hm]
@[simp] theorem execMatAccr_canon (t : Nat) (o : Op) : LeavesCanon (execMatAccr t o s) := by simp [execMatAccr, hm]
@[simp] theorem execMatAccst_canon (t : Nat) (o : Op) : LeavesCanon (execMatAccst t o s) := by simp [execMatAccst, hm]
@[simp] theorem execMatMma_canon (t : Nat) (o : Op) : LeavesCanon (execMatMma t o s) := by simp [execMatMma, hm]

/-! ### Power, resets and the timebase -/

@[simp] theorem execAuxPowerUp_canon : LeavesCanon (execAuxPowerUp s) := by simp [execAuxPowerUp, hm]
@[simp] theorem execAuxPgFall_canon : LeavesCanon (execAuxPgFall s) := by simp [execAuxPgFall, hm]
@[simp] theorem execHoldupBankCharged_canon : LeavesCanon (execHoldupBankCharged s) := by
  simp [execHoldupBankCharged, hm]

@[simp] theorem execTbTick_canon (upsets : List (Nat × Nat)) : LeavesCanon (execTbTick upsets s) := by
  refine doIf_canon hm ?_
  exact State.canon_fold hm (fun _ e h => State.upset_canon h e) _

@[simp] theorem execMainPowerRemove_canon : LeavesCanon (execMainPowerRemove s) := by
  unfold execMainPowerRemove
  split <;> simp [hm]

@[simp] theorem execMainPowerLoss_canon : LeavesCanon (execMainPowerLoss s) := by
  unfold execMainPowerLoss
  dsimp only
  repeat' split
  all_goals simp [hm]

@[simp] theorem execMainPowerRestore_canon : LeavesCanon (execMainPowerRestore s) := by simp [execMainPowerRestore, hm]
@[simp] theorem execMainReset_canon (r : Nat) : LeavesCanon (execMainReset r s) := by simp [execMainReset, hm]
@[simp] theorem execPartitionReset_canon (r : Nat) : LeavesCanon (execPartitionReset r s) := by
  simp [execPartitionReset, hm]

@[simp] theorem execAllPartitionReset_canon (r : Nat) : LeavesCanon (execAllPartitionReset r s) := by
  unfold execAllPartitionReset
  refine hostCmd_canon hm fun b tag v => ?_
  rw [State.queueIslands_view]
  exact State.canon_fold (by simp [hm]) (fun _ p h => State.resetPart_canon p h) _

@[simp] theorem execIslandAssign_canon (r : Nat) : LeavesCanon (execIslandAssign r s) := by
  unfold execIslandAssign
  refine hostCmd_canon hm fun b tag v => ?_
  dsimp only
  iterate 2
    split
    · simp [hm]
  rw [State.queueIslands_view]
  generalize hs : List.foldl State.unassign _ _ = u
  have hu : memCanon u.memView = true := by
    rw [← hs]
    exact State.canon_fold (by simp [hm]) (fun _ p h => State.unassign_canon p h) _
  split <;> simp [hu]

@[simp] theorem execEnvelopeStep_canon (watts : Nat) (hotQuarterC : Int) :
    LeavesCanon (execEnvelopeStep watts hotQuarterC s) := by
  simp [execEnvelopeStep, hm]
@[simp] theorem execAdmissionPause_canon (watts : Nat) (ticks : BitVec 32) :
    LeavesCanon (execAdmissionPause watts ticks s) := by
  simp [execAdmissionPause, hm]
@[simp] theorem execEnvelopeSet_canon (r : Nat) : LeavesCanon (execEnvelopeSet r s) := by simp [execEnvelopeSet, hm]
@[simp] theorem execBeatWindowEnd_canon (die : Nat) (beats : BitVec 32) (vcoreMv tj : BitVec 12) :
    LeavesCanon (execBeatWindowEnd die beats vcoreMv tj s) := by
  simp [execBeatWindowEnd, hm]
@[simp] theorem execBeatWindowWrite_canon (die : Nat) (window : BitVec 20) (beats : BitVec 32) :
    LeavesCanon (execBeatWindowWrite die window beats s) := by
  simp [execBeatWindowWrite, hm]
@[simp] theorem execMinRearm_canon (die : Nat) : LeavesCanon (execMinRearm die s) := by simp [execMinRearm, hm]

@[simp] theorem execHoldoverEntry_canon (ppm : BitVec 16) : LeavesCanon (execHoldoverEntry ppm s) := by
  unfold execHoldoverEntry
  dsimp only
  repeat' split
  all_goals simp [hm]

@[simp] theorem execHoldoverExit_canon (ppm : BitVec 16) : LeavesCanon (execHoldoverExit ppm s) := by
  simp [execHoldoverExit, hm]

/-! ### Control messages -/

@[simp] theorem execControlMessage_canon (h : CtlHdr) (o : CtlOrder) : LeavesCanon (execControlMessage h o s) := by
  simp [execControlMessage, hm]

/-! ### MOVE, coolant and pins -/

@[simp] theorem execMove_canon (r : Nat) (dmaOk : Bool) (bytes : List Byte) :
    LeavesCanon (execMove r dmaOk bytes s) := by
  simp [execMove, hm]
@[simp] theorem execMoveComplete_canon (r : Nat) (tag : BitVec 16) (ok : Bool) :
    LeavesCanon (execMoveComplete r tag ok s) := by
  simp [execMoveComplete, hm]
@[simp] theorem execServiceRequest_canon : LeavesCanon (execServiceRequest s) := by simp [execServiceRequest, hm]
@[simp] theorem execCoolantSample_canon (inlet outlet flow : BitVec 16) :
    LeavesCanon (execCoolantSample inlet outlet flow s) := by
  simp [execCoolantSample, hm]
@[simp] theorem execCoolingLow_canon : LeavesCanon (execCoolingLow s) := by simp [execCoolingLow, hm]
@[simp] theorem execCoolingRecovered_canon : LeavesCanon (execCoolingRecovered s) := by simp [execCoolingRecovered, hm]
@[simp] theorem execThermalTrip_canon : LeavesCanon (execThermalTrip s) := by simp [execThermalTrip, hm]
@[simp] theorem execEcsPresChange_canon (x : Nat) (present : Bool) : LeavesCanon (execEcsPresChange x present s) := by
  simp [execEcsPresChange, hm]

/-! ### Register writes -/

@[simp] theorem State.runMbox_canon (op : Byte) : memCanon (s.runMbox op).memView = true := by
  unfold State.runMbox
  repeat' split
  all_goals simp [hm, resState_canon]

@[simp] theorem State.writeMbox_canon (x : Wr) : memCanon (s.writeMbox x).memView = true := by
  unfold State.writeMbox
  dsimp only
  repeat' split
  all_goals simp [hm]

@[simp] theorem State.writeGate_canon (id : RegId) (i : Nat) (x : Wr) :
    memCanon (s.writeGate id i x).memView = true := by
  unfold State.writeGate
  dsimp only
  repeat' split
  all_goals simp [hm, resState_canon]

@[simp] theorem State.writeTest_canon (fd lane : Nat) (id : RegId) (x : Wr) :
    memCanon (s.writeTest fd lane id x).memView = true := by
  unfold State.writeTest
  dsimp only
  repeat' split
  all_goals simp [hm, resState_canon]

@[simp] theorem State.writeAux_canon (id : RegId) (i : Nat) (fw : Bool) (x : Wr) :
    memCanon (s.writeAux id i fw x).memView = true := by
  unfold State.writeAux
  split
  case h_8 =>
    dsimp only
    have hcursor := resState_canon (execBbCursorWrite_canon hm (x.fld s.tally.bbCursor 0) (x.fld s.tally.bbSource 12)) hm
    split
    · exact resState_canon (execBbRelease_canon hcursor) hcursor
    · exact hcursor
  all_goals repeat' split
  all_goals simp [hm, resState_canon]

@[simp] theorem State.writeMain_canon (n : Nat) (id : RegId) (x : Wr) :
    memCanon (s.writeMain n id x).memView = true := by
  unfold State.writeMain
  split
  case h_9 =>
    dsimp only
    split
    · refine resState_canon (execMinRearm_canon ?_ n) ?_ <;> split <;> simp [hm, resState_canon]
    · split <;> simp [hm, resState_canon]
  all_goals simp [hm]

@[simp] theorem State.writeCrook_canon (n i j : Nat) (id : RegId) (x : Wr) :
    memCanon (s.writeCrook n i j id x).memView = true := by
  unfold State.writeCrook
  dsimp only
  repeat' split
  all_goals simp [hm, resState_canon]

@[simp] theorem State.writeReg_canon (b : Blk) (n : Nat) (d : RegDef) (is : List Nat) (fw : Bool) (x : Wr) :
    memCanon (s.writeReg b n d is fw x).memView = true := by
  unfold State.writeReg
  dsimp only
  repeat' split
  all_goals simp [hm]

/-- A word written leaves canonical memory, or no register is there and nothing is left. -/
theorem State.writeWord_canon (b : Blk) (n off : Nat) (fw : Bool) (v : BitVec 32) :
    memCanon (((s.writeWord b n off fw v).map (·.1)).getD s).memView = true := by
  unfold State.writeWord
  cases regAt b n off with
  | none => exact hm
  | some r => exact State.writeReg_canon hm _ _ _ _ _ _

@[simp] theorem State.writeBlk_canon (b : Blk) (n off width : Nat) (fw : Bool) (v : Word) :
    memCanon (s.writeBlk b n off width fw v).memView = true := by
  unfold State.writeBlk
  dsimp only
  repeat' split
  all_goals simp [hm, State.writeWord_canon]

@[simp] theorem State.writeAt_canon (off width : Nat) (fw : Bool) (v : Word) :
    memCanon (s.writeAt off width fw v).memView = true := by
  unfold State.writeAt
  repeat' split
  all_goals simp [hm]

@[simp] theorem execRegisterWrite_canon (off width : Nat) (value : Word) :
    LeavesCanon (execRegisterWrite off width value s) := by
  unfold execRegisterWrite
  split <;> simp [hm]

/-! ### Scalars -/

@[simp] theorem execScaAdd_canon (t : Nat) (f : ScaForm) (o : Op) : LeavesCanon (execScaAdd t f o s) := by
  simp [execScaAdd, hm]
@[simp] theorem execScaSub_canon (t : Nat) (f : ScaForm) (o : Op) : LeavesCanon (execScaSub t f o s) := by
  simp [execScaSub, hm]
@[simp] theorem execScaMul_canon (t : Nat) (f : ScaForm) (o : Op) : LeavesCanon (execScaMul t f o s) := by
  simp [execScaMul, hm]
@[simp] theorem execScaMulh_canon (t : Nat) (f : ScaForm) (o : Op) : LeavesCanon (execScaMulh t f o s) := by
  simp [execScaMulh, hm]
@[simp] theorem execScaMulhu_canon (t : Nat) (f : ScaForm) (o : Op) : LeavesCanon (execScaMulhu t f o s) := by
  simp [execScaMulhu, hm]
@[simp] theorem execScaDiv_canon (t : Nat) (f : ScaForm) (o : Op) : LeavesCanon (execScaDiv t f o s) := by
  simp [execScaDiv, hm]
@[simp] theorem execScaDivu_canon (t : Nat) (f : ScaForm) (o : Op) : LeavesCanon (execScaDivu t f o s) := by
  simp [execScaDivu, hm]
@[simp] theorem execScaRem_canon (t : Nat) (f : ScaForm) (o : Op) : LeavesCanon (execScaRem t f o s) := by
  simp [execScaRem, hm]
@[simp] theorem execScaRemu_canon (t : Nat) (f : ScaForm) (o : Op) : LeavesCanon (execScaRemu t f o s) := by
  simp [execScaRemu, hm]
@[simp] theorem execScaAnd_canon (t : Nat) (f : ScaForm) (o : Op) : LeavesCanon (execScaAnd t f o s) := by
  simp [execScaAnd, hm]
@[simp] theorem execScaOr_canon (t : Nat) (f : ScaForm) (o : Op) : LeavesCanon (execScaOr t f o s) := by
  simp [execScaOr, hm]
@[simp] theorem execScaXor_canon (t : Nat) (f : ScaForm) (o : Op) : LeavesCanon (execScaXor t f o s) := by
  simp [execScaXor, hm]
@[simp] theorem execScaShl_canon (t : Nat) (f : ScaForm) (o : Op) : LeavesCanon (execScaShl t f o s) := by
  simp [execScaShl, hm]
@[simp] theorem execScaShr_canon (t : Nat) (f : ScaForm) (o : Op) : LeavesCanon (execScaShr t f o s) := by
  simp [execScaShr, hm]
@[simp] theorem execScaSra_canon (t : Nat) (f : ScaForm) (o : Op) : LeavesCanon (execScaSra t f o s) := by
  simp [execScaSra, hm]
@[simp] theorem execScaMin_canon (t : Nat) (f : ScaForm) (o : Op) : LeavesCanon (execScaMin t f o s) := by
  simp [execScaMin, hm]
@[simp] theorem execScaMax_canon (t : Nat) (f : ScaForm) (o : Op) : LeavesCanon (execScaMax t f o s) := by
  simp [execScaMax, hm]
@[simp] theorem execScaMinu_canon (t : Nat) (f : ScaForm) (o : Op) : LeavesCanon (execScaMinu t f o s) := by
  simp [execScaMinu, hm]
@[simp] theorem execScaMaxu_canon (t : Nat) (f : ScaForm) (o : Op) : LeavesCanon (execScaMaxu t f o s) := by
  simp [execScaMaxu, hm]
@[simp] theorem execScaLi_canon (t : Nat) (f : ScaForm) (o : Op) : LeavesCanon (execScaLi t f o s) := by
  simp [execScaLi, hm]
@[simp] theorem execScaLih_canon (t : Nat) (f : ScaForm) (o : Op) : LeavesCanon (execScaLih t f o s) := by
  simp [execScaLih, hm]
@[simp] theorem execScaCmp_canon (t : Nat) (f : ScaForm) (o : Op) : LeavesCanon (execScaCmp t f o s) := by
  simp [execScaCmp, hm]
@[simp] theorem execScaPlog_canon (t : Nat) (f : ScaForm) (o : Op) : LeavesCanon (execScaPlog t f o s) := by
  simp [execScaPlog, hm]
@[simp] theorem execScaPget_canon (t : Nat) (f : ScaForm) (o : Op) : LeavesCanon (execScaPget t f o s) := by
  simp [execScaPget, hm]
@[simp] theorem execScaPset_canon (t : Nat) (f : ScaForm) (o : Op) : LeavesCanon (execScaPset t f o s) := by
  simp [execScaPset, hm]
@[simp] theorem execScaAmov_canon (t : Nat) (f : ScaForm) (o : Op) : LeavesCanon (execScaAmov t f o s) := by
  simp [execScaAmov, hm]
@[simp] theorem execScaAget_canon (t : Nat) (f : ScaForm) (o : Op) : LeavesCanon (execScaAget t f o s) := by
  simp [execScaAget, hm]
@[simp] theorem execScaAadd_canon (t : Nat) (f : ScaForm) (o : Op) : LeavesCanon (execScaAadd t f o s) := by
  simp [execScaAadd, hm]

end

end Sys2Proof.Machine
end

section
/-! Every step keeps memory in its canonical form (06, The module address space). -/

namespace Sys2Proof.Machine

open Sys2Proof

/-- Whichever command it is, the state it leads to has canonical memory: each command has its lemma. -/
theorem exec_canon {s : State} (i : Instr) (hm : memCanon s.memView = true) : LeavesCanon (exec i s) := by
  cases i <;> simp [exec, hm]

/-- Settles O59. -/
theorem memoryFormKept : Obligations.MemoryFormKept := by
  intro s u hwf hstep
  unfold step at hstep
  split at hstep
  case h_1 => exact (leavesCanon_next s).mpr hwf u hstep
  case h_2 c cs _ => exact exec_canon (s := { s with pending := cs }) c hwf u hstep

end Sys2Proof.Machine
end
